-- ==== Sys2Proof/Word.lean ====
section
/-! DEFINITION. The word types of Olizil (R8, R56, R89) and the two shapes every table of the machine takes. -/

namespace Sys2Proof

/-- A scalar register, a control register, a geometry register (R89). -/
abbrev Word := BitVec 64

/-- One slot word of a bundle (R56). -/
abbrev SlotWord := BitVec 32

/-- A byte of memory. -/
abbrev Byte := BitVec 8

/-- A vector register: 64 lanes of 32 bits, lane j at bits 32j + 31 : 32j (R92). -/
abbrev VReg := BitVec 2048

/-- A table by number: keys strictly rising; an unlisted key holds the table's default (its reset value). -/
abbrev Tab (α : Type) := List (Nat × α)

end Sys2Proof
end

