-- ==== Sys2Proof/Config.lean ====
section
/-! DEFINITION. What an implementation fixes and the manual leaves open: free values without a body
(nothing can be proved of them but that they are values), applied to a counter of State or to operands. -/

namespace Sys2Proof.Config

/-- A fresh 64-bit value (log entry 3). -/
opaque freeWord : Nat → Word

/-- A fresh natural number: a latency, an index, a key draw (log entry 3). -/
opaque freeNat : Nat → Nat

/-- The vun approximations before their bound is applied: function number, input bits (R143; log entry 4). -/
opaque approx : Nat → Nat → Nat

/-- What a byte reads as under another key than the one it was written under: the two keys' marks,
the physical address, the byte written (R237; log entry 5). -/
opaque wrongKey : Nat → Nat → Nat → Nat → Nat

/-- The signature check of a firmware image or mailbox command (R453; log entry 6). -/
opaque signatureGood : Nat → Bool

/-- The root public key that an image is signed under, and the SHA-512 of Quinquel's, which the boot ROM holds (R453; log entry 6). -/
opaque publicKeyOf : Nat → List Nat
opaque rootKeyHash : List Nat

/-- A mailbox command's contents: its kind (1 loads a key, 2 attests), the entry and the keys of a key load, the nonce of an
attestation (R405, R454; log entry 6). -/
opaque mailKind : Nat → Nat
opaque mailEntry : Nat → Nat
opaque mailKeys : Nat → Nat
opaque mailNonce : Nat → Nat

/-- The identity key's signature of an attestation reply, as a number of its bytes (R454; log entry 6). -/
opaque attest : Nat → Nat

/-- What the capability list says of this device beyond what the manual fixes: the stepping, the Cellar's journal bytes,
the mask of bale-capable hops other than expanders (R415; log entry 3). -/
opaque stepping : Nat
opaque journalBytes : Nat
opaque baleHops : Nat

end Sys2Proof.Config
end

