-- ==== Sys2Proof/Machine/Bits.lean ====
section
/-! DEFINITION. Bit fields, two's complement, tables by number, lanes and elements of vector registers. -/

namespace Sys2Proof.Machine

/-- Bits lo + n - 1 : lo of x. -/
def bits (x lo n : Nat) : Nat := (x >>> lo) % 2 ^ n

/-- Bit k of x. -/
def bit (x k : Nat) : Bool := (x >>> k) % 2 == 1

/-- x with bits lo + n - 1 : lo replaced by v (R8). -/
def setBits (x lo n v : Nat) : Nat :=
  x - ((x >>> lo) % 2 ^ n) <<< lo + (v % 2 ^ n) <<< lo

/-- 1 for true. -/
def b2n (b : Bool) : Nat := if b then 1 else 0

/-- The value of the w-bit pattern x as two's complement (R29). -/
def sext (w x : Nat) : Int :=
  let y := x % 2 ^ w
  if y < 2 ^ (w - 1) then (y : Int) else (y : Int) - (2 ^ w : Nat)

/-- The w-bit pattern of an integer, modulo 2^w (R29). -/
def wrap (w : Nat) (i : Int) : Nat := (i % ((2 ^ w : Nat) : Int)).toNat

/-- An integer clamped to lo .. hi. -/
def clamp (lo hi i : Int) : Int := if i < lo then lo else if hi < i then hi else i

/-- The range of a w-bit integer type, two's complement or natural. -/
def intRange (signed : Bool) (w : Nat) : Int × Int :=
  if signed then (-((2 ^ (w - 1) : Nat) : Int), ((2 ^ (w - 1) : Nat) : Int) - 1) else (0, ((2 ^ w : Nat) : Int) - 1)

/-- The integer that a w-bit pattern stands for. -/
def intOf (signed : Bool) (w x : Nat) : Int := if signed then sext w x else ((x % 2 ^ w : Nat) : Int)

/-- A 64-bit word of a natural number. -/
def wd (n : Nat) : Word := BitVec.ofNat 64 n

/-- A 64-bit word of an integer. -/
def wi (i : Int) : Word := BitVec.ofInt 64 i

/-- Count of one bits among the low n. -/
def popCount : Nat → Nat → Nat
  | 0, _ => 0
  | n + 1, x => x % 2 + popCount n (x / 2)

/-- The n low bits in reverse order. -/
def revBits : Nat → Nat → Nat
  | 0, _ => 0
  | n + 1, x => (x % 2) * 2 ^ n + revBits n (x / 2)

/-- The number of low zero bits, at most n. -/
def trailZeros : Nat → Nat → Nat
  | 0, _ => 0
  | n + 1, x => if x % 2 = 1 then 0 else 1 + trailZeros n (x / 2)

/-- Leading zero bits of a w-bit value. -/
def leadZeros (w x : Nat) : Nat := if x = 0 then w else w - 1 - Nat.log2 x

/-- ceil (a / b). -/
def ceilDiv (a b : Nat) : Nat := (a + b - 1) / b

/-- The nth entry, or a default. -/
def nth (d : α) (l : List α) (n : Nat) : α := l.getD n d

/-- Replace the nth entry, where there is one. -/
def setNth (l : List α) (n : Nat) (v : α) : List α := l.set n v

/-- The entry of a table, or its default. -/
def tget (d : α) : Tab α → Nat → α
  | [], _ => d
  | (k, v) :: t, n => if n = k then v else tget d t n

/-- A table with one entry written; keys stay strictly rising. -/
def tset : Tab α → Nat → α → Tab α
  | [], n, v => [(n, v)]
  | (k, w) :: t, n, v => if n < k then (n, v) :: (k, w) :: t else if n = k then (n, v) :: t else (k, w) :: tset t n v

/-- A table without an entry. -/
def tdel (t : Tab α) (n : Nat) : Tab α := t.filter fun p => p.1 != n

/-- A table with one entry changed. -/
def tmod (d : α) (t : Tab α) (n : Nat) (f : α → α) : Tab α := tset t n (f (tget d t n))

/-- Whether a table lists a key. -/
def thas (t : Tab α) (n : Nat) : Bool := t.any fun p => p.1 == n

/-! ### Lanes and elements -/

/-- The n elements of w bits from the low end of x up (R132). -/
def split (w : Nat) : Nat → Nat → List Nat
  | 0, _ => []
  | n + 1, x => x % 2 ^ w :: split w n (x >>> w)

/-- The inverse of split: the first element lowest. -/
def pack (w : Nat) : List Nat → Nat
  | [] => 0
  | x :: l => x % 2 ^ w + (pack w l) <<< w

/-- The 64 lanes of a vector register (R92). -/
def lanes (v : VReg) : List Nat := split 32 64 v.toNat

/-- The elements of a vector register for a width of w bits (R132). -/
def elems (w : Nat) (v : VReg) : List Nat := split w (2048 / w) v.toNat

/-- A vector register of elements of w bits. -/
def ofElems (w : Nat) (l : List Nat) : VReg := BitVec.ofNat 2048 (pack w l)

/-- The lane whose mask bit an element of w bits follows: a 64-bit element its even lane (R132, R134). -/
def laneOf (w e : Nat) : Nat := if w = 64 then 2 * e else e * w / 32

/-- Which of the elements of its lane an element is (R135). -/
def partOf (w e : Nat) : Nat := if w < 32 then e % (32 / w) else 0

/-- Write the elements that the mask enables (R134). -/
def mergeElems (w : Nat) (mask : Nat) (old new : VReg) : VReg :=
  ofElems w ((((elems w old).zip (elems w new)).zipIdx).map fun p => if bit mask (laneOf w p.2) then p.1.2 else p.1.1)

/-- The little-endian bytes of a value. -/
def toBytes : Nat → Nat → List Nat
  | 0, _ => []
  | n + 1, x => x % 256 :: toBytes n (x / 256)

/-- The value of little-endian bytes. -/
def ofBytes (l : List Nat) : Nat := pack 8 l

end Sys2Proof.Machine
end

