-- ==== Sys2Proof/Machine/Float.lean ====
section
/-! DEFINITION. The floating formats and their one rounding (R30 to R35, R47 to R50, R54), and the functions of vun
(R143, R144). Values are exact: a natural significand times a power of two. -/

namespace Sys2Proof.Machine

/-- A floating format (R30): exponent bits, fraction bits; E4M3 stands apart (R31). -/
structure Fmt where
  ew : Nat
  mw : Nat
  ieee : Bool
  deriving DecidableEq, Repr

def f64 : Fmt := ⟨11, 52, true⟩
def f32 : Fmt := ⟨8, 23, true⟩
def f16 : Fmt := ⟨5, 10, true⟩
def bf16 : Fmt := ⟨8, 7, true⟩
def e5m2 : Fmt := ⟨5, 2, true⟩
def e4m3 : Fmt := ⟨4, 3, false⟩

/-- 2^(ew - 1) - 1 (R30). -/
def Fmt.bias (f : Fmt) : Int := ((2 ^ (f.ew - 1) : Nat) : Int) - 1

/-- Width in bits. -/
def Fmt.width (f : Fmt) : Nat := 1 + f.ew + f.mw

/-- A value: NaN, infinity, or (-1)^sign times m times 2^e. -/
inductive FVal where
  | nan (sign : Bool)
  | inf (sign : Bool)
  | fin (sign : Bool) (m : Nat) (e : Int)
  deriving DecidableEq, Repr

/-- The value of a pattern (R30, R31). -/
def Fmt.decode (f : Fmt) (x : Nat) : FVal :=
  let sign := bit x (f.ew + f.mw)
  let ex := bits x f.mw f.ew
  let fr := bits x 0 f.mw
  if f.ieee && ex == 2 ^ f.ew - 1 then (if fr = 0 then .inf sign else .nan sign)
  else if !f.ieee && ex == 2 ^ f.ew - 1 && fr == 2 ^ f.mw - 1 then .nan sign
  else if ex = 0 then .fin sign fr (1 - f.bias - f.mw)
  else .fin sign (fr + 2 ^ f.mw) ((ex : Int) - f.bias - f.mw)

/-- The significand of the largest finite value. -/
def Fmt.maxSig (f : Fmt) : Nat := if f.ieee then 2 ^ (f.mw + 1) - 1 else 2 ^ (f.mw + 1) - 2

/-- The exponent of its least significant bit. -/
def Fmt.maxExp (f : Fmt) : Int := ((2 ^ f.ew : Nat) : Int) - (if f.ieee then 2 else 1) - f.bias - f.mw

/-- The sign bit in place. -/
def Fmt.signBit (f : Fmt) (s : Bool) : Nat := if s then 2 ^ (f.ew + f.mw) else 0

/-- The largest finite value with a sign. -/
def Fmt.maxBits (f : Fmt) (s : Bool) : Nat :=
  f.signBit s + ((if f.ieee then 2 ^ f.ew - 2 else 2 ^ f.ew - 1) * 2 ^ f.mw + (f.maxSig - 2 ^ f.mw))

/-- The default NaN with a sign (R30). -/
def Fmt.nanBits (f : Fmt) (s : Bool) : Nat :=
  f.signBit s + (2 ^ f.ew - 1) * 2 ^ f.mw + (if f.ieee then 2 ^ (f.mw - 1) else 2 ^ f.mw - 1)

/-- An infinity; E4M3 has none and takes its NaN (R34). -/
def Fmt.infBits (f : Fmt) (s : Bool) : Nat :=
  if f.ieee then f.signBit s + (2 ^ f.ew - 1) * 2 ^ f.mw else f.nanBits s

/-- round_int (R48): m times 2^e in units of 2^q, by mode rnd with the random value r. -/
def roundInt (rnd r : Nat) (sign : Bool) (m : Nat) (e q : Int) : Nat :=
  if q ≤ e then m <<< (e - q).toNat
  else
    let k := (q - e).toNat
    let n := m >>> k
    let f := m % 2 ^ k
    let half := 2 ^ (k - 1)
    if rnd = 0 then (if f < half then n else if half < f then n + 1 else n + n % 2)
    else if rnd = 1 then n
    else if rnd = 2 then (if f ≠ 0 ∧ !sign then n + 1 else n)
    else if rnd = 3 then (if f ≠ 0 ∧ sign then n + 1 else n)
    else (m * 2 ^ 16 + r * 2 ^ k) / 2 ^ (k + 16)

/-- Whether the mode rounds the magnitude down (R33). -/
def roundsDown (rnd : Nat) (sign : Bool) : Bool := rnd == 1 || (rnd == 2 && sign) || (rnd == 3 && !sign)

/-- One rounding of a finite value into a format, with overflow by R33. -/
def Fmt.encodeFin (f : Fmt) (rnd : Nat) (sat : Bool) (r : Nat) (sign : Bool) (m : Nat) (e : Int) : Nat :=
  if m = 0 then f.signBit sign
  else
    let qmin : Int := 1 - f.bias - f.mw
    let q0 : Int := (Nat.log2 m : Int) + e - f.mw
    let q := if q0 < qmin then qmin else q0
    let k := roundInt rnd r sign m e q
    if f.maxExp < q ∨ (q = f.maxExp ∧ f.maxSig < k) then
      (if sat || roundsDown rnd sign then f.maxBits sign else f.infBits sign)
    else f.signBit sign + ((q - qmin).toNat * 2 ^ f.mw + k)

/-- The settings of fmt that a rounding obeys (R94), with the random values of its elements. -/
structure Rnd where
  mode : Nat
  sat : Bool
  deriving DecidableEq, Repr

/-- The result of an arithmetic operation (R32, R33, R54): an infinity stays one. -/
def Fmt.arith (f : Fmt) (o : Rnd) (r : Nat) : FVal → Nat
  | .nan _ => f.nanBits false
  | .inf s => f.infBits s
  | .fin s m e => f.encodeFin o.mode o.sat r s m e

/-- A conversion (R32 to R34): a NaN keeps its sign, an infinity saturates under SAT. -/
def Fmt.convert (f : Fmt) (o : Rnd) (r : Nat) : FVal → Nat
  | .nan s => f.nanBits s
  | .inf s => if o.sat then f.maxBits s else f.infBits s
  | .fin s m e => f.encodeFin o.mode o.sat r s m e

/-- Exact sum; an exact zero takes the sign IEEE 754 gives it under mode rnd (R137). -/
def FVal.add (rnd : Nat) (x y : FVal) : FVal :=
  match x, y with
  | .nan s, _ => .nan s
  | _, .nan s => .nan s
  | .inf s, .inf t => if s == t then .inf s else .nan false
  | .inf s, .fin .. => .inf s
  | .fin .., .inf t => .inf t
  | .fin s m e, .fin t n g =>
    let q := if e < g then e else g
    let a : Nat := m <<< (e - q).toNat
    let b : Nat := n <<< (g - q).toNat
    let i : Int := (if s then -(a : Int) else a) + (if t then -(b : Int) else b)
    if i = 0 then .fin (if m = 0 ∧ n = 0 ∧ s = t then s else rnd == 3) 0 q
    else .fin (decide (i < 0)) i.natAbs q

/-- Exact product. -/
def FVal.mul (x y : FVal) : FVal :=
  match x, y with
  | .nan s, _ => .nan s
  | _, .nan s => .nan s
  | .inf s, .inf t => .inf (s != t)
  | .inf s, .fin t n _ => if n = 0 then .nan false else .inf (s != t)
  | .fin s m _, .inf t => if m = 0 then .nan false else .inf (s != t)
  | .fin s m e, .fin t n g => .fin (s != t) (m * n) (e + g)

/-- The value with its sign flipped. -/
def FVal.neg : FVal → FVal
  | .nan s => .nan (!s)
  | .inf s => .inf (!s)
  | .fin s m e => .fin (!s) m e

/-- NaN or not. -/
def FVal.isNan : FVal → Bool
  | .nan _ => true
  | _ => false

/-- The sign bit. -/
def FVal.sign : FVal → Bool
  | .nan s => s
  | .inf s => s
  | .fin s _ _ => s

/-- x < y for values that are not NaN; the two zeros are equal (R139). -/
def FVal.lt (x y : FVal) : Bool :=
  match x, y with
  | .nan _, _ => false
  | _, .nan _ => false
  | .inf s, .inf t => s && !t
  | .inf s, .fin .. => s
  | .fin .., .inf t => !t
  | .fin s m e, .fin t n g =>
    let q := if e < g then e else g
    let a : Int := m <<< (e - q).toNat
    let b : Int := n <<< (g - q).toNat
    decide ((if s then -a else a) < (if t then -b else b))

/-- x = y for values that are not NaN. -/
def FVal.eqv (x y : FVal) : Bool := !x.isNan && !y.isNan && !x.lt y && !y.lt x

/-- IEEE 754 minimum and maximum: NaN if either is, -0 below +0 (R136). -/
def FVal.minimum (x y : FVal) : FVal :=
  if x.isNan || y.isNan then .nan false
  else if x.lt y then x else if y.lt x then y else if x.sign then x else y

def FVal.maximum (x y : FVal) : FVal :=
  if x.isNan || y.isNan then .nan false
  else if x.lt y then y else if y.lt x then x else if x.sign then y else x

/-- A floating value as an integer of a type (R35). -/
def FVal.toInteger (o : Rnd) (r : Nat) (signed : Bool) (w : Nat) (v : FVal) : Nat :=
  let (lo, hi) := intRange signed w
  match v with
  | .nan _ => 0
  | .inf s => wrap w (if s then lo else hi)
  | .fin s m e =>
    let n := roundInt o.mode r s m e 0
    wrap w (clamp lo hi (if s then -(n : Int) else n))

/-- An integer as a value; zero is +0. -/
def FVal.ofInt (i : Int) : FVal := .fin (decide (i < 0)) i.natAbs 0

/-- Exact widening between formats (R147). -/
def Fmt.widen (f g : Fmt) (x : Nat) : Nat := g.convert ⟨0, false⟩ 0 (f.decode x)

/-! ### Stochastic rounding -/

/-- splitmix64 (R49). -/
def splitmix64 (z : Word) : Word :=
  let z := (z ^^^ (z >>> 30)) * 0xBF58476D1CE4E5B9#64
  let z := (z ^^^ (z >>> 27)) * 0x94D049BB133111EB#64
  z ^^^ (z >>> 31)

/-- The 64-bit value of element j under counter value c (R49, R135). -/
def sr64 (seed : Word) (c j : Nat) : Nat := (splitmix64 (seed + 0x9E3779B97F4A7C15#64 * wd (c * 64 + j))).toNat

/-- r of result element h of lane j (R49, R135). -/
def sr16 (seed : Word) (c j h : Nat) : Nat := bits (sr64 seed c j) (48 - 16 * h) 16

/-! ### Square root, reciprocal and the approximations of vun -/

/-- Newton's iteration for the integer square root, from above. -/
def isqrtLoop : Nat → Nat → Nat → Nat
  | 0, _, g => g
  | k + 1, n, g => let h := (g + n / g) / 2; if h < g then isqrtLoop k n h else g

/-- floor (sqrt n). -/
def isqrt (n : Nat) : Nat := if n = 0 then 0 else isqrtLoop 64 n (2 ^ ((Nat.log2 n) / 2 + 1))

/-- A square root to at least 96 bits, the last bit set where the root is not exact. -/
def sqrtSig (m : Nat) (e : Int) : Nat × Int :=
  let k : Nat := 256 + (e % 2).toNat
  let n := m <<< k
  let g := isqrt n
  (2 * g + b2n (g * g != n), (e - k) / 2 - 1)

/-- A quotient to 128 bits and more, the last bit set where it is not exact. -/
def divSig (m n : Nat) : Nat × Int :=
  let a := m <<< (160 + Nat.log2 n)
  (2 * (a / n) + b2n (a % n != 0), -(161 + (Nat.log2 n : Int)))

/-- Fixed point with 160 fraction bits: ln 2. -/
def ln2Fix : Nat := (List.range 170).foldl (fun a k => a + 2 ^ 160 / ((k + 1) * 2 ^ (k + 1))) 0

/-- Sum of x^k / k!, for 0 ≤ x < 1 in fixed point. -/
def expSeries : Nat → Nat → Nat → Nat → Nat → Nat
  | 0, _, _, _, acc => acc
  | n + 1, k, x, t, acc => expSeries n (k + 1) x (t * x / 2 ^ 160 / (k + 1)) (acc + t)

/-- 2^f for 0 ≤ f < 1 in fixed point. -/
def exp2Frac (f : Nat) : Nat := expSeries 48 0 (f * ln2Fix / 2 ^ 160) (2 ^ 160) 0

/-- 2 to a fixed-point power (Int, 160 fraction bits): significand and exponent. -/
def exp2Fix (x : Int) : Nat × Int := (exp2Frac (x % ((2 ^ 160 : Nat) : Int)).toNat, x / ((2 ^ 160 : Nat) : Int) - 160)

/-- A finite value as fixed point with 160 fraction bits. -/
def toFix (s : Bool) (m : Nat) (e : Int) : Int :=
  let a : Int := if 0 ≤ e + 160 then (m <<< (e + 160).toNat : Nat) else ((m >>> (-(e + 160)).toNat : Nat) : Int)
  if s then -a else a

/-- Sum of z^(2k+1) / (2k+1) in fixed point. -/
def atanhSeries : Nat → Nat → Nat → Nat → Nat → Nat
  | 0, _, _, _, acc => acc
  | n + 1, k, z2, t, acc => atanhSeries n (k + 2) z2 (t * z2 / 2 ^ 160) (acc + t / k)

/-- log2 of a positive value in fixed point. -/
def log2Fix (m : Nat) (e : Int) : Int :=
  let l := Nat.log2 m
  let y := (m <<< 160) >>> l
  let z := (y - 2 ^ 160) * 2 ^ 160 / (y + 2 ^ 160)
  let ln := 2 * atanhSeries 60 1 (z * z / 2 ^ 160) z 0
  (((l : Int) + e) * ((2 ^ 160 : Nat) : Int)) + ((ln * 2 ^ 160 / ln2Fix : Nat) : Int)

/-- The seven approximated functions on a finite operand, as a value good to far more than f32's bits:
3 rcp, 4 rsqrt, 5 exp2, 6 exp, 7 log2, 8 tanh, 9 sigm (R143). -/
def vunExact (fn : Nat) (s : Bool) (m : Nat) (e : Int) : FVal :=
  let ofFix (i : Int) : FVal := .fin (decide (i < 0)) i.natAbs (-160)
  let x := toFix s m e
  let big := 2 ^ 10 * 2 ^ 160
  -- beyond 1024 in magnitude every exponential has over- or underflowed f32
  let x := clamp (-(big : Int)) big x
  let xl := x * ((2 ^ 160 : Nat) : Int) / (ln2Fix : Int)
  match fn with
  | 3 => let (q, g) := divSig 1 m; .fin s q (g - e)
  | 4 => let (r, g) := sqrtSig m e; let (q, h) := divSig 1 r; .fin false q (h - g)
  | 5 => let (q, g) := exp2Fix x; .fin false q g
  | 6 => let (q, g) := exp2Fix xl; .fin false q g
  | 7 => ofFix (log2Fix m e)
  | 8 =>
    let (q, g) := exp2Fix (-2 * (x.natAbs : Int) * ((2 ^ 160 : Nat) : Int) / (ln2Fix : Int))
    let y := (toFix false q g).natAbs
    .fin s ((2 ^ 160 - y) * 2 ^ 160 / (2 ^ 160 + y)) (-160)
  | _ =>
    let (q, g) := exp2Fix (-((x.natAbs : Int) * ((2 ^ 160 : Nat) : Int) / (ln2Fix : Int)))
    let y := (toFix false q g).natAbs
    .fin false ((if s then y else 2 ^ 160) * 2 ^ 160 / (2 ^ 160 + y)) (-160)

/-- The distance of two finite values is at most 2^t. -/
def closeTo (t : Int) (x y : FVal) : Bool :=
  match FVal.add 0 x y.neg with
  | .fin _ m e => if m = 0 then true else
      if t < e then false else decide (m ≤ 2 ^ (t - e).toNat)
  | _ => false

/-- One unit in the last place of f32 at a value, as a power of two. -/
def ulpExp (v : FVal) : Int :=
  match v with
  | .fin _ m e => let q := (Nat.log2 m : Int) + e - 23; if m = 0 ∨ q < -149 then -149 else q
  | _ => -149

/-- Whether a finite f32 result is within the bound R143 gives for function fn of the exact value v. -/
def vunWithin (fn : Nat) (inRange : Bool) (v c : FVal) : Bool :=
  match fn with
  | 3 => closeTo (ulpExp v) v c
  | 4 => closeTo (ulpExp v) v c
  | 5 => closeTo (ulpExp v + 1) v c
  | 6 => closeTo (ulpExp v + 1) v c
  | 7 => if inRange then closeTo (-22) v c else closeTo (ulpExp v + 1) v c
  | 8 => closeTo (-21) v c
  | _ => closeTo (-22) v c

/-- The special results of R144, where the operand has one; vsqrt is fn 2. -/
def vunSpecial (fn : Nat) (v : FVal) : Option FVal :=
  let one : FVal := .fin false 1 0
  match v with
  | .nan _ => some (.nan false)
  | .inf s =>
    match fn with
    | 2 => some (if s then .nan false else .inf false)
    | 3 => some (.fin s 0 0)
    | 4 => some (if s then .nan false else .fin false 0 0)
    | 5 => some (if s then .fin false 0 0 else .inf false)
    | 6 => some (if s then .fin false 0 0 else .inf false)
    | 7 => some (if s then .nan false else .inf false)
    | 8 => some (.fin s 1 0)
    | _ => some (if s then .fin false 0 0 else one)
  | .fin s m _ =>
    if m = 0 then
      match fn with
      | 2 => some (.fin s 0 0)
      | 3 => some (.inf s)
      | 4 => some (.inf s)
      | 5 => some one
      | 6 => some one
      | 7 => some (.inf true)
      | 8 => some (.fin s 0 0)
      | _ => some (.fin false 1 (-1))
    else if s && (fn == 2 || fn == 4 || fn == 7) then some (.nan false)
    else none

/-- The f32 result of an approximation, a value: the implementation's own where it meets the bound of R143, else
the correctly rounded one (log entry 4). It is rounded to nearest even, so one that overflows f32 is an infinity, which a narrower
type keeps whatever fmt.RND holds (DESIGN CHOICE, log entry 37). -/
def vunF32 (fn : Nat) (v : FVal) (x32 : Nat) (sat : Bool) : FVal :=
  match vunSpecial fn v with
  | some w => w
  | none =>
    match v with
    | .fin s m e =>
      let w := vunExact fn s m e
      let ref := f32.arith ⟨0, sat⟩ 0 w
      match f32.decode ref with
      | .inf t => .inf t
      | rv =>
        if ref == f32.maxBits false || ref == f32.maxBits true then rv
        else
          let c := Config.approx fn x32 % 2 ^ 32
          let cv := f32.decode c
          let inRange := !FVal.lt v (.fin false 1 (-1)) && !FVal.lt (.fin false 2 0) v
          if vunWithin fn inRange w cv then cv else rv
    | _ => v

/-- sqrt as a value with its last bit sticky (R143). -/
def vsqrtVal (v : FVal) : FVal :=
  match vunSpecial 2 v with
  | some w => w
  | none =>
    match v with
    | .fin _ m e => let (q, g) := sqrtSig m e; .fin false q g
    | _ => v

end Sys2Proof.Machine
end

