-- ==== Sys2Proof/Machine/Bale.lean ====
section
/-! DEFINITION. CRC-32C, and the bale format (R234). -/

namespace Sys2Proof.Machine

/-- CRC-32C, one bit at a time. -/
def crcBit (c : Nat) : Nat := if c % 2 = 1 then c / 2 ^^^ 0x82F63B78 else c / 2
def crcByte (c b : Nat) : Nat := (List.range 8).foldl (fun c _ => crcBit c) (c ^^^ b)
def crc32c (l : List Nat) : Nat := (l.foldl crcByte 0xFFFFFFFF) ^^^ 0xFFFFFFFF

/-! ### The bale format (R234) -/

/-- The 64-byte granules of a block that are not all zero. -/
def baleMask (l : List Nat) : Nat :=
  (List.range 64).foldl (fun m i => if ((l.drop (64 * i)).take 64).any (· != 0) then m + 2 ^ i else m) 0

def baleSize (mask : Nat) : Nat := 64 + 64 * popCount 64 mask

/-- A 4 KiB block as a bale. -/
def baleEncode (l : List Nat) : List Nat :=
  let m := baleMask l
  toBytes 8 m ++ toBytes 4 (crc32c l) ++ [1] ++ List.replicate 51 0 ++
    ((List.range 64).filter (bit m)).flatMap fun i => (l.drop (64 * i)).take 64

/-- The block of a bale; none where the header or the CRC is bad. -/
def baleDecode (l : List Nat) : Option (List Nat) :=
  let m := ofBytes (l.take 8)
  let b := (List.range 64).flatMap fun i =>
    if bit m i then (l.drop (64 + 64 * popCount i m)).take 64 else List.replicate 64 0
  if l.getD 12 0 = 1 ∧ ((l.drop 13).take 51).all (· == 0) ∧ ofBytes ((l.drop 8).take 4) = crc32c b then some b else none

/-- Whether a page or the Granary stores a block as a bale. -/
def baleStores (l : List Nat) : Bool := l.length == 4096 && decide (popCount 64 (baleMask l) ≤ 62)

end Sys2Proof.Machine
end

