-- ==== Sys2Proof/Syntax.lean ====
section
/-! DEFINITION. Olizil's instructions and the steps of the device around them: one constructor for each row of
the opcode table. A slot form carries the fields of its word, by the table's names; an event (a row without an
encoding) finds its operands in State's field ev, in the order its docstring gives. Two forms with few operand values
are one constructor per value, so that no more constructors carry fields than Lean can compile. -/

namespace Sys2Proof

/-- The five maps that decode slot words (R60, R62 to R66). -/
inductive SlotMap where
  | s | v | m | c | x
  deriving DecidableEq, Repr

/-- One constructor per row of the opcode table. -/
inductive Instr where
  /-- R107. -/
  | add (d : Nat) (a : Nat) (b : Nat)
  /-- R107. -/
  | sub (d : Nat) (a : Nat) (b : Nat)
  /-- R107. -/
  | and (d : Nat) (a : Nat) (b : Nat)
  /-- R107. -/
  | or (d : Nat) (a : Nat) (b : Nat)
  /-- R107. -/
  | xor (d : Nat) (a : Nat) (b : Nat)
  /-- R107. -/
  | andn (d : Nat) (a : Nat) (b : Nat)
  /-- R107. -/
  | shl (d : Nat) (a : Nat) (b : Nat)
  /-- R107. -/
  | shr (d : Nat) (a : Nat) (b : Nat)
  /-- R107. -/
  | sar (d : Nat) (a : Nat) (b : Nat)
  /-- R107. -/
  | ror (d : Nat) (a : Nat) (b : Nat)
  /-- R107. -/
  | minI64 (d : Nat) (a : Nat) (b : Nat)
  /-- R107. -/
  | minN64 (d : Nat) (a : Nat) (b : Nat)
  /-- R107. -/
  | maxI64 (d : Nat) (a : Nat) (b : Nat)
  /-- R107. -/
  | maxN64 (d : Nat) (a : Nat) (b : Nat)
  /-- R107. -/
  | addsI64 (d : Nat) (a : Nat) (b : Nat)
  /-- R107. -/
  | addsN64 (d : Nat) (a : Nat) (b : Nat)
  /-- R107. -/
  | subsI64 (d : Nat) (a : Nat) (b : Nat)
  /-- R107. -/
  | subsN64 (d : Nat) (a : Nat) (b : Nat)
  /-- R107. -/
  | mul (d : Nat) (a : Nat) (b : Nat)
  /-- R107. -/
  | mulhI64 (d : Nat) (a : Nat) (b : Nat)
  /-- R107. -/
  | mulhN64 (d : Nat) (a : Nat) (b : Nat)
  /-- R108. -/
  | clz (d : Nat) (a : Nat)
  /-- R108. -/
  | ctz (d : Nat) (a : Nat)
  /-- R108. -/
  | popc (d : Nat) (a : Nat)
  /-- R108. -/
  | neg (d : Nat) (a : Nat)
  /-- R108. -/
  | not (d : Nat) (a : Nat)
  /-- R108. -/
  | abs (d : Nat) (a : Nat)
  /-- R108. -/
  | sx8 (d : Nat) (a : Nat)
  /-- R108. -/
  | sx16 (d : Nat) (a : Nat)
  /-- R108. -/
  | sx32 (d : Nat) (a : Nat)
  /-- R108. -/
  | zx8 (d : Nat) (a : Nat)
  /-- R108. -/
  | zx16 (d : Nat) (a : Nat)
  /-- R108. -/
  | zx32 (d : Nat) (a : Nat)
  /-- R108. -/
  | brev (d : Nat) (a : Nat)
  /-- R108. -/
  | bswap (d : Nat) (a : Nat)
  /-- R109. -/
  | divI64 (d : Nat) (a : Nat) (b : Nat)
  /-- R109. -/
  | divN64 (d : Nat) (a : Nat) (b : Nat)
  /-- R109. -/
  | remI64 (d : Nat) (a : Nat) (b : Nat)
  /-- R109. -/
  | remN64 (d : Nat) (a : Nat) (b : Nat)
  /-- R110. -/
  | cmp (d : Nat) (a : Nat) (b : Nat) (c : Nat)
  /-- R111. -/
  | addi (d : Nat) (a : Nat) (i : Nat)
  /-- R111. -/
  | andi (d : Nat) (a : Nat) (i : Nat)
  /-- R111. -/
  | ori (d : Nat) (a : Nat) (i : Nat)
  /-- R111. -/
  | xori (d : Nat) (a : Nat) (i : Nat)
  /-- R112. -/
  | shli (d : Nat) (a : Nat) (n : Nat)
  /-- R112. -/
  | shri (d : Nat) (a : Nat) (n : Nat)
  /-- R112. -/
  | sari (d : Nat) (a : Nat) (n : Nat)
  /-- R112. -/
  | rori (d : Nat) (a : Nat) (n : Nat)
  /-- R110. -/
  | cmpi (d : Nat) (a : Nat) (c : Nat) (i : Nat)
  /-- R113. -/
  | movi (d : Nat) (i : Nat)
  /-- R113. -/
  | movk (d : Nat) (a : Nat) (i : Nat)
  /-- R114. -/
  | lea (d : Nat) (a : Nat) (i : Nat)
  /-- R115. -/
  | bextN64 (d : Nat) (a : Nat) (l : Nat) (p : Nat)
  /-- R115. -/
  | bextI64 (d : Nat) (a : Nat) (l : Nat) (p : Nat)
  /-- R115. -/
  | bins (d : Nat) (a : Nat) (l : Nat) (p : Nat)
  /-- R116. -/
  | crd (d : Nat) (n : Nat)
  /-- R116. -/
  | cwr (a : Nat) (n : Nat)
  /-- R118. -/
  | gset (a : Nat) (f : Nat) (i : Nat)
  /-- R118. -/
  | gget (d : Nat) (f : Nat) (i : Nat)
  /-- R240. -/
  | ld (d : Nat) (a : Nat) (t : Nat) (o : Nat)
  /-- R242. -/
  | st (d : Nat) (a : Nat) (t : Nat) (o : Nat)
  /-- R244. -/
  | ldx (d : Nat) (o : Nat)
  /-- R244. -/
  | stx (d : Nat) (o : Nat)
  /-- R246. -/
  | ldAcq (d : Nat) (a : Nat) (s : Nat) (z : Nat) (o : Nat)
  /-- R246. -/
  | stRel (d : Nat) (a : Nat) (s : Nat) (z : Nat) (o : Nat)
  /-- R248. -/
  | amoAdd (d : Nat) (a : Nat) (b : Nat) (s : Nat) (o : Nat) (z : Nat)
  /-- R248. -/
  | amoAnd (d : Nat) (a : Nat) (b : Nat) (s : Nat) (o : Nat) (z : Nat)
  /-- R248. -/
  | amoOr (d : Nat) (a : Nat) (b : Nat) (s : Nat) (o : Nat) (z : Nat)
  /-- R248. -/
  | amoXor (d : Nat) (a : Nat) (b : Nat) (s : Nat) (o : Nat) (z : Nat)
  /-- R248. -/
  | amoMinI (d : Nat) (a : Nat) (b : Nat) (s : Nat) (o : Nat) (z : Nat)
  /-- R248. -/
  | amoMaxI (d : Nat) (a : Nat) (b : Nat) (s : Nat) (o : Nat) (z : Nat)
  /-- R248. -/
  | amoMinN (d : Nat) (a : Nat) (b : Nat) (s : Nat) (o : Nat) (z : Nat)
  /-- R248. -/
  | amoMaxN (d : Nat) (a : Nat) (b : Nat) (s : Nat) (o : Nat) (z : Nat)
  /-- R248. -/
  | amoSwap (d : Nat) (a : Nat) (b : Nat) (s : Nat) (o : Nat) (z : Nat)
  /-- R248. -/
  | amoFadd (d : Nat) (a : Nat) (b : Nat) (s : Nat) (o : Nat) (z : Nat)
  /-- R249. -/
  | cas (d : Nat) (a : Nat) (b : Nat) (s : Nat) (o : Nat) (z : Nat)
  /-- R251. -/
  | fence (d : Nat) (s : Nat)
  /-- R252. -/
  | fwait (a : Nat)
  /-- R253. -/
  | publish (a : Nat) (s : Nat)
  /-- R256. -/
  | xformSplit (d : Nat) (a : Nat) (b : Nat) (f : Nat)
  /-- R256. -/
  | xformMerge (d : Nat) (a : Nat) (b : Nat) (f : Nat)
  /-- R257. -/
  | xformConv (d : Nat) (a : Nat) (b : Nat) (f : Nat) (g : Nat)
  /-- R257. -/
  | xformZero (d : Nat) (b : Nat)
  /-- R257. -/
  | xformBpack (d : Nat) (a : Nat) (b : Nat)
  /-- R257. -/
  | xformBunpack (d : Nat) (a : Nat) (b : Nat)
  /-- R197. -/
  | phaseStart (a : Nat) (n : Nat) (m : Nat)
  /-- R264. -/
  | ckseal (d : Nat) (a : Nat) (n : Nat)
  /-- R377. -/
  | spawn (d : Nat) (a : Nat) (n : Nat)
  /-- R378. -/
  | suspend (s : Nat) (p : Nat) (f : Nat)
  /-- R380. -/
  | crewJoin (d : Nat) (a : Nat)
  /-- R380. -/
  | crewInfo (d : Nat) (a : Nat)
  /-- R387. -/
  | wvpin (d : Nat) (a : Nat)
  /-- R387. -/
  | wvpinT (d : Nat) (a : Nat) (b : Nat)
  /-- R387. -/
  | wvget (d : Nat) (a : Nat)
  /-- R387. -/
  | wvgetT (d : Nat) (a : Nat) (b : Nat)
  /-- R387. -/
  | wvrel (d : Nat) (a : Nat)
  /-- R387. -/
  | wvrelT (d : Nat) (a : Nat) (b : Nat)
  /-- R387. -/
  | wvnewStage (d : Nat) (a : Nat)
  /-- R387. -/
  | wvnewPub (a : Nat)
  /-- R382. -/
  | arrive (d : Nat) (a : Nat) (b : Nat)
  /-- R384. -/
  | mwaitN32 (d : Nat) (a : Nat) (b : Nat)
  /-- R384. -/
  | mwaitN64 (d : Nat) (a : Nat) (b : Nat)
  /-- R383. -/
  | gtrig (d : Nat) (a : Nat) (b : Nat)
  /-- R424. -/
  | barInit (a : Nat) (b : Nat)
  /-- R424. -/
  | barExpect (a : Nat) (b : Nat)
  /-- R424. -/
  | barArrive (d : Nat) (a : Nat) (b : Nat)
  /-- R425. -/
  | barWait (d : Nat) (a : Nat) (b : Nat)
  /-- R425. -/
  | barTest (d : Nat) (a : Nat) (b : Nat)
  /-- R427. -/
  | rdcnt (d : Nat) (n : Nat)
  /-- R354. -/
  | rbeg (l : Nat)
  /-- R119. -/
  | chkt (a : Nat) (b : Nat)
  /-- R381. -/
  | dormArm (d : Nat) (a : Nat)
  /-- R381. -/
  | dormDisarm (d : Nat) (a : Nat)
  /-- R381. -/
  | dormCount (d : Nat)
  /-- R136. -/
  | vfadd (d : Nat) (a : Nat) (b : Nat)
  /-- R136. -/
  | vfsub (d : Nat) (a : Nat) (b : Nat)
  /-- R136. -/
  | vfmul (d : Nat) (a : Nat) (b : Nat)
  /-- R136. -/
  | vfmin (d : Nat) (a : Nat) (b : Nat)
  /-- R136. -/
  | vfmax (d : Nat) (a : Nat) (b : Nat)
  /-- R136. -/
  | vfsgn (d : Nat) (a : Nat) (b : Nat)
  /-- R137. -/
  | vfma (d : Nat) (a : Nat) (b : Nat) (c : Nat)
  /-- R137. -/
  | vfms (d : Nat) (a : Nat) (b : Nat) (c : Nat)
  /-- R137. -/
  | vnfma (d : Nat) (a : Nat) (b : Nat) (c : Nat)
  /-- R137. -/
  | vnfms (d : Nat) (a : Nat) (b : Nat) (c : Nat)
  /-- R138. -/
  | viadd (d : Nat) (a : Nat) (b : Nat)
  /-- R138. -/
  | visub (d : Nat) (a : Nat) (b : Nat)
  /-- R138. -/
  | vimul (d : Nat) (a : Nat) (b : Nat)
  /-- R138. -/
  | vimulh (d : Nat) (a : Nat) (b : Nat)
  /-- R138. -/
  | vand (d : Nat) (a : Nat) (b : Nat)
  /-- R138. -/
  | vor (d : Nat) (a : Nat) (b : Nat)
  /-- R138. -/
  | vxor (d : Nat) (a : Nat) (b : Nat)
  /-- R138. -/
  | vandn (d : Nat) (a : Nat) (b : Nat)
  /-- R138. -/
  | vshl (d : Nat) (a : Nat) (b : Nat)
  /-- R138. -/
  | vshr (d : Nat) (a : Nat) (b : Nat)
  /-- R138. -/
  | vsar (d : Nat) (a : Nat) (b : Nat)
  /-- R138. -/
  | vimin (d : Nat) (a : Nat) (b : Nat)
  /-- R138. -/
  | vimax (d : Nat) (a : Nat) (b : Nat)
  /-- R138. -/
  | viadds (d : Nat) (a : Nat) (b : Nat)
  /-- R138. -/
  | visubs (d : Nat) (a : Nat) (b : Nat)
  /-- R138. -/
  | viabs (d : Nat) (a : Nat)
  /-- R138. -/
  | vineg (d : Nat) (a : Nat)
  /-- R139. -/
  | vcmp (d : Nat) (a : Nat) (b : Nat) (k : Nat)
  /-- R139. -/
  | vcmpm (a : Nat) (b : Nat) (k : Nat)
  /-- R140. -/
  | vsel (d : Nat) (a : Nat) (b : Nat) (c : Nat)
  /-- R140. -/
  | vsels (d : Nat) (a : Nat) (b : Nat) (c : Nat)
  /-- R141. -/
  | vcvt (d : Nat) (a : Nat) (p : Nat) (s : Nat)
  /-- R142. -/
  | vcvtTote (d : Nat) (a : Nat) (m : Nat)
  /-- R142. -/
  | vcvtFrte (d : Nat) (a : Nat) (m : Nat)
  /-- R143. -/
  | vfabs (d : Nat) (a : Nat)
  /-- R143. -/
  | vfneg (d : Nat) (a : Nat)
  /-- R143. -/
  | vsqrt (d : Nat) (a : Nat)
  /-- R143. -/
  | vrcp (d : Nat) (a : Nat)
  /-- R143. -/
  | vrsqrt (d : Nat) (a : Nat)
  /-- R143. -/
  | vexp2 (d : Nat) (a : Nat)
  /-- R143. -/
  | vexp (d : Nat) (a : Nat)
  /-- R143. -/
  | vlog2 (d : Nat) (a : Nat)
  /-- R143. -/
  | vtanh (d : Nat) (a : Nat)
  /-- R143. -/
  | vsigm (d : Nat) (a : Nat)
  /-- R145. -/
  | vperm (d : Nat) (a : Nat) (b : Nat)
  /-- R145. -/
  | vperm2 (d : Nat) (a : Nat) (b : Nat) (c : Nat)
  /-- R145. -/
  | vzipl (d : Nat) (a : Nat) (b : Nat)
  /-- R145. -/
  | vziph (d : Nat) (a : Nat) (b : Nat)
  /-- R145. -/
  | vunze (d : Nat) (a : Nat) (b : Nat)
  /-- R145. -/
  | vunzo (d : Nat) (a : Nat) (b : Nat)
  /-- R146. -/
  | vrot (d : Nat) (a : Nat) (n : Nat)
  /-- R146. -/
  | vshd (d : Nat) (a : Nat) (n : Nat)
  /-- R146. -/
  | vcat (d : Nat) (a : Nat) (b : Nat) (n : Nat)
  /-- R147. -/
  | vredadd (d : Nat) (a : Nat)
  /-- R147. -/
  | vredmin (d : Nat) (a : Nat)
  /-- R147. -/
  | vredmax (d : Nat) (a : Nat)
  /-- R147. -/
  | vredand (d : Nat) (a : Nat)
  /-- R147. -/
  | vredor (d : Nat) (a : Nat)
  /-- R147. -/
  | vredxor (d : Nat) (a : Nat)
  /-- R148. -/
  | vscanadd (d : Nat) (a : Nat)
  /-- R148. -/
  | vscanmin (d : Nat) (a : Nat)
  /-- R148. -/
  | vscanmax (d : Nat) (a : Nat)
  /-- R148. -/
  | vscanxadd (d : Nat) (a : Nat)
  /-- R148. -/
  | vscanxmin (d : Nat) (a : Nat)
  /-- R148. -/
  | vscanxmax (d : Nat) (a : Nat)
  /-- R149. -/
  | vcomp (d : Nat) (a : Nat)
  /-- R149. -/
  | vexpd (d : Nat) (a : Nat)
  /-- R149. -/
  | vm2v (d : Nat)
  /-- R149. -/
  | vnzm (a : Nat)
  /-- R150. -/
  | vmovi (d : Nat) (i : Nat)
  /-- R150. -/
  | vmovih (d : Nat) (i : Nat)
  /-- R151. -/
  | vext (d : Nat) (a : Nat) (l : Nat)
  /-- R151. -/
  | vexts (d : Nat) (a : Nat) (l : Nat)
  /-- R151. -/
  | vext64 (d : Nat) (a : Nat) (l : Nat)
  /-- R152. -/
  | vaccr (d : Nat) (b : Nat) (q : Nat) (u : Nat)
  /-- R152. -/
  | vaccw (a : Nat) (b : Nat) (q : Nat) (u : Nat)
  /-- R152. -/
  | vaccrF64 (d : Nat) (b : Nat) (q : Nat) (u : Nat)
  /-- R152. -/
  | vaccwF64 (a : Nat) (b : Nat) (q : Nat) (u : Nat)
  /-- R259. -/
  | vld (d : Nat) (a : Nat) (m : Nat)
  /-- R259. -/
  | vst (a : Nat) (c : Nat) (m : Nat)
  /-- R260. -/
  | vgat (d : Nat) (a : Nat) (b : Nat)
  /-- R260. -/
  | vscat (a : Nat) (b : Nat) (c : Nat)
  /-- R154. -/
  | vqh (d : Nat) (k : Nat)
  /-- R155. -/
  | vchk (a : Nat) (b : Nat)
  /-- R170. -/
  | tmm (g : Nat) (x : Nat) (y : Nat)
  /-- R171. -/
  | tmmt (g : Nat) (x : Nat) (y : Nat)
  /-- R175. -/
  | tlx (g : Nat) (x : Nat) (y : Nat)
  /-- R175. -/
  | tlxT (g : Nat) (x : Nat) (y : Nat)
  /-- R175. -/
  | tlxX (g : Nat) (x : Nat) (y : Nat)
  /-- R175. -/
  | tlxTx (g : Nat) (x : Nat) (y : Nat)
  /-- R176. -/
  | tla (g : Nat) (x : Nat) (y : Nat)
  /-- R176. -/
  | tlaT (g : Nat) (x : Nat) (y : Nat)
  /-- R174. -/
  | tproj (g : Nat) (x : Nat) (y : Nat)
  /-- R173. -/
  | tlplE (g : Nat) (x : Nat) (y : Nat)
  /-- R173. -/
  | tlplA (g : Nat) (x : Nat) (y : Nat)
  /-- R173. -/
  | tlplEa (g : Nat) (x : Nat) (y : Nat)
  /-- R178. -/
  | tzero (m : Nat)
  /-- R179. -/
  | tldacc (f : Nat) (x : Nat) (y : Nat) (u : Nat)
  /-- R180. -/
  | tstacc (f : Nat) (x : Nat) (y : Nat) (u : Nat)
  /-- R180. -/
  | tstaccG (f : Nat) (x : Nat) (y : Nat) (u : Nat)
  /-- R182. -/
  | tscale (x : Nat) (y : Nat) (m : Nat)
  /-- R330. -/
  | cpy (c : Nat) (g : Nat) (x : Nat) (y : Nat) (f : Nat)
  /-- R336. -/
  | cpym (c : Nat) (g : Nat) (x : Nat) (y : Nat) (m : Nat) (f : Nat)
  /-- R338. -/
  | rdx (c : Nat) (g : Nat) (x : Nat) (y : Nat) (m : Nat) (f : Nat)
  /-- R339. -/
  | drain (c : Nat)
  /-- R342. -/
  | qpush (k : Nat) (x : Nat) (y : Nat)
  /-- R346. -/
  | stash (c : Nat) (g : Nat) (x : Nat) (y : Nat)
  /-- R347. -/
  | unstash (c : Nat) (g : Nat) (x : Nat) (y : Nat) (f : Nat)
  /-- R348. -/
  | sdrop (c : Nat) (y : Nat)
  /-- R343. -/
  | chsend (c : Nat) (g : Nat) (x : Nat) (y : Nat)
  /-- R344. -/
  | chack (c : Nat) (y : Nat)
  /-- R349. -/
  | glean (c : Nat) (g : Nat) (x : Nat) (y : Nat)
  /-- R122. -/
  | br (c : Nat) (a : Nat) (o : Nat)
  /-- R122. -/
  | call (o : Nat)
  /-- R122. -/
  | jr (a : Nat)
  /-- R122. -/
  | jrl (a : Nat)
  /-- R123. -/
  | loopEnter (a : Nat) (o : Nat)
  /-- R123. -/
  | loop (a : Nat) (o : Nat)
  /-- R125. -/
  | mpush (a : Nat)
  /-- R125. -/
  | mpushRaw (a : Nat)
  /-- R125. -/
  | mpop (n : Nat)
  /-- R126. -/
  | bnone (o : Nat)
  /-- R127. -/
  | fmtw (a : Nat)
  /-- R127. -/
  | fmtwVty (v : Nat)
  /-- R127. -/
  | fmtwMab (b : Nat) (a : Nat)
  /-- R127. -/
  | fmtwRnd (i : Nat) (s : Nat) (r : Nat)
  /-- R129. -/
  | trap (c : Nat) (a : Nat) (k : Nat)
  /-- R129. -/
  | sysc (k : Nat)
  /-- R129. -/
  | ebrk (k : Nat)
  /-- R131. -/
  | halt (k : Nat)
  /-- R56. -/
  | nopS
  /-- R262, the form with s = 0. -/
  | phaseCommitCore
  /-- R262, the form with s = 1. -/
  | phaseCommitClu
  /-- R262, the form with s = 2. -/
  | phaseCommitDev
  /-- R262, the form with s = 3. -/
  | phaseCommitSys
  /-- R262, the form with s = 4. -/
  | phaseCommitRcv
  /-- R262. -/
  | phaseAbort
  /-- R379. -/
  | exit
  /-- R380. -/
  | crewLeave
  /-- R356. -/
  | rcom
  /-- R56. -/
  | nopV
  /-- R64. -/
  | nopM
  /-- R165. -/
  | twait
  /-- R65. -/
  | nopC
  /-- R66. -/
  | nopX
  /-- R125. -/
  | minv
  /-- R127, the form with c = 0, b = 0. -/
  | fmtwBlk00
  /-- R127, the form with c = 0, b = 1. -/
  | fmtwBlk01
  /-- R127, the form with c = 1, b = 0. -/
  | fmtwBlk10
  /-- R127, the form with c = 1, b = 1. -/
  | fmtwBlk11
  /-- R130. -/
  | yield
  /-- R73. Operands: c. -/
  | bundleIssue
  /-- R73. Operands: c. -/
  | bundleCommit
  /-- R75. Operands: c. -/
  | resultLanding
  /-- R241. Operands: c, k, i. -/
  | globalLoadReturn
  /-- R200. Operands: c, k. -/
  | phaseReissue
  /-- R228. Operands: k. -/
  | walkComplete
  /-- R205. Operands: c, k. -/
  | killComplete
  /-- R104. Operands: c. -/
  | contextLeave
  /-- R23. Operands: c. -/
  | preemptionSwitch
  /-- R16. Operands: cl. -/
  | dispatch
  /-- R314. Operands: cl, k. -/
  | readyEntryAging
  /-- R315. Operands: st, tag, kind, slot, src of each record of one cycle. -/
  | arrivalPost
  /-- R371. Operands: st, kind. -/
  | arrivalQueueAging
  /-- R218. Operands: cl. -/
  | squareZeroingComplete
  /-- R364. Operands: v. -/
  | trig
  /-- R368. -/
  | replayStart
  /-- R393. Operands: i. -/
  | prefetchComplete
  /-- R319. -/
  | granaryRequest
  /-- R489. Operands: v. -/
  | killreq
  /-- R359. Operands: o, v. -/
  | schedulerMemoryWrite
  /-- R312. Operands: cl, byte offset o of the block, v. -/
  | ringBlockWrite
  /-- R216. Operands: c, the code of L1. -/
  | splitChange
  /-- R231. Operands: space, va, all. -/
  | tlbInvalidate
  /-- R231. -/
  | invalidationComplete
  /-- R409. Operands: v. -/
  | rtload
  /-- R409. -/
  | routeTableSwitch
  /-- R435. Operands: a, the physical address of the command. -/
  | migcmd
  /-- R435. -/
  | migrationMoveComplete
  /-- R434. -/
  | migrationReport
  /-- R433. Operands: a, h, the HEAT bit of the page's leaf. -/
  | memoryControllerAccess
  /-- R433. -/
  | heatDecay
  /-- R447. Operands: p. -/
  | clrq
  /-- R405. Operands: k, cmd. -/
  | keyLoad
  /-- R454. Operands: nonce. -/
  | attestation
  /-- R453. Operands: ver, image. -/
  | firmwareUpdate
  /-- R413. Operands: g, cel: 1 for a granule of a cellar page. -/
  | granuleRetire
  /-- R438. Operands: b, n. -/
  | hostApertureRead
  /-- R438. Operands: b, n, v. -/
  | hostApertureWrite
  /-- R440. Operands: v. -/
  | intstatClear
  /-- R396. Operands: o, v. -/
  | registerWindowWrite
  /-- R25. Operands: c, k. -/
  | parkTimeout
  /-- R384. Operands: c, k. -/
  | contextWake
  /-- R431. Operands: c. -/
  | spinPark
  /-- R351. Operands: k. -/
  | remoteTimeout
  /-- R408. Operands: k, then the credits free at each port. -/
  | packetHop
  /-- R232. Operands: k, err: 1 for an atomic that cannot complete its write. -/
  | ownerRequest
  /-- R351. Operands: k. -/
  | remoteReply
  /-- R351. Operands: k. -/
  | storeAck
  /-- R253. Operands: k. -/
  | publishFlip
  /-- R343. Operands: k. -/
  | tcBlockLand
  /-- R317. Operands: k. -/
  | tcCreditReturn
  /-- R287. Operands: k. -/
  | recipientAck
  /-- R330. Operands: c, k. -/
  | copySegment
  /-- R306. Operands: c, k. -/
  | copyComplete
  /-- R381. Operands: k. -/
  | handlerStart
  /-- R184. Operands: c, k. -/
  | chainedWordPlace
  /-- R184. Operands: c. -/
  | chainedWordAccept
  /-- R165. Operands: c. -/
  | mtWordStart
  /-- R167. Operands: c, err, e. -/
  | sequencerStep
  /-- R165. Operands: c. -/
  | mtWordComplete
  /-- R220. Operands: c, k. -/
  | xformComplete
  /-- R247. Operands: c, k. -/
  | releasePerformed
  /-- R252. Operands: c, k. -/
  | fwaitComplete
  /-- R266. Operands: c, k. -/
  | cksealComplete
  /-- R224. Operands: pa. -/
  | cellarPersist
  /-- R222. Operands: a, err, bale: 1 for a page that may hold bales. -/
  | l2Eviction
  /-- R208. Operands: d. -/
  | containmentEvent
  /-- R292. Operands: v, the trigger word that firmware gives. -/
  | replayFromSeal
  /-- R208. -/
  | deviceReset
  /-- R226. Operands: d. -/
  | ioDieReset
  /-- R451. -/
  | powerOn
  /-- R451. -/
  | reducedServiceEnd
  /-- R455. Operands: temp. -/
  | thermalContainment
  /-- R455. Operands: temp. -/
  | thermalRelease
  /-- R455. Operands: temp, power. -/
  | throttleDown
  /-- R455. Operands: temp, power. -/
  | throttleStepUp
  /-- R444. Operands: p. -/
  | linkDown
  /-- R444. Operands: p, good, ack, nak, then the packet's fields. -/
  | flitReceive
  /-- R444. Operands: p. -/
  | linkRetrain
  /-- R445. Operands: p, lo, hash, peer, pport. -/
  | linkStateFrame
  /-- R445. Operands: p, lanes. -/
  | linkTrainingAttempt
  /-- R446. Operands: p. -/
  | linkRetryTimer
  /-- R446. Operands: p. -/
  | linkQuarantine
  /-- R443. Operands: p. -/
  | cxlPortDown
  /-- R450. Operands: ring, kind, step, fmt, seq, off, sig, then the values. -/
  | gleanerFrame
  /-- R450. Operands: ring. -/
  | gleanerResend
  /-- R450. Operands: ring, told. -/
  | gleanerRingFailure
  /-- R223. Operands: a, kind: 0 nothing, 1 corrected, 2 uncorrectable, 3 a write that will fail. -/
  | patrolScrub
  /-- R102. Operands: n, lo, hi. -/
  | rptFirmwareWrite
  /-- R411. Operands: c, k, v. -/
  | linkBindingWrite
  /-- R412. Operands: torn: 1 while the table is being written. -/
  | powerLoss
  /-- R451. Operands: k, then size and properties of each CXL port's expanders. -/
  | hbmStackTrained
  /-- R440. Operands: p, up. -/
  | ethernetPortStateChange
  /-- R319. -/
  | gleanerRequest
  /-- R254. Operands: k. -/
  | publishStatusReturn
  deriving DecidableEq, Repr

end Sys2Proof
end

