-- ==== Sys2Proof/Machine/State.lean ====
section
/-! DEFINITION. The state of an N2 device, as plain data: every register, memory, table, queue and pending piece of
work that the spec names, the reasons a step can stop, and the device as it stands at reset. -/

namespace Sys2Proof.Machine

/-- Why the machine stops. -/
inductive Fault where
  /-- Raised by step when the module has no power (R412, R455) and no power-on waits on the agenda: nothing can run.
  Safe: the spec gives a module without power no step. -/
  | noPower
  deriving DecidableEq, Repr

/-- Why an instruction has no meaning here. -/
inductive Refusal where
  /-- Raised by exec for a form this model gives no meaning. Safe: nothing is claimed of what the form does. -/
  | notModelled (mnemonic : String)
  deriving DecidableEq, Repr

/-! ### Results on their way -/

/-- Where a result lands (R75, R105). -/
inductive Dest where
  | s (k : Nat)
  | v (k : Nat)
  | mask
  | fmt
  | mg (k : Nat)
  | cg (k : Nat)
  | cr (n : Nat)
  /-- The head of queue k, which a POP moves at its commit, and its tail, which a push or a deposit takes at its own (R72, R310). -/
  | qhead (k : Nat)
  | qtail (k : Nat)
  deriving DecidableEq, Repr

/-- What lands: a word, a vector under write enables, a mask stack with the entries that its operation pushed and popped
(R93), bits of fmt under a mask, or a queue's move, which for a push makes its element present; mark 0 is clean, 1 poisoned (R189), 2 check bits that do not match (R71). -/
inductive Val where
  | word (w : Word) (mark : Nat)
  | vec (en v : VReg) (mark : Nat)
  | stack (l : List Word) (pushed popped : Nat)
  | field (en w : Word)
  | move (fill : Bool)
  deriving DecidableEq, Repr

/-- A fixed-latency result in flight (R75), at an absolute cycle, or in the snapshot buffer at an offset (R190).
The write of a loop is marked, since its count sees it at once (R124), and so is the result of a mirrored slot, whose
check bits a second unit writes (R71). -/
structure Landing where
  due : Nat
  seq : Nat
  dest : Dest
  val : Val
  loop : Bool
  mirror : Bool
  deriving DecidableEq, Repr

/-- A read-modify-write at one location (R248, R249): op 0 to 9 of R248, 10 cas. -/
structure Rmw where
  op : Nat
  size : Nat
  src : Word
  expect : Word
  deriving DecidableEq, Repr

/-- A destination that waits under the interlock of R78: a global load, an atomic, a seal's status. The value is there
once the access has performed; an atomic with release order performs at its return. -/
structure Load where
  id : Nat
  dest : Nat
  pa : Nat
  va : Nat
  key : Nat
  rmw : Option Rmw
  release : Option Nat
  acquire : Option Nat
  done : Option (Word × Nat)
  /-- The atomic was not performed (R250). -/
  failed : Bool
  /-- Outstanding at a trap: it completes into the snapshot buffer (R191). -/
  held : Bool
  deriving DecidableEq, Repr

/-! ### Copies, matrix words, commands -/

/-- A matrix word with everything it captured at issue (R160, R183): which form, its accumulators, the four geometry
registers of its set, registers 1 and 3 of the next, its operands, fmt, and the stochastic stream it reserved. -/
structure MtWord where
  instr : Instr
  g0 : Word
  g1 : Word
  g2 : Word
  g3 : Word
  h1 : Word
  h3 : Word
  x : Word
  y : Word
  fmt : Word
  seed : Word
  ctr : Nat
  core : Nat
  ctx : Nat
  crew : Nat
  /-- The pages that the rows of a tstacc.g touch: page number, physical address, and the key, plus 256 for a
  cellar page, 512 for one with bales and 1024 for one with HEAT. -/
  rows : List (Nat × Nat × Nat)
  /-- The cycle of its acceptance (R165). -/
  accepted : Nat
  /-- Cycles that a tstacc.g takes beyond its count, for its acknowledgements (R180; a free value, log entry 3). -/
  late : Nat
  /-- Accepted while a release store of its strand was pending, after which it reads (R275). -/
  behind : Bool
  deriving DecidableEq, Repr

/-- The sequencer of a core (R165 to R169). -/
structure Sequencer where
  run : Option MtWord
  step : Nat
  start : Nat
  wait : Option MtWord
  chained : List MtWord
  frozen : Bool
  /-- Intermediate results of the running word: tproj's and tlx's f and kx elements by number. -/
  scratch : Tab Nat
  /-- Operand words that the running word has read, each read once (R166): number of the 4-byte word, value. -/
  seen : Tab Nat
  /-- A twait keeps it busy until this cycle, its commit (R165). -/
  till : Nat
  /-- The cycle from which the running word's busy cycles have yet to be counted (R430). -/
  since : Nat
  deriving DecidableEq, Repr

/-- A transform command in the banks (R220). -/
structure Xform where
  id : Nat
  ctx : Nat
  core : Nat
  instr : Instr
  dst : Nat
  src : Nat
  size : Word
  fmt : Word
  seed : Word
  ctr : Nat
  seq : Nat
  uid : Nat
  deriving DecidableEq, Repr

/-- What a bundle does when it commits (R73); each was computed from the sources read at issue. -/
inductive Eff where
  | land (lat : Nat) (d : Dest) (v : Val)
  | loopCount (a : Nat) (v : Word)
  /-- A scratchpad load: destination, type code, physical address (R241). -/
  | loadPad (d ty pa : Nat)
  /-- A global load: destination, type code, physical and virtual address, key; with the scope of an ld.acq (R246). -/
  | loadGlobal (d ty pa va key : Nat) (acq : Option Nat)
  /-- A store of size bytes (R242); global says whether it passes L1 (R221). -/
  | store (size pa va key : Nat) (w : Word) (global : Bool)
  | storeRel (scope size pa va key : Nat) (w : Word) (global : Bool)
  | rmw (d : Nat) (r : Rmw) (pa va key : Nat) (global : Bool) (rel acq : Option Nat)
  /-- A vector load: destination, write enables, one address for each lane, latency (R259, R260). -/
  | vload (d : Nat) (en : VReg) (pas : List Nat) (lat : Nat)
  | vstore (ws : List (Nat × Nat))
  | spillLoad (d off : Nat)
  | spillStore (off : Nat) (w : Word) (mark : Nat)
  | accWrite (u row : Nat) (en v : Nat)
  | lfPop (d k : Nat)
  | lfPush (k : Nat) (w : Word)
  | qcWrite (k : Nat) (w : Word)
  | qpush (k : Nat) (w0 w1 : Word) (n : Nat)
  | srTake (k n : Nat)
  /-- An acquire whose value lands with a fixed latency (R246, R247). -/
  | acquirePad (scope : Nat)
  | fence (scope d : Nat)
  | fwait (tok : Word)
  | publish (scope : Nat) (handles : List Word)
  | xform (x : Xform)
  | phaseStart (mask : Nat) (list : Nat) (n : Nat)
  | phaseCommit (scope : Nat)
  | phaseAbort
  | ckseal (d va n : Nat)
  | mt (w : MtWord)
  /-- A twait has returned: earlier tstacc.g writes count as the strand's own (R180, R251). -/
  | twait
  /-- A copy-port form with its descriptor registers and operands (R321). -/
  | copy (i : Instr) (g : List Word) (x y : Word) (mt : Option MtWord)
  | drain (ch : Nat)
  /-- A scheduling form with its operand values (chapter 14). -/
  | sched (i : Instr) (ws : List Word)
  /-- A transfer; a loop's back edge adds no cycles (R77, R123). -/
  | transfer (target : Nat) (backEdge : Bool)
  | handlerReturn (target : Nat)
  | yield
  | endStrand (halted : Option Nat)
  | srWrite (k : Nat) (w : Word)
  deriving DecidableEq, Repr

/-- A trap found: its cause, tinfo bits 63:8, and the word index of R84. -/
structure Trap where
  cause : Nat
  detail : Nat
  word : Nat
  deriving DecidableEq, Repr

/-- Why a context is parked or waits in place; deadlines are the 1 ms wakes of R25. -/
inductive Wait where
  | none
  /-- A monitored location: physical address, deadline, bytes, key, the mwait result to fill (0: a spin park). -/
  | line (pa until_ size key load : Nat)
  /-- A barrier word and its deadline (R425). -/
  | bar (pa until_ : Nat)
  /-- A fence token (R252). -/
  | fence (tok : Word) (until_ : Nat)
  /-- A seal: the result to fill, the body's virtual address, rpt number (R264). -/
  | seal (load va n until_ : Nat)
  /-- A seal whose body is durable but for VALID: the result to fill, rpt number, body, its key, GEN (R266 step 4). -/
  | valid (load n pa key gen until_ : Nat)
  /-- Copies of a channel (R339). -/
  | drain (ch until_ : Nat)
  /-- A yield, a suspend (PS, PRI, AFF, RESUME) or an exit taking effect once results have landed. -/
  | yield
  | suspend (ps pri aff resume : Nat)
  | exit
  /-- A kill with its code, until its copies are idle (R205). -/
  | kill (code : Nat)
  /-- A phase's rollback: logged copies re-issued so far, plus 1 once registers and accumulators are restored. -/
  | rollback (next : Nat)
  /-- Translations (R79). -/
  | trans
  deriving DecidableEq, Repr

/-- Whether a kill is under way (R205). -/
def Wait.killing : Wait → Bool
  | .kill _ => true
  | _ => false

/-- Why a bundle waits before its issue cycle (R78, R79, R247, R304): the stall counter it counts in, once, the wait in
which its context parks meanwhile (R339, R425), and the counters of further resources that are full. -/
structure Hold where
  why : Nat
  counter : Nat
  park : Wait
  also : List Nat
  deriving DecidableEq, Repr

/-- The bundle being issued. -/
structure Bundle where
  core : Nat
  ctx : Nat
  pc : Nat
  t : Nat
  words : List Nat
  slot : Nat
  effs : List Eff
  trap : Option Trap
  hold : Option Hold
  extra : Nat
  /-- Global pages it found without a translation (R79). -/
  miss : List (Nat × Nat)
  /-- The link FIFO whose failed reply trap entry removes (R352), the channel whose faults a drain reports (R339), 8
  for a region that gives up (R356). -/
  dropLf : Option Nat
  clearCh : Option Nat
  /-- What its mirrored slots write (R71). -/
  mirror : List Dest
  deriving DecidableEq, Repr

/-! ### Contexts -/

/-- A context slot's state (R203). -/
inductive SlotState where
  | free | dormant | ready | running | parked | suspendedOut
  deriving DecidableEq, Repr

/-- What a pending release does once its conditions hold (R246, R247, R253, R262): perform a store, ask for the flip of
windows, commit the phase, perform the atomic of a load; sent waits for the answers to what publish or commit asked.
A publish committed inside a remote region belongs to it (R254, R355). -/
inductive RelKind where
  | store (size pa va key : Nat) (w : Word) (global : Bool)
  | publish (handles : List Word) (region : Bool)
  | phase (handles : List Word) (region : Bool)
  | rmw (load : Nat)
  | sent (phase : Bool)
  deriving DecidableEq, Repr

/-- A pending release at its scope. -/
structure Release where
  scope : Nat
  kind : RelKind
  deriving DecidableEq, Repr

/-- The spin monitor (R431): s1 to s31 and the load (address, value) at the last transfer watched, iterations that match, that
transfer and its target; and of the bundles since, or since the last taken transfer: where they begin, global loads (bundle,
address, value), bundles with anything else that breaks the pattern. -/
structure Spin where
  regs : List Word
  last : Option (Nat × Nat)
  count : Nat
  jump : Option (Nat × Nat)
  start : Option Nat
  loads : List (Nat × Nat × Nat)
  other : List Nat
  deriving DecidableEq, Repr

def Spin.none : Spin := ⟨[], .none, 0, .none, .none, [], []⟩

/-- An open buffer phase (R197, R198, R261). -/
structure Phase where
  opened : Bool
  resume : Nat
  mask : Nat
  retry : Nat
  windows : List Word
  /-- Logged P copies: form, descriptor registers, operands (R198). -/
  log : List (Instr × List Word × Word × Word × Option MtWord)
  deriving DecidableEq, Repr

/-- A remote region (R353 to R357). -/
structure Region where
  opened : Bool
  resume : Nat
  limit : Nat
  deriving DecidableEq, Repr

/-- A context slot and the strand or handler entry it holds (R16, R89, R203). -/
structure Ctx where
  st : SlotState
  bank : Option Nat
  /-- The 64-byte record it was started from, as eight words (R374). -/
  record : List Word
  /-- A number of its own for each strand dispatched. -/
  uid : Nat
  crew : Nat
  /-- The replay its faults count in (R369, R376). -/
  replay : Nat
  tag : Nat
  pri : Nat
  pre : Bool
  kind : Nat
  stage : Nat
  node : Nat
  space : Nat
  pc : Nat
  age : Nat
  /-- The earliest cycle its next bundle issues at (R77). -/
  nextAt : Nat
  seq : Nat
  land : List Landing
  loads : List Load
  /-- Handler state and the issue cycle t of the trapped bundle (R192, R195). -/
  handler : Bool
  trapT : Nat
  snap : List Landing
  fence : Nat
  /-- A pending release: scope and the store it performs, if any (R247). -/
  rel : Option Release
  /-- The number that the device's next request had as it was committed: remote operations below it come before it. -/
  relAt : Nat
  /-- Words that VA's store of the release's own bundle wrote, and what they held before, a poisoned one 2^32 more: SA's store
  comes first (R243). -/
  relBefore : List (Nat × Nat)
  /-- Arrivals at barriers that come after that release (R424): the word, and what s[b] adds. -/
  arrives : List (Nat × Nat)
  /-- Memory bundles wait until this cycle for an acquired scratchpad value (R247). -/
  acqTill : Nat
  phase : Phase
  region : Region
  wait : Wait
  /-- The wait that follows it: of XC's form, when SA's form of the same bundle waits first. -/
  after : Wait
  /-- The next bundle is no safe point: it was held for translation, or the core turned to no other context (R79, R204). -/
  noSafe : Bool
  /-- The strand changed its crew, so its bank holds values of another (R17, R380). -/
  joined : Bool
  /-- Traps that the next bundle raises for an event of no slot (R84, R169, R254, R352). -/
  owed : List Trap
  /-- Copy faults recorded for the context, oldest first: channel, cause, detail (R331, R339). -/
  cfaults : List (Nat × Nat × Nat)
  spin : Spin
  /-- Dormant entry: rearm, qmode, scb, spin (R381). -/
  rearm : Bool
  modes : Nat
  /-- Parked, and its line has been written (R384). -/
  woken : Bool
  /-- A handler start has taken this dormant slot: record is on its way through the ready queue (R313, R381). -/
  due : Bool
  /-- The stall counters in which the bundle held at issue has counted (R304). -/
  stalled : List Nat
  /-- Of a suspended-out context: present bits of its queues and marks of its registers, which its save area's layout
  does not hold (R103, R310). -/
  outPresent : Tab Nat
  outMarks : Tab Nat
  deriving DecidableEq, Repr

/-- A register bank with its spill memory (R89, R103, R215). -/
structure Bank where
  owner : Option Nat
  crew : Nat
  left : Nat
  s : Tab Word
  v : Tab VReg
  mask : List Word
  fmt : Word
  mg : Tab Word
  cg : Tab Word
  qc : Tab Word
  /-- Present bits of each queue's elements (R310). -/
  present : Tab Nat
  cr : Tab Word
  spill : Tab Word
  /-- Register marks, by file (0 scalar, 1 vector, 2 mask stack, 3 control) times 4096 plus number; spill words by
  file 4 (R71, R189). -/
  marks : Tab Nat
  deriving DecidableEq, Repr

/-- A word of an inbound link FIFO (R318, R351): for a reply's header len is the reply's length in words, and stat
and off are what a failed reply reports (R352, R353); for other words len is 0. region says that its packet was of a region;
strand is the strand whose region is still open, else 0 (R356). -/
structure InWord where
  w : Word
  len : Nat
  region : Bool
  stat : Nat
  off : Nat
  strand : Nat
  deriving DecidableEq, Repr

/-- A link-FIFO port (R318, R350, R411): inbound words, words of packets the fabric has not taken, the packet being
pushed with the strand that began it and whether that was in a region (R356), the binding, packets sent on it. -/
structure Lf where
  inq : List InWord
  outq : List Word
  part : List Word
  partOwner : Nat
  partRegion : Bool
  bind : Word
  rqn : Nat
  deriving DecidableEq, Repr

/-- An L1 TLB entry: table, page number, log2 size, leaf (R228). -/
structure Tlb where
  space : Nat
  page : Nat
  log : Nat
  leaf : Word
  deriving DecidableEq, Repr

/-- A vacc write that has committed and performs at a cycle (R152): entry of acc, enables, bits. -/
structure AccWrite where
  due : Nat
  entry : Nat
  en : Nat
  v : Nat
  deriving DecidableEq, Repr

/-- A core (R89). -/
structure Core where
  ctxs : Tab Ctx
  banks : Tab Bank
  /-- Accumulator rows of 128 elements, entry u * 128 + i; shadows from 4 * 128 (R96, R97). -/
  acc : Tab Nat
  /-- Poisoned accumulator elements: 128 times the entry of acc, plus the element (R212). -/
  accPoison : List Nat
  accLate : List AccWrite
  /-- cyc is the clock less this (R428). -/
  cyc0 : Word
  seqr : Sequencer
  /-- Projection slots: descriptor (R172) and the bytes loaded, expand then absorb. -/
  proj : Tab Word
  projData : Tab (List Nat)
  lf : Tab Lf
  xforms : List Xform
  l1 : Tab (List Nat)
  tlb : List Tlb
  split : Nat
  counters : Tab Word
  /-- What the supervisor wrote to counters that have counted nothing since (R427); the cluster's rqst with its first core. -/
  counterNew : Tab Word
  /-- Selectors of the performance counters (R429), and the cycle of the latest issue, which event 2 counts from. -/
  pcsel : Tab Word
  lastIssue : Nat
  saBase : Word
  /-- Banks claimed by contexts that wait for the owner's loads (R24): context, bank. -/
  claims : Tab Nat
  leaveSeq : Nat
  /-- The cycle at which a switch in progress ends (R103). -/
  busyTill : Nat
  /-- Tracks freed lately: engine, track, cycle; and the track that each engine served last (R306). -/
  freed : List (Nat × Nat × Nat)
  turn : Tab Nat
  deriving DecidableEq, Repr


/-! ### Clusters, copies, packets -/

/-- A crew-table entry (R373); killed says that a member was killed (R404). -/
structure Crew where
  live : Bool
  gen : Nat
  memb : Nat
  sqBase : Nat
  sqCnt : Nat
  accm : Nat
  stage : Nat
  node : Nat
  replay : Nat
  tag : Nat
  killed : Bool
  deriving DecidableEq, Repr

/-- A launch that waits for the zeroing of its squares (R218, R372): crew entry, what it will hold, member records. -/
structure Launch where
  entry : Nat
  crew : Crew
  records : List (List Word)
  deriving DecidableEq, Repr

/-- A cluster (R312, R373): hardware entries with their pass counts, the ring block, the crew table. -/
structure Cluster where
  queue : List (List Word × Nat)
  rbase : Nat
  rsize : Nat
  rhead : Nat
  rtail : Nat
  rcnt : Nat
  spills : Nat
  refills : Nat
  rhigh : Nat
  rqst : Word
  crews : Tab Crew
  /-- Squares released and not yet zeroed: base, count (R218). -/
  zeroing : List (Nat × Nat)
  waiting : List Launch
  /-- Records pushed in the cycle in hand: they enter after its refills (R313). -/
  pushes : List (List Word)
  tlb : List Tlb
  deriving DecidableEq, Repr

/-- Where bytes of a copy lie: a virtual address in a space, a scratchpad address of a core, an offset in a window,
or the copy's own buffer. -/
inductive Place where
  | none
  | virt (space va : Nat)
  | pad (core pa : Nat)
  | win (dev win key off : Nat)
  deriving DecidableEq, Repr

/-- A piece of a copy that has been read and has yet to perform at one of its destinations (R281, R330): its row and byte,
the destination, its bytes (a poisoned one counts 256 more), whether it is a block that stays a bale. -/
structure Flight where
  row : Nat
  off : Nat
  dst : Nat
  data : List Nat
  baled : Bool
  deriving DecidableEq, Repr

/-- A copy on its track (R306, R330), or the landing of a remote one at its recipient. -/
structure Copy where
  core : Nat
  engine : Nat
  track : Nat
  ctx : Nat
  uid : Nat
  crew : Nat
  space : Nat
  ch : Nat
  instr : Instr
  g : List Word
  x : Word
  y : Word
  mt : Option MtWord
  phase : Bool
  region : Bool
  /-- Shape in bytes (R323). -/
  rows : Nat
  len : Nat
  sstr : Nat
  dstr : Nat
  src : Place
  dsts : List Place
  /-- The barrier word of each destination: physical address plus 1, or 0 (R332). -/
  bars : List Nat
  /-- Handler address and arguments (R325). -/
  handler : Option (Nat × Word × Word)
  /-- 0 waits for its request queue, 1 waits for data, 2 moves segments, 3 has moved them all, 4 has placed its word
  (R184, R306, R330). -/
  stage : Nat
  /-- The row and byte of the next piece to read, and the pieces read that have yet to perform, in any order (R330). -/
  row : Nat
  off : Nat
  flight : List Flight
  /-- Answers still to come from other parties. -/
  awaits : Nat
  /-- Data held: read ahead, or gathered for a remote destination; a poisoned byte counts 256 more. -/
  buf : List Nat
  /-- Where in that data blocks begin that travel as bales (R235, R334). -/
  bales : List Nat
  /-- A local fault, kind and granule, or a refusal's rstat bits (R331, R340, R353). -/
  fault : Option (Nat × Nat)
  status : Option Nat
  /-- The queue element it fills (R335): queue, element. -/
  elem : Option (Nat × Nat)
  /-- For a landing: the device and request that wait for its acknowledgement; track is then twice its window, plus 1
  for a third party's delivery; and uid and ch are those of the copy that this device sent to itself. -/
  reply : Option (Nat × Nat)
  seq : Nat
  /-- Issued while a release store of its strand was pending, after which it reads (R280). -/
  behind : Bool
  /-- Packs bales (R334). -/
  bale : Bool
  /-- Translations held, each with the row that holds it (R229), and the page whose walk faulted, with its table (R228). -/
  held : List (Nat × Tlb)
  noLeaf : Option (Nat × Nat)
  /-- A fault ended it (R331). -/
  cut : Bool
  deriving DecidableEq, Repr

/-- A packet in the fabric (R408), in fields that its kind gives meaning to. Kinds: 0 link-FIFO request, 1 window read,
2 window write, 3 publish, 4 tensor-channel blocks, 5 channel credit, 6 reply, 7 third-party read. -/
structure Packet where
  kind : Nat
  cls : Nat
  src : Nat
  dst : Nat
  /-- The device on whose behalf it asks, and that device's request number. -/
  req : Nat
  who : Nat
  hops : Nat
  nm : Bool
  vc : Nat
  port : Nat
  win : Nat
  key : Nat
  off : Nat
  rows : Nat
  len : Nat
  stride : Nat
  /-- The header of a link-FIFO packet, or the flags of a copy. -/
  hdr : Nat
  words : List Nat
  data : List Nat
  status : Nat
  party : Nat
  /-- Recipients of a third-party read: device, window, key, offset. -/
  third : List (Nat × Nat × Nat × Nat)
  /-- Where in its data blocks begin that travel as bales (R235). -/
  bales : List Nat
  /-- When it entered the fabric here, for arbitration by age (R25). -/
  born : Nat
  deriving DecidableEq, Repr

/-- A remote operation whose answer is out (R351, R408): who asked, what, and when it times out. kind as Packet's;
a load, amo or cas of a link FIFO expects a reply of so many words, a store none. -/
structure Remote where
  kind : Nat
  core : Nat
  ctx : Nat
  uid : Nat
  lf : Nat
  rqn : Nat
  op : Nat
  words : Nat
  copy : Nat
  region : Bool
  dev : Nat
  win : Nat
  deadline : Nat
  /-- The target's offset, which the trap of a failed atomic gives (R187), and the strand's fence counter as its last
  word was pushed (R278). -/
  off : Nat
  seq : Nat
  /-- The windows of a publish (R254). -/
  wins : List Nat
  /-- Of a link FIFO that has been bound anew: it ends with status 9, whatever answers (R411). -/
  lost : Bool
  deriving DecidableEq, Repr

/-- A page walk in flight with the cores and the copies that joined it (R228). -/
structure Walk where
  space : Nat
  va : Nat
  cores : List Nat
  copies : List Nat
  deriving DecidableEq, Repr

/-- A write to a 64-byte granule of a cellar page that no completed .rcv release covers (R225): by a strand, with copy 0
once it is the strand's own, else the mark of the copy that wrote, or 1 for a tstacc.g that no twait follows (R180,
R277); done says that it reached its persistence point. Strand 0 with 2 is a poisoned write-back (R291),
with 3 one whose checkpoint has ended torn. A granule from 2^38 on is one that was lost on its way. -/
structure CellarWrite where
  granule : Nat
  uid : Nat
  copy : Nat
  done : Bool
  deriving DecidableEq, Repr

/-! ### The device -/

/-- A replay (R12, R367 to R369). -/
structure Replay where
  graph : Nat
  number : Nat
  /-- Which of the three snapshots it runs on. -/
  snap : Nat
  tstart : Nat
  /-- Instances launched of each node, and instances whose crew has reached zero members. -/
  launched : Tab Nat
  ended : Tab Nat
  posted : List Nat
  fcount : Nat
  ffirst : Nat
  nodes : Nat
  dataError : Bool
  /-- The time of the latest completion of one of its node instances. -/
  tlast : Nat
  /-- A containment event interrupted it: recovery restarts the graph (R208). -/
  cut : Bool
  deriving DecidableEq, Repr

/-- An arrival that waits at its source (R315, R368): stage, record, and the strand whose arrive posts it: core,
context, load. -/
structure Held where
  stage : Nat
  record : Nat
  who : Option (Nat × Nat × Nat)
  counted : Bool
  deriving DecidableEq, Repr

/-- A handler start that waits for an armed slot (R203, R333). -/
structure Start where
  core : Nat
  crew : Nat
  addr : Nat
  arg1 : Word
  arg2 : Word
  deriving DecidableEq, Repr

/-- A page move (R435). -/
structure Move where
  cmd : Nat
  leaf : Nat
  old : Word
  dst : Nat
  size : Nat
  /-- Copied, and its leaf switched; accesses that use the old translation have yet to end (R231). -/
  switched : Bool
  deriving DecidableEq, Repr

/-- A Caravan port (R444 to R447): this end's view of the present attempt and bytes 0 to 3 of the peer's; the replay buffer,
as packets with their flits that are not acknowledged; resends of its first flit. -/
structure Link where
  st : Nat
  fails : Nat
  lmap : Nat
  width : Nat
  speed : Nat
  peer : Nat
  pport : Nat
  spdMax : Nat
  mine : Option (Nat × Nat × Nat)
  theirs : Option Nat
  retryAt : Nat
  flits : List (Packet × Nat)
  resends : Nat
  deriving DecidableEq, Repr

/-- An expander of a CXL port (R442). -/
structure Expander where
  size : Nat
  persistent : Bool
  baleCap : Bool
  deriving DecidableEq, Repr

/-- A CXL port after enumeration: its expanders in enumeration order, and whether it went down (R442, R443). -/
structure Cxl where
  exps : List Expander
  down : Bool
  deriving DecidableEq, Repr

/-- A copy of the retirement table in module flash: sequence number, entries as their 32-bit words, CRC-32C (R412). -/
structure Flash where
  seq : Nat
  entries : List Nat
  crc : Nat
  deriving DecidableEq, Repr

/-- A Gleaner ring (R349, R450): the copy of the glean in service or 0, its signature, its terms widened to f32, the
elements finished; frames sent and not acknowledged (number, time sent, resends and what the frame holds: VER, RING, FROM, KIND, STEP, FMT, SEQ, OFF,
CNT, SIG, elements), the next frame number,
frame numbers accepted. -/
structure Glean where
  copy : Nat
  sig : Nat
  terms : List Nat
  result : Tab Nat
  sendSeq : Nat
  unacked : List (Nat × Nat × Nat × List Nat)
  seen : List Nat
  /-- Acknowledgements sent to the member before: what their frames hold. -/
  acks : List (List Nat)
  deriving DecidableEq, Repr

/-- An N2 device. -/
structure State where
  /-- Power and bring-up (R412, R451): stage 5 is full service. -/
  powered : Bool
  stage : Nat
  mhz : Nat
  clk : Nat
  ns : Nat
  tacc : Nat
  /-- What the supervisor wrote to tstamp since its last nanosecond (R427). -/
  nsNew : Option Nat
  /-- The model's own: what is being issued, the slots of that bundle still to do, events to come with their
  operands, the operands of the event in hand, the count of free values drawn (log entries 1 to 3). -/
  bun : Bundle
  pending : List (Nat × Instr)
  agenda : List (Instr × List Nat)
  ev : List Nat
  free : Nat
  cores : Tab Core
  clusters : Tab Cluster
  /-- Physical memory (R213): every unlisted byte reads 0 (log entry 10). -/
  mem : List Host.Cell
  /-- Poisoned 64-byte granules of global memory, and poisoned 4-byte words of scratchpads and, in pairs, of scheduler
  memory (R211, R212). -/
  poison : List Nat
  padPoison : List Nat
  /-- Dirty 128-byte lines of L2: the 128 bytes that the memory behind holds, the keys and the poison marks of its two
  granules, and the form in which the line is written back (R222, R235): 0 plain, 1 under a leaf with BALE, 2 as a bale; 4 more
  under a leaf with HEAT, 8 more where L2 found the line uncorrectable and no write has covered it whole (R212). -/
  l2 : Tab (List Nat)
  /-- 64-byte granules of cellar pages whose write has not reached its persistence point (R224, R289). -/
  cellarLines : List Nat
  /-- The key under which a granule was last written (R237): its index plus 256 times its number; and bale metadata (R235). -/
  keyTags : Tab Nat
  baleBits : List Nat
  /-- V(G), journal of persisted writes, and the cellar writes that no completed .rcv release covers (R225). -/
  versions : Tab Nat
  journal : List Nat
  cellarOpen : List CellarWrite
  rpt : Tab Nat
  /-- Granules at which the next owner-side atomic cannot complete its write (R207): an input from outside. -/
  writeFails : List Nat
  /-- System tables (R396). -/
  sproot : Tab Word
  wtBase : Word
  mcBase : Word
  routes : Tab Nat
  rtLoad : Option Nat
  keyValid : List Nat
  /-- The keys each entry of the key table holds, as a number, and KEYMB (R396, R405). -/
  keyHeld : Tab Nat
  keyMb : Nat
  retired : List Nat
  flash : List Flash
  retCnt : Nat
  capGen : Nat
  /-- The recovery-point register that firmware chose last, with its seal's STEP (R292). -/
  recovery : Option (Nat × Nat)
  dev : Nat
  walks : Tab Walk
  invals : List (Nat × Nat × Bool)
  /-- The MBS (chapter 14). -/
  replay : Option Replay
  triggers : List Replay
  replayNo : Nat
  tflags : Nat
  aq : Tab (Nat × Nat)
  held : List Held
  /-- Records that reach the MBS in the cycle in hand, before its decision point: stage, record, the strand of an
  arrive (R315). -/
  inbox : List Held
  starts : List Start
  deciding : Bool
  /-- Addresses at which the MBS met an uncorrectable error: no pick until they are rewritten (R226). -/
  damaged : List Nat
  killSt : Word
  /-- Copies and the fabric (chapters 12, 13). -/
  copies : Tab Copy
  nextId : Nat
  packets : Tab Packet
  remotes : Tab Remote
  /-- The cycle, plus 1, in which a mirage window was last read: no flip follows a read of its cycle (R283). -/
  readAt : Tab Nat
  /-- Deposits that this device refused (R338). -/
  rejected : Nat
  tcFreed : Tab Nat
  /-- Tracks of the 64 global copy engines in use: 8 times the engine plus the track, and the work (R307). -/
  gtracks : Tab Nat
  /-- Granary (R319, R389 to R393): queue of copies, pools as base and chunks, resident data, prefetches. -/
  granaryQ : List Nat
  pools : Tab (Nat × Nat)
  resident : Tab (List Nat)
  /-- Which blocks of a stored entry are bales; prefetches asked for, by directory index; hidden copies made, after
  their chunk (R391, R393). In stored data a poisoned byte counts 256 more. -/
  granForm : Tab (List Bool)
  prefetch : List Nat
  /-- Prefetches that wait for room in the queue (R319). -/
  prefetchWait : List Nat
  hidden : Tab (List Nat)
  predB : Tab Nat
  granDrops : Nat
  gleanQ : List Nat
  gleans : Tab Glean
  ringCfg : Tab Nat
  /-- Heat and migration (R432 to R435). -/
  heatCtl : Word
  heat : Tab Nat
  /-- Poisoned 8-byte words of the heat table (R212). -/
  heatPoison : List Nat
  heatCnt : Tab Nat
  decayAt : Nat
  /-- A decay is due at the end of the cycle in hand, after its increments (R433). -/
  heatDue : Bool
  migRing : Word
  migQ : List (Nat × Nat × Nat)
  migStall : Nat
  /-- Commands whose supervisor waits for room in the migration queue (R319). -/
  migWait : List Nat
  moves : List Move
  /-- Errors (R436), host (R438 to R441). -/
  errCnt : Tab Nat
  mchk : Tab (Nat × Nat)
  mhead : Nat
  apBase : Word
  /-- What the latest aperture read returned. -/
  hostData : Nat
  hostErr : Nat
  intStat : Nat
  intEn : Nat
  /-- Events that occurred again while their INTSTAT bit was set (R440). -/
  intAgain : Nat
  msix : List Nat
  /-- The MSI-X table, an entry of 16 bytes for each vector, and the pending bits (R438). -/
  msixTable : Tab Nat
  msixPending : Nat
  cmpCnt : Nat
  /-- Links and ports (R443 to R448). -/
  links : Tab Link
  eth : Tab Bool
  cxl : Tab Cxl
  hbmTrained : Nat
  /-- Power (R455) and firmware (R453, R454). -/
  powerCap : Nat
  throttle : Nat
  temp : Nat
  /-- The time from which the clock may rise a step (R455). -/
  stepAt : Nat
  dieHeld : List Nat
  fwVersion : Nat
  fwRollback : Nat
  /-- The bytes of the running image; version and bytes of its copy in flash (R453). -/
  fwImage : List Nat
  fwFlash : Nat × List Nat
  mailbox : Nat
  /-- What was written there has yet to be answered. -/
  mailAsked : Bool
  deriving DecidableEq, Repr

/-! ### Reset -/

/-- A phase, a region, a context slot, a bank, as device reset leaves them (R89, R203). -/
def Phase.closed : Phase := ⟨false, 0, 0, 0, [], []⟩

def Region.closed : Region := ⟨false, 0, 0⟩

def Ctx.empty : Ctx :=
  { st := .free, bank := none, record := [], uid := 0, crew := 0xFFFF, replay := 0, tag := 0, pri := 0, pre := false, kind := 0
    stage := 0, node := 0, space := 0, pc := 0, age := 0, nextAt := 0, seq := 0, land := [], loads := [], handler := false
    trapT := 0, snap := [], fence := 0, rel := none, relAt := 0, relBefore := [], arrives := [], acqTill := 0, phase := .closed, region := .closed
    wait := .none, after := .none, noSafe := false, joined := false, owed := [], cfaults := [], spin := .none, rearm := false, modes := 0
    woken := false, due := false, stalled := [], outPresent := [], outMarks := [] }

/-- No context has owned the bank yet, so it holds no crew's values. -/
def neverOwned : Nat := 65536

/-- fmt at reset: f32, MA = MB = 8 (R89, R94). -/
def fmtReset : Word := 0x00104000#64

def Bank.zero : Bank :=
  { owner := none, crew := neverOwned, left := 0, s := [], v := [], mask := [], fmt := fmtReset, mg := [], cg := []
    qc := [], present := [], cr := [], spill := [], marks := [] }

def Sequencer.idle : Sequencer := ⟨none, 0, 0, none, [], false, [], [], 0, 0⟩

def Lf.unbound : Lf := ⟨[], [], [], 0, false, 0, 0⟩

def Core.reset : Core :=
  { ctxs := [], banks := [], acc := [], accPoison := [], accLate := [], cyc0 := 0, seqr := .idle, proj := [], projData := []
    lf := [], xforms := [], l1 := [], tlb := [], split := 1, counters := [], counterNew := [], pcsel := [], lastIssue := 0, saBase := 0, claims := [], leaveSeq := 0, busyTill := 0
    freed := [], turn := [] }

def Crew.free : Crew := ⟨false, 0, 0, 0, 0, 0, 0, 0, 0, 0, false⟩

def Cluster.reset : Cluster :=
  { queue := [], rbase := 0, rsize := 0, rhead := 0, rtail := 0, rcnt := 0, spills := 0, refills := 0, rhigh := 0
    rqst := 0, crews := [], zeroing := [], waiting := [], pushes := [], tlb := [] }

def Bundle.none : Bundle := ⟨0, 0, 0, 0, [], 0, [], .none, .none, 0, [], .none, .none, []⟩

def Link.down : Link := ⟨0, 0, 0, 0, 0, 0, 0, 2, none, none, 0, [], 0⟩

def Cxl.absent : Cxl := ⟨[], false⟩

/-- The device right after device reset, brought up to full service with key 0 loaded (R89, R212, R405, R451). -/
def State.reset : State :=
  { powered := true, stage := 5, mhz := 1600, clk := 0, ns := 0, tacc := 0, nsNew := none, bun := .none, pending := [], agenda := []
    ev := [], free := 0, cores := [], clusters := [], mem := [], poison := [], padPoison := [], l2 := []
    cellarLines := [], keyTags := [], baleBits := [], versions := [], journal := [], cellarOpen := [], rpt := [], writeFails := []
    sproot := [], wtBase := 0, mcBase := 0, routes := [], rtLoad := none, keyValid := [0], keyHeld := [], keyMb := 0
    retired := [], flash := [], retCnt := 0, capGen := 0, recovery := none, dev := 0, walks := [], invals := [], replay := none
    triggers := [], replayNo := 0, tflags := 0, aq := [], held := [], inbox := [], starts := [], deciding := false, damaged := []
    killSt := 0x8000000000000000#64, copies := [], nextId := 1, packets := [], remotes := [], readAt := [], rejected := 0
    tcFreed := [], gtracks := [], granaryQ := [], pools := [], resident := [], granForm := [], prefetch := [], prefetchWait := [], hidden := [], predB := []
    granDrops := 0, gleanQ := [], gleans := [], ringCfg := [], heatCtl := 0, heat := [], heatPoison := []
    heatCnt := [], decayAt := 0, heatDue := false, migRing := 0, migQ := [], migStall := 0, migWait := [], moves := [], errCnt := []
    mchk := [], mhead := 0, apBase := 0, hostData := 0, hostErr := 0, intStat := 0, intEn := 0, intAgain := 0, msix := [], msixTable := [], msixPending := 0, cmpCnt := 0
    links := [], eth := [], cxl := [], hbmTrained := 8, powerCap := 2400, throttle := 0, temp := 0, stepAt := 0, dieHeld := []
    fwVersion := 0, fwRollback := 0, fwImage := [], fwFlash := (0, []), mailbox := 0, mailAsked := false }

end Sys2Proof.Machine
end

