-- ==== Sys2Proof/Machine/Mem.lean ====
section
/-! DEFINITION. Physical memory as one canonical list of bytes, and what the device lays over it: poison, the L2's
dirty lines, encryption keys, persistence, the form of blocks (R211 to R213, R222 to R225, R235 to R237). -/

namespace Sys2Proof.Machine

/-- The byte at an address; an unlisted address reads 0 (log entry 10). -/
def memGet : List Host.Cell → Nat → Byte
  | [], _ => 0
  | (a, v) :: m, n => if n = a then v else if n < a then 0 else memGet m n

/-- A memory with one byte written; a byte equal to 0 is not listed. -/
def memPut : List Host.Cell → Nat → Byte → List Host.Cell
  | [], n, b => if b = 0 then [] else [(n, b)]
  | (a, v) :: m, n, b =>
    if n < a then (if b = 0 then (a, v) :: m else (n, b) :: (a, v) :: m)
    else if n = a then (if b = 0 then m else (n, b) :: m)
    else (a, v) :: memPut m n b

/-- The canonical form: addresses strictly rising from lo on, no byte listed that is 0. -/
def memWfFrom : Nat → List Host.Cell → Bool
  | _, [] => true
  | lo, (a, v) :: m => decide (lo ≤ a) && decide (v ≠ 0) && memWfFrom (a + 1) m

/-- The canonical form. -/
def Memory.wf (m : List Host.Cell) : Bool := memWfFrom 0 m

/-- n bytes from an address, little-endian (R8). -/
def memRead (m : List Host.Cell) (a : Nat) : Nat → Nat
  | 0 => 0
  | n + 1 => (memGet m a).toNat + 256 * memRead m (a + 1) n

/-- n bytes written from an address, little-endian. -/
def memWrite (m : List Host.Cell) (a : Nat) : Nat → Nat → List Host.Cell
  | 0, _ => m
  | n + 1, v => memWrite (memPut m a (BitVec.ofNat 8 v)) (a + 1) n (v / 256)

/-- Bytes written from an address. -/
def memBytes (m : List Host.Cell) (a : Nat) : List Nat → List Host.Cell
  | [] => m
  | b :: l => memBytes (memPut m a (BitVec.ofNat 8 b)) (a + 1) l

/-- The bytes from an address. -/
def memList (m : List Host.Cell) (a : Nat) : Nat → List Nat
  | 0 => []
  | n + 1 => (memGet m a).toNat :: memList m (a + 1) n

/-! ### The physical map (R213) -/

def hbmTop : Nat := 0x08000000000
def cellarBase : Nat := 0x07FFC000000
def cxlBase (p : Nat) : Nat := 0x10000000000 + p * 0x40000000000
def padBase (core : Nat) : Nat := 0xF0000000000 + core * 0x800000
def schedBase : Nat := 0xF4000000000
def regBase : Nat := 0xF8000000000

def isHbm (pa : Nat) : Bool := decide (pa < hbmTop)
def isCxl (p pa : Nat) : Bool := decide (cxlBase p ≤ pa ∧ pa < cxlBase p + 0x40000000000)
def isPad (pa : Nat) : Bool := decide (padBase 0 ≤ pa ∧ pa < padBase 96)
def isSched (pa : Nat) : Bool := decide (schedBase ≤ pa ∧ pa < schedBase + 0x800000)
def isReg (pa : Nat) : Bool := decide (regBase ≤ pa ∧ pa < regBase + 0x10000000)
def isGlobal (pa : Nat) : Bool := isHbm pa || isCxl 0 pa || isCxl 1 pa

/-- Bytes of scratchpad left by an L1 split (R216): code k gives L1 512 (k + 1) KiB. -/
def padBytes (split : Nat) : Nat := 6 * 1048576 - (split + 1) * 524288

/-- The compute die that homes a cacheable line (R214). -/
def homeDie (pa : Nat) : Nat := bits pa 13 2

/-- The bytes of a CXL port's expanders, and the expander that holds a byte of its window (R442). -/
def Cxl.size (x : Cxl) : Nat := (x.exps.map (·.size)).sum
def expanderAt : List Expander → Nat → Option Expander
  | [], _ => none
  | e :: l, o => if o < e.size then some e else expanderAt l (o - e.size)

/-- The expander that holds a physical address. -/
def State.expander (s : State) (pa : Nat) : Option Expander :=
  if isCxl 0 pa then expanderAt (tget .absent s.cxl 0).exps (pa - cxlBase 0)
  else if isCxl 1 pa then expanderAt (tget .absent s.cxl 1).exps (pa - cxlBase 1)
  else none

/-! ### Interrupts and machine checks (R436, R438, R440) -/

/-- An MSI-X entry at reset: masked, as PCIe has it (PRESUMED, log entry 25). -/
def msixMasked : Nat := 2 ^ 96

/-- A vector is raised: its message goes, or its pending bit is set while the vector's table entry masks it; one that is pending
raises no second message. -/
def State.sendVector (s : State) (k : Nat) : State :=
  if bit s.msixPending k then s
  else if bit (tget msixMasked s.msixTable k) 96 then { s with msixPending := setBits s.msixPending k 1 1 }
  else { s with msix := s.msix ++ [k] }

/-- An event sets an INTSTAT bit; a bit that was clear raises its vector where INTEN lets it. -/
def State.raise (s : State) (k : Nat) : State :=
  if bit s.intStat k then { s with intAgain := setBits s.intAgain k 1 1 }
  else
    let s := { s with intStat := setBits s.intStat k 1 1 }
    if bit s.intEn k then s.sendVector k else s

/-- A machine-check entry: source 0 HBM, 1 L2, 2 CXL, 3 scheduler memory, 4 retired granule. -/
def State.machineCheck (s : State) (source pa : Nat) : State :=
  { (s.raise 2) with mchk := tset s.mchk (s.mhead % 64) (pa % 2 ^ 44 + source * 2 ^ 48, s.ns), mhead := s.mhead + 1 }

/-- The memory unit of a physical address: 0 to 7 an HBM stack, 12 and 13 a CXL port, 14 scheduler memory. -/
def memoryUnit (pa : Nat) : Nat :=
  if isHbm pa then bits pa 12 3 else if isCxl 0 pa then 12 else if isCxl 1 pa then 13 else 14

/-! ### Poison (R211) -/

/-- Whether an address lies in the window of a CXL port that went down: every access there returns poison (R443). -/
def State.cxlDown (s : State) (pa : Nat) : Bool :=
  [0, 1].any fun p => (tget Cxl.absent s.cxl p).down && isCxl p pa

/-- An access to such a window is a machine check (R443). -/
def State.downAccess (s : State) (pa : Nat) : State := if s.cxlDown pa then s.machineCheck 2 pa else s

/-- Whether any byte of a range is poisoned. -/
def State.poisonedAt (s : State) (pa n : Nat) : Bool :=
  if isPad pa || isSched pa then s.padPoison.any fun w => decide (pa / 4 ≤ w ∧ w ≤ (pa + n - 1) / 4)
  else s.cxlDown pa || s.poison.any fun g => decide (pa / 64 ≤ g ∧ g ≤ (pa + n - 1) / 64)

/-- Mark a range poisoned. -/
def State.poisonRange (s : State) (pa n : Nat) : State :=
  if n = 0 then s
  else if isSched pa then
    { s with padPoison := ((List.range (2 * ((pa + n - 1) / 8 - pa / 8 + 1))).map (· + pa / 8 * 2)).foldl (fun l w => l.insert w) s.padPoison }
  else if isPad pa then
    { s with padPoison := ((List.range ((pa + n - 1) / 4 - pa / 4 + 1)).map (· + pa / 4)).foldl (fun l w => l.insert w) s.padPoison }
  else
    { s with poison := ((List.range ((pa + n - 1) / 64 - pa / 64 + 1)).map (· + pa / 64)).foldl (fun l w => l.insert w) s.poison }

/-- Whether L2 found a line uncorrectable: its granule there is the whole line (R212). -/
def State.lineBad (s : State) (line : Nat) : Bool := decide (8 ≤ nth 0 (tget [] s.l2 line) 132)

/-- A write clears the poison of every granule it covers whole; of a line that L2 found uncorrectable, one that covers the line.
Poison that came from the memory behind keeps that memory's granule in L2 (DESIGN CHOICE, log entry 36). -/
def State.coverRange (s : State) (pa n : Nat) : State :=
  if isSched pa then { s with padPoison := s.padPoison.filter fun w => !decide (pa ≤ w / 2 * 8 ∧ w / 2 * 8 + 8 ≤ pa + n) }
  else if isPad pa then { s with padPoison := s.padPoison.filter fun w => !decide (pa ≤ 4 * w ∧ 4 * w + 4 ≤ pa + n) }
  else
    let whole (line : Nat) : Bool := decide (pa ≤ 128 * line ∧ 128 * line + 128 ≤ pa + n)
    { s with
      poison := s.poison.filter fun g => !(decide (pa ≤ 64 * g ∧ 64 * g + 64 ≤ pa + n) && (!s.lineBad (g / 2) || whole (g / 2)))
      l2 := s.l2.map fun p => if whole p.1 then (p.1, p.2.take 132 ++ (p.2.drop 132).map (· % 8)) else p }

/-! ### Device accesses at the point of coherence (R269) -/

/-- The mark of a key: its index, and which keys the entry holds (R237, R405). -/
def State.keyMark (s : State) (key : Nat) : Nat := key + 256 * tget 0 s.keyHeld key

/-- n bytes read under a key; a granule written under another key decrypts to unrelated bytes (R237). -/
def State.readPa (s : State) (key pa n : Nat) : Nat :=
  let raw := memList s.mem pa n
  if !isGlobal pa || s.keyTags.isEmpty && s.keyMark key == 0 then pack 8 raw
  else
    pack 8 (raw.zipIdx.map fun p =>
      let tag := tget 0 s.keyTags ((pa + p.2) / 64)
      if tag = s.keyMark key then p.1 else Config.wrongKey (s.keyMark key) tag (pa + p.2) p.1 % 256)

/-- n bytes of a table that the device reads by physical address, under key 0: none in a retired granule (R413), nor where the data is
poisoned or its port down (DESIGN CHOICE, log entry 36: no rule says what a table read does there). -/
def State.tableAt (s : State) (pa n : Nat) : Option Nat :=
  if s.retired.contains (pa / 65536) || s.poisonedAt pa n then none else some (s.readPa 0 pa n)

/-- The core whose scratchpad holds an address. -/
def padCore (pa : Nat) : Nat := (pa - padBase 0) / 0x800000

/-! ### Heat (R432, R433) -/

def heatEn (h : Nat) : Bool := bit h 63
def heatShift (h : Nat) : Nat := bits h 56 4
def heatDecay (h : Nat) : Nat := min (bits h 48 8) 40
def heatHot (h : Nat) : Nat := bits h 40 8
def heatCold (h : Nat) : Nat := bits h 32 8

/-- A report enters the migration queue, or is dropped. -/
def State.heatReport (s : State) (g heat tier : Nat) : State :=
  if s.migQ.length < 256 then { s with migQ := s.migQ ++ [(g, heat, tier)] } else { s with migStall := s.migStall + 1 }

/-- A controller serves an access to an address under a leaf, and counts it where the leaf has HEAT. -/
def State.heatUp (s : State) (leaf pa : Nat) : State :=
  let g := pa / 65536
  let h := s.heatCtl.toNat
  if !bit leaf 7 || !isGlobal pa || !heatEn h then s
  else
    let u := memoryUnit pa
    let n := tget 0 s.heatCnt u + 1
    let s := { s with heatCnt := tset s.heatCnt u n }
    if n % 2 ^ heatShift h ≠ 0 then s
    else
      let old := tget 0 s.heat g
      let new := min 255 (old + 1)
      let s := { s with heat := tset s.heat g new }
      if !isHbm pa && heatHot h != 0 && decide (old < heatHot h) && new == heatHot h then s.heatReport g new 1 else s

/-- Whether L2 holds a line: a dirty one it does; of a clean one it is a free choice (log entry 15). -/
def State.l2Has (s : State) (line : Nat) : Bool := thas s.l2 line || Config.freeNat (s.free + 2 ^ 64 * (line + 13)) % 2 == 0

/-- L2 serves an access to n bytes under a leaf: lines that it does not hold it fills (R433). -/
def State.l2Fills (s : State) (leaf pa n : Nat) : State :=
  if !bit leaf 7 then s
  else ((List.range ((pa + n - 1) / 128 - pa / 128 + 1)).map (· + pa / 128)).foldl (fun s line =>
    if s.l2Has line then s else s.heatUp leaf (128 * line)) s

/-- Every byte is halved; an HBM granule that falls to COLD is reported (R433). -/
def State.heatHalve (s : State) : State :=
  let h := s.heatCtl.toNat
  let cold := s.heat.filter fun p => isHbm (65536 * p.1) && heatCold h != 0 && decide (heatCold h < p.2 ∧ p.2 / 2 ≤ heatCold h)
  let s := { s with
    heat := (s.heat.map fun p => (p.1, p.2 / 2)).filter fun p => p.2 != 0
    heatDue := false, decayAt := s.decayAt + 1000 * 2 ^ heatDecay h }
  cold.foldl (fun s p => s.heatReport p.1 (p.2 / 2) 0) s

/-! ### Lines (R222, R235) -/

/-- Whether a block is a bale: in memory, or in L2 with a line that is one. -/
def State.isBale (s : State) (b : Nat) : Bool :=
  s.baleBits.contains b || s.l2.any fun p => p.1 / 32 == b && nth 0 p.2 132 % 4 == 2

/-- What L2 keeps of a line: its bytes, the keys and the poison marks of its granules, a form (4 more under a leaf with HEAT). -/
def State.lineNow (s : State) (line form : Nat) : List Nat :=
  memList s.mem (128 * line) 128 ++ [tget 0 s.keyTags (2 * line), tget 0 s.keyTags (2 * line + 1),
    b2n (s.poison.contains (2 * line)), b2n (s.poison.contains (2 * line + 1)), form]

/-- A line of a block is written back in a form (R235): plain; under a leaf with BALE, where a bale is encoded again; or
as a bale. A block that no bale can hold, or whose expander is not bale-capable, is plain. -/
def State.formBack (s : State) (line form : Nat) : State :=
  let b := line / 32
  let capable := isHbm (4096 * b) || (s.expander (4096 * b)).any (·.baleCap)
  let asked := form % 4 == 2 || (form % 4 == 1 && s.baleBits.contains b)
  if asked && capable && baleStores (memList s.mem (4096 * b) 4096) then { s with baleBits := s.baleBits.insert b }
  else { s with baleBits := s.baleBits.filter (· != b) }

/-- A line is written back in its form, and the access counted (R222, R433). -/
def State.lineBack (s : State) (line form : Nat) : State := (s.formBack line form).heatUp (form / 4 * 128) (128 * line)

/-- The memory behind L2 holds a 64-byte granule of a cellar page as it is now; a line both of whose granules it holds is
no longer dirty. -/
def State.settleGranule (s : State) (x : Nat) : State :=
  let line := x / 2
  let old := tget [] s.l2 line
  let now := s.lineNow line (nth 0 old 132)
  let mixed := if x % 2 = 0 then now.take 64 ++ (old.drop 64).take 64 ++ [nth 0 now 128, nth 0 old 129, nth 0 now 130, nth 0 old 131, nth 0 old 132]
    else old.take 64 ++ (now.drop 64).take 64 ++ [nth 0 old 128, nth 0 now 129, nth 0 old 130, nth 0 now 131, nth 0 old 132]
  if !thas s.l2 line then s
  else if s.cellarLines.contains (2 * line + (1 - x % 2)) then { s with l2 := tset s.l2 line mixed }
  else { (s.lineBack line (nth 0 old 132)) with l2 := tdel s.l2 line }

/-- A 64-byte granule of a cellar page reaches its persistence point: V(G) goes odd, the journal records it, and the
memory behind holds it (R224, R225, R289). -/
def State.persistGranule (s : State) (x : Nat) : State :=
  if s.cellarLines.contains x then
    let g := x / 1024
    let v := tget 0 s.versions g
    State.settleGranule { s with
      cellarLines := s.cellarLines.filter (· != x)
      cellarOpen := (s.cellarOpen.map fun p =>
        if p.granule = x then { p with done := true } else p).eraseDups
      versions := if v % 2 = 0 then tset s.versions g ((v + 1) % 2 ^ 32) else s.versions
      journal := s.journal ++ [g] } x
  else s

/-- A dirty line is written back (R222). -/
def State.evictLine (s : State) (line : Nat) : State :=
  let form := nth 0 (tget [] s.l2 line) 132
  let s := (s.persistGranule (2 * line)).persistGranule (2 * line + 1)
  if thas s.l2 line then { (s.lineBack line form) with l2 := tdel s.l2 line } else s

/-- Lines that the L2 of a die holds (R4, R212), less its share of the 64 KiB chunks of the resident pool (R389; that the dies
give equal shares is the model's, log entry 15). -/
def State.l2Lines (s : State) : Nat := 393216 - 128 * (tget (0, 0) s.pools 0).2

/-- A line of L2 becomes dirty: what the memory behind it holds is kept (R222); in a full L2 the die's first dirty line
is written back for it, and only dirty lines are counted (DESIGN CHOICE, log entry 15: the spec gives L2 no replacement
policy). A bale stays one unless a leaf without BALE writes to it (R235). -/
def State.dirtyLine (s : State) (line : Nat) : State :=
  if thas s.l2 line then s
  else
    let mine := s.l2.filter fun p => homeDie (128 * p.1) == homeDie (128 * line)
    let s := if s.l2.length < s.l2Lines then s
      else if mine.length < s.l2Lines then s
      else match mine with | [] => s | p :: _ => s.evictLine p.1
    { s with l2 := tset s.l2 line (s.lineNow line 1) }

/-- What the L2 of each die cannot hold any more is written back, the first dirty lines first (R389). -/
def State.trimL2 (s : State) : State :=
  (List.range 4).foldl (fun s d =>
    let mine := s.l2.filter fun p => homeDie (128 * p.1) == d
    (mine.take (mine.length - s.l2Lines)).foldl (fun s p => s.evictLine p.1) s) s

/-- The lines of a range take the form that the leaf of a write gives them, and 2 where it arrives as a bale (R235). -/
def State.setForm (s : State) (pa n form : Nat) : State :=
  if n = 0 ∨ !isGlobal pa then s
  else
    { s with l2 := ((List.range ((pa + n - 1) / 128 - pa / 128 + 1)).map (· + pa / 128)).foldl (fun t line =>
      if thas t line then tset t line ((tget [] t line).take 132 ++ [nth 0 (tget [] t line) 132 / 8 * 8 + form]) else t) s.l2 }

/-- The granules of a range change to a key's mark. -/
def State.rekey (s : State) (key pa n : Nat) : State :=
  let mark := s.keyMark key
  if n = 0 then s
  else
    ((List.range ((pa + n - 1) / 64 - pa / 64 + 1)).map (· + pa / 64)).foldl (fun s g =>
      let tag := tget 0 s.keyTags g
      if tag = mark then s
      else
        { s with
          mem := memBytes s.mem (64 * g)
            (((memList s.mem (64 * g) 64).zipIdx).map fun p => Config.wrongKey mark tag (64 * g + p.2) p.1)
          keyTags := tset s.keyTags g mark }) s

/-- n bytes written under a key at the point of coherence; what is written to the window of a port that is down is lost (R443). -/
def State.writePa (s : State) (key pa n v : Nat) : State :=
  if n = 0 then s
  else if s.cxlDown pa then s.machineCheck 2 pa
  else
    let s := if isGlobal pa then
        (((List.range ((pa + n - 1) / 128 - pa / 128 + 1)).map (· + pa / 128)).foldl State.dirtyLine s).rekey key pa n
      else s
    let s := s.coverRange pa n
    { s with mem := memWrite s.mem pa n v }

/-- A list of bytes written under a key. -/
def State.writeList (s : State) (key pa : Nat) (l : List Nat) : State := s.writePa key pa l.length (pack 8 l)

/-- Bytes read under a key. -/
def State.readList (s : State) (key pa n : Nat) : List Nat := split 8 n (s.readPa key pa n)

/-! ### Scheduler memory as the MBS reads and writes it (R226, R358) -/

/-- n bytes at an offset of scheduler memory. -/
def State.sm (s : State) (off n : Nat) : Nat := memRead s.mem (schedBase + off) n

/-- n bytes at an offset of scheduler memory written. -/
def State.smPut (s : State) (off n v : Nat) : State :=
  { (s.coverRange (schedBase + off) n) with mem := memWrite s.mem (schedBase + off) n v }

end Sys2Proof.Machine
end

