-- ==== Sys2Proof/Machine/Ops.lean ====
section
/-! DEFINITION. The named operations over registers, contexts, time and results: reading and landing (R75, R76, R91 to
R94), what a bundle collects until it commits (R73), taking a trap and returning from one (R190 to R196), killing a
context (R205), counting faults (R369). -/

namespace Sys2Proof.Machine

/-- What a meaning answers. -/
abbrev Answer := Host.Outcome State Fault Refusal

/-! ### Homes -/

def State.core (s : State) (c : Nat) : Core := tget Core.reset s.cores c
def State.modCore (s : State) (c : Nat) (f : Core → Core) : State := { s with cores := tset s.cores c (f (s.core c)) }
def Core.ctx (k : Core) (j : Nat) : Ctx := tget Ctx.empty k.ctxs j
def Core.bank (k : Core) (b : Nat) : Bank := tget Bank.zero k.banks b
def State.ctx (s : State) (c j : Nat) : Ctx := (s.core c).ctx j
def State.modCtx (s : State) (c j : Nat) (f : Ctx → Ctx) : State :=
  s.modCore c fun k => { k with ctxs := tset k.ctxs j (f (k.ctx j)) }

/-- The bank a context occupies; a context without one reads a zero bank. -/
def State.bankOf (s : State) (c j : Nat) : Bank :=
  match (s.ctx c j).bank with
  | some b => (s.core c).bank b
  | none => .zero

def State.modBank (s : State) (c j : Nat) (f : Bank → Bank) : State :=
  match (s.ctx c j).bank with
  | some b => s.modCore c fun k => { k with banks := tset k.banks b (f (k.bank b)) }
  | none => s

def State.cluster (s : State) (cl : Nat) : Cluster := tget Cluster.reset s.clusters cl
def State.modCluster (s : State) (cl : Nat) (f : Cluster → Cluster) : State :=
  { s with clusters := tset s.clusters cl (f (s.cluster cl)) }

/-- The issuing context and its bank. -/
def State.me (s : State) : Ctx := s.ctx s.bun.core s.bun.ctx
def State.mb (s : State) : Bank := s.bankOf s.bun.core s.bun.ctx
def State.modMe (s : State) (f : Ctx → Ctx) : State := s.modCtx s.bun.core s.bun.ctx f
def State.modMb (s : State) (f : Bank → Bank) : State := s.modBank s.bun.core s.bun.ctx f

/-- Operand n of the event in hand. -/
def State.op (s : State) (n : Nat) : Nat := s.ev.getD n 0

/-- A fresh free value, and the state after the draw (log entry 3). -/
def State.drawNat (s : State) : Nat × State := (Config.freeNat s.free, { s with free := s.free + 1 })
def State.drawWord (s : State) : Word × State := (Config.freeWord s.free, { s with free := s.free + 1 })

/-- Time passes to cycle t of the clock; tstamp follows in nanoseconds, from what the supervisor wrote if it has (R2, R427,
R428), and from step 2 of the bring-up onward (R451). -/
def State.passTo (s : State) (t : Nat) : State :=
  if t ≤ s.clk then s
  else
    let a := s.tacc + 1000 * (t - s.clk)
    if s.stage < 2 then { s with clk := t }
    else if a / s.mhz = 0 then { s with clk := t, tacc := a }
    else { s with clk := t, ns := s.nsNew.getD s.ns + a / s.mhz, tacc := a % s.mhz, nsNew := none }

/-- 1 ms and 8 ms in cycles of the clock in force. -/
def State.cyclesOf (s : State) (us : Nat) : Nat := us * s.mhz

/-! ### Counters (R427) -/

/-- A counter of a core counts, from what the supervisor wrote if it has since the last event (R427; DEDUCED, log entry 36). -/
def State.bumpCounter (s : State) (c n by_ : Nat) : State :=
  if by_ = 0 then s
  else s.modCore c fun k => { k with
    counters := tset k.counters n (tget (tget 0 k.counters n) k.counterNew n + wd by_), counterNew := tdel k.counterNew n }

/-- A cluster's rqst counts likewise. -/
def State.bumpRqst (s : State) (cl : Nat) : State :=
  let w := tget (s.cluster cl).rqst (s.core (4 * cl)).counterNew 0x020
  (s.modCluster cl fun q => { q with rqst := w + 1 }).modCore (4 * cl) fun k => { k with counterNew := tdel k.counterNew 0x020 }

/-- Whether a selector names an event of a slot; slot 8 stands for none (R429). -/
def selects (p evt j : Nat) : Bool := bits p 0 8 == evt && (bits p 8 8 == 0 || (decide (j < 8) && bit p (8 + j)))

/-- An event of a slot at the performance counters whose selector names it (R429, R430). -/
def State.perf (s : State) (c j evt n : Nat) : State :=
  let k := s.core c
  let hit := (List.range 16).filter fun i => selects (tget 0 k.pcsel i).toNat evt j
  hit.foldl (fun s i => s.bumpCounter c (0x030 + i) n) s

/-- The context that runs on a core. -/
def Core.running (k : Core) : Option Nat := (k.ctxs.find? fun p => p.2.st == .running).map (·.1)

/-- Cycles that a selector counts and that its counter does not hold yet: those without an issue, those in which the
sequencer is busy (R430). -/
def State.uncounted (s : State) (c p : Nat) : Nat :=
  let k := s.core c
  if selects p 2 (k.running.getD 8) then s.clk - k.lastIssue - 1
  else match k.seqr.run with
    | some w => if selects p 6 w.ctx then s.clk - k.seqr.since else 0
    | none => 0

/-- Cycles without an issue are counted so far, for the context that runs. -/
def State.countIdle (s : State) (c : Nat) : State :=
  (s.perf c ((s.core c).running.getD 8) 2 (s.clk - (s.core c).lastIssue - 1)).modCore c fun k =>
    { k with lastIssue := max k.lastIssue (s.clk - 1) }

/-- Cycles in which the sequencer was busy with its running word are counted up to a cycle. -/
def State.countBusy (s : State) (c t : Nat) : State :=
  match (s.core c).seqr.run with
  | some w => (s.perf c w.ctx 6 (t - (s.core c).seqr.since)).modCore c fun k => { k with seqr := { k.seqr with since := max k.seqr.since t } }
  | none => s

/-- Whether a remote operation of a strand waits for its owner's answer (R278). -/
def State.remoteOut (s : State) (uid : Nat) : Bool := s.remotes.any fun p => p.2.kind == 0 && p.2.uid == uid

/-! ### Registers -/

/-- Scalar register k at issue; s0 reads zero (R91). -/
def Bank.sr (b : Bank) (k : Nat) : Word := if k = 0 then 0 else tget 0 b.s k
def Bank.vr (b : Bank) (k : Nat) : VReg := tget 0 b.v k

/-- The value of scalar register k of the issuing context. -/
def State.rs (s : State) (k : Nat) : Word := s.mb.sr k
def State.rsn (s : State) (k : Nat) : Nat := (s.rs k).toNat

/-- The top of the mask stack; all ones at depth 0 (R93). -/
def Bank.top (b : Bank) : Word := b.mask.headD (BitVec.allOnes 64)
def State.top (s : State) : Nat := s.mb.top.toNat

/-- Control register n of the issuing context, where the bank holds it (R100). -/
def State.cr (s : State) (n : Nat) : Word := tget 0 s.mb.cr n

/-- fmt and its fields (R94). -/
def State.fmtn (s : State) : Nat := s.mb.fmt.toNat
def fmtSri (f : Nat) : Nat := bits f 29 3
def fmtSat (f : Nat) : Bool := bit f 28
def fmtRnd (f : Nat) : Nat := bits f 25 3
def fmtAcf (f : Nat) : Bool := bit f 24
def fmtBlk (f : Nat) : Bool := bit f 23
def fmtMa (f : Nat) : Nat := bits f 17 6
def fmtMb (f : Nat) : Nat := bits f 11 6
def fmtVty (f : Nat) : Nat := bits f 7 4
def fmtR (f : Nat) : Rnd := ⟨fmtRnd f, fmtSat f⟩

/-- The header's fields (R58). -/
def State.header (s : State) : Nat := s.bun.words.headD 0
def hdrPop (h : Nat) : Nat := bits h 24 8
def hdrStall (h : Nat) : Nat := bits h 20 4
def hdrSafe (h : Nat) : Bool := bit h 19
def hdrChk (h : Nat) : Bool := bit h 18
def hdrBcv (h : Nat) : Bool := bit h 17
def hdrBcs (h : Nat) : Nat := bits h 12 5

/-- The broadcast port's value (R69): 64-bit elements take the whole register, others bits 31:0 in each lane. -/
def State.broadcast (s : State) (w : Nat) : VReg :=
  let x := s.rsn (hdrBcs s.header)
  if w = 64 then ofElems 64 (List.replicate 32 x) else ofElems 32 (List.replicate 64 x)

/-- A vector source field for elements of w bits: v0 to v30, or 31 the broadcast port (R61). -/
def State.rv (s : State) (w k : Nat) : VReg := if k = 31 then s.broadcast w else s.mb.vr k

/-! ### Queue control words (R308) -/

def qEn (q : Nat) : Bool := bit q 63
def qHead (q : Nat) : Nat := bits q 54 8
def qTail (q : Nat) : Nat := bits q 46 8
def qCnt (q : Nat) : Nat := bits q 37 9
def qDepth (q : Nat) : Nat := bits q 29 8 + 1
/-- Element size in bytes. -/
def qEsz (q : Nat) : Nat := 4 * (bits q 23 6 + 1)
def qBase (q : Nat) : Nat := bits q 0 23

def Bank.queue (b : Bank) (k : Nat) : Nat := (tget 0 b.qc k).toNat

/-- The tail is taken (R310): TAIL and CNT move on. -/
def qPushed (q : Nat) : Nat := setBits (setBits q 46 8 ((qTail q + 1) % qDepth q)) 37 9 (qCnt q + 1)

/-- The head is given up (R310). A POP whose one element an earlier POP in flight takes leaves CNT at 0 (DESIGN CHOICE, log
entry 36). -/
def qPopped (q : Nat) : Nat := setBits (setBits q 54 8 ((qHead q + 1) % qDepth q)) 37 9 (qCnt q - 1)

/-- POP bit k at commit (R72, R310). -/
def Bank.pop (b : Bank) (k : Nat) : Bank :=
  let q := b.queue k
  { b with
    present := tset b.present k (setBits (tget 0 b.present k) (qHead q) 1 0)
    qc := tset b.qc k (wd (qPopped q)) }

/-- An element becomes present (R310). -/
def Bank.fillElem (b : Bank) (k e : Nat) : Bank := { b with present := tset b.present k (setBits (tget 0 b.present k) e 1 1) }

/-- A push or a deposit takes the tail of queue k at its commit; a push's element is present from then on (R310). -/
def Bank.takeTail (b : Bank) (k : Nat) (fill : Bool) : Bank :=
  let q := b.queue k
  let b := if fill then b.fillElem k (qTail q) else b
  { b with qc := tset b.qc k (wd (qPushed q)) }

/-! ### Landing (R75, R76) -/

def setMark (m : Tab Nat) (k v : Nat) : Tab Nat := if v = 0 then tdel m k else tset m k v

/-- The elements that a written queue control word marks present: CNT from HEAD (R309). -/
def presentFrom (w : Word) : Nat :=
  let n := w.toNat
  let depth := bits n 29 8 + 1
  if bit n 63 then (List.range (bits n 37 9)).foldl (fun a i => a ||| 2 ^ ((bits n 54 8 + i) % depth)) 0 else 0

/-- A value lands in a bank (R76); narrow control registers ignore upper bits (R100). A cwr of tinfo keeps all 64 bits,
so it can set bits 7:3, which R100's table calls zero (DESIGN CHOICE, log entry 30). -/
def Bank.land (b : Bank) (d : Dest) (v : Val) : Bank :=
  match d, v with
  | .s k, .word w m => if k = 0 then b else { b with s := tset b.s k w, marks := setMark b.marks k m }
  | .v k, .vec en x m =>
    { b with
      v := tset b.v k ((b.vr k &&& ~~~en) ||| (x &&& en))
      marks := if m = 0 then (if en = BitVec.allOnes 2048 then tdel b.marks (4096 + k) else b.marks)
        else setMark b.marks (4096 + k) m }
  | .mask, .stack l _ _ => { b with mask := l, marks := tdel b.marks 8192 }
  | .fmt, .field en w => { b with fmt := (b.fmt &&& ~~~en) ||| (w &&& en) }
  | .mg k, .word w m => { b with mg := tset b.mg k w, marks := setMark b.marks (5 * 4096 + k) m }
  | .cg k, .word w m => { b with cg := tset b.cg k w, marks := setMark b.marks (6 * 4096 + k) m }
  | .qhead k, _ => b.pop k
  | .qtail k, .move fill => b.takeTail k fill
  | .cr n, .word w m =>
    if 0x40 ≤ n ∧ n < 0x48 then
      { b with
        qc := tset b.qc (n - 0x40) w, present := tset b.present (n - 0x40) (presentFrom w), marks := setMark b.marks (3 * 4096 + n) m }
    else { b with
      cr := tset b.cr n (if 0x007 ≤ n ∧ n ≤ 0x009 then w &&& 1 else w)
      marks := setMark b.marks (3 * 4096 + n) m }
  | _, _ => b

/-- A landing takes its place by landing cycle; within a cycle the younger goes after (R76). -/
def insertLanding (x : Landing) : List Landing → List Landing
  | [] => [x]
  | y :: l => if x.due < y.due then x :: y :: l else y :: insertLanding x l

/-- A result of the committing bundle, due at issue + lat. -/
def State.schedule (s : State) (lat : Nat) (d : Dest) (v : Val) (isLoop : Bool) : State :=
  s.modMe fun x => { x with land := insertLanding ⟨s.bun.t + lat, x.seq, d, v, isLoop, s.bun.mirror.contains d⟩ x.land }

/-- Whether a value carries the poison mark (R189). -/
def Val.poisoned : Val → Bool
  | .word _ m => m == 1
  | .vec _ _ m => m == 1
  | _ => false

/-- The matrix words that a strand's copies still carry are dropped: all of them at a kill, whose copies then belong to no phase,
or those of its phase's copies. At a
rollback R200 does not say what becomes of the word of a copy that lands in its step 2: the re-issued copy chains it again,
so the first is dropped (DESIGN CHOICE, log entry 33). -/
def State.dropCarried (s : State) (c uid : Nat) (all : Bool) : State :=
  { s with copies := s.copies.map fun p =>
      (p.1, if p.2.core = c ∧ p.2.uid = uid ∧ (all = true ∨ p.2.phase = true) then { p.2 with mt := none, phase := p.2.phase && !all } else p.2) }

/-- The sequencer's words are dropped; its busy cycles so far count (R430). -/
def State.dropSequencer (s : State) (c : Nat) : State :=
  (s.countBusy c s.clk).modCore c fun k => { k with seqr := .idle }

/-- Whether it is no result but a queue's move at its bundle's commit (R72, R310), which nothing but a kill takes back (R205). -/
def Landing.commits (l : Landing) : Bool := match l.dest with | .qhead _ => true | .qtail _ => true | _ => false

/-- The flips that a strand's publishes ask for and that stand on this device are asked no more; what an owner answers for others
comes to nobody. -/
def State.dropFlips (s : State) (uid : Nat) : State :=
  let mine (r : Nat × Remote) : Bool := r.2.kind == 3 && r.2.uid == uid
  { s with
    packets := s.packets.filter fun p =>
      !(p.2.kind == 3 && p.2.src == s.dev && p.2.hops == 0 && (s.remotes.filter mine).any fun r => r.1 == p.2.who)
    remotes := s.remotes.filter fun r => !mine r }

/-- A kill begins: issue stops, and everything pending of the context is discarded; it ends with KILL_COMPLETE (R205). -/
def State.startKill (s : State) (c j code : Nat) : State :=
  let seqMine := (s.ctx c j).st == .running
  let s := (s.dropCarried c (s.ctx c j).uid true).dropFlips (s.ctx c j).uid
  let s := s.modCtx c j fun x =>
    { x with wait := .kill code, after := .none, land := [], snap := [], loads := [], rel := none, relBefore := [], arrives := [], owed := []
             phase := .closed, region := .closed, handler := false }
  if seqMine then s.dropSequencer c else s

/-- Whether a pending release is a phase.commit (R262), and what is left of one in a rollback: a release of nothing, for the arrivals
that wait for it. -/
def RelKind.commits (r : RelKind) : Bool := match r with | .phase .. => true | .sent ph => ph | _ => false
def Release.rolledBack (r : Release) : Release := if r.kind.commits then ⟨0, .publish [] false⟩ else r

/-- A consumption in an open phase starts its rollback: in-flight results, sequencer words, and issue are dropped
(R199, R200 step 1), and with them the flips of a phase.commit that no owner has made yet (step 3); but a committed store or atomic
that is a release still performs (R247); in handler state it is a double trap (R209). A kill that is
under way goes on. A consumption by a copy that step 5 has issued again starts the rollback over, and counts as the same retry
(DESIGN CHOICE, log entry 33). -/
def State.consume (s : State) (c j : Nat) : State :=
  let x := s.ctx c j
  if x.wait.killing then s
  else if x.handler then s.startKill c j 0x41
  else
    let s := s.dropCarried c x.uid false
    let s := if x.rel.any (·.kind.commits) then s.dropFlips x.uid else s
    let s := s.modCtx c j fun x => { x with
      rel := x.rel.map Release.rolledBack, wait := .rollback 0, after := .none, land := x.land.filter (·.commits), snap := []
      loads := (x.loads.filter fun l => l.release.isSome && l.done.isNone).map fun l => { l with dest := 0 } }
    if x.st = .running then s.dropSequencer c else s

/-- The queue whose control word a result is. -/
def Dest.queue : Dest → Option Nat
  | .cr n => if 0x40 ≤ n ∧ n < 0x48 then some (n - 0x40) else none
  | _ => none

/-- A deposit in flight into a queue whose control word is rewritten sets no present bit (R310). -/
def Copy.forget (y : Copy) (c uid q : Nat) : Copy :=
  if y.core = c ∧ y.uid = uid ∧ (y.elem.map (·.1)) = some q then { y with elem := none } else y

/-- Every result of a context due at or before t lands. Poison that lands in s0, which keeps no value, is a consumption too
(R199, R241; DESIGN CHOICE, log entry 36). -/
def State.landUntil (s : State) (c j t : Nat) : State :=
  let x := s.ctx c j
  let now := x.land.filter fun l => decide (l.due ≤ t)
  if now.isEmpty then s
  else
    let s := s.modCtx c j fun x => { x with land := x.land.filter fun l => !decide (l.due ≤ t) }
    let s := s.modBank c j fun b => now.foldl (fun b l => b.land l.dest l.val) b
    let s := { s with copies := (now.filterMap (·.dest.queue)).foldl (fun t q => t.map fun p => (p.1, p.2.forget c x.uid q)) s.copies }
    if x.phase.opened && now.any (fun l => l.val.poisoned) then s.consume c j else s

/-! ### Which context runs (R24, R103) -/

/-- A context that can issue or leave once it has a bank, or whose rollback waits for one. -/
def Ctx.canRun (x : Ctx) : Bool :=
  (x.st == .ready || x.st == .suspendedOut) &&
    (match x.wait with | .none | .exit | .suspend .. | .yield => true | .rollback _ => x.bank.isNone | _ => false)

/-- The claims that wait, while the core claims banks at all (R24, R103): context and bank; and whether one is for a bank. -/
def Core.claimed (k : Core) : Tab Nat := if bit k.saBase.toNat 63 then k.claims else []
def Core.isClaimed (k : Core) (b : Nat) : Bool := k.claimed.any fun p => p.2 == b

/-- Whether a context has a bank or a claim, or a bank that no other claims is free or can be claimed. -/
def Core.bankable (k : Core) (j : Nat) (x : Ctx) : Bool :=
  x.bank.isSome || thas k.claimed j ||
    (List.range 4).any fun b => !k.isClaimed b && (bit k.saBase.toNat 63 || (k.bank b).owner.isNone)

/-- Contexts among which the core chooses. -/
def Core.choices (k : Core) : List (Nat × Ctx) := k.ctxs.filter fun p => p.2.canRun && k.bankable p.1 p.2

/-- The context with the highest priority, and the oldest within it. -/
def Core.best (k : Core) : Option Nat :=
  (k.choices.foldl (fun a p => match a with
    | none => some p
    | some q => if q.2.pri < p.2.pri ∨ (q.2.pri = p.2.pri ∧ p.2.age < q.2.age) then some p else a) none).map (·.1)

/-! ### What a bundle collects -/

def State.emit (s : State) (e : Eff) : State := { s with bun := { s.bun with effs := s.bun.effs ++ [e] } }

/-- A trap of the slot in hand; the first found is the one reported (R84). -/
def State.trap (s : State) (cause detail : Nat) : State :=
  match s.bun.trap with
  | some _ => s
  | none => { s with bun := { s.bun with trap := some ⟨cause, detail, s.bun.slot⟩ } }

/-- The bundle waits (R78, R247, R304); counter 0 counts nothing. -/
def State.waitFor (s : State) (why counter : Nat) : State :=
  match s.bun.hold with
  | some h => { s with bun := { s.bun with hold := some { h with also := h.also ++ [counter] } } }
  | none => { s with bun := { s.bun with hold := some ⟨why, counter, .none, []⟩ } }

/-- The bundle waits, and its context parks meanwhile (R339, R425). -/
def State.parkFor (s : State) (w : Wait) : State :=
  let full := match s.bun.hold with | some h => h.counter :: h.also | none => []
  { s with bun := { s.bun with hold := some ⟨9, 0, w, full⟩ } }

/-- A scalar result (R106). -/
def State.result (s : State) (d lat : Nat) (w : Word) : State := s.emit (.land lat (.s d) (.word w 0))

/-- Illegal instruction, found from a value (detail 0). -/
def State.illegal (s : State) : State := s.trap 0x01 0

/-- Go on unless the slot has trapped. -/
def State.unless (s : State) (bad : Bool) (cause detail : Nat) (k : State → State) : State :=
  if bad then s.trap cause detail else k s

/-! ### Crews and allotments -/

/-- The crew entry an id names, in the cluster of a core (R373). -/
def State.crewOf (s : State) (core id : Nat) : Crew :=
  if id = 0xFFFF then .free else tget .free (s.cluster (core / 4)).crews (id % 64)

def State.myCrew (s : State) : Crew := s.crewOf s.bun.core s.me.crew

/-- Physical base and size of a crew's allotment on a core (R218). -/
def State.allot (s : State) (core id : Nat) : Nat × Nat :=
  let c := s.crewOf core id
  (padBase core + c.sqBase * 16384, if id = 0xFFFF then 0 else c.sqCnt * 16384)

/-! ### Faults counted (R369) -/

/-- A fault of a strand of a crew counts in the running replay's record, or in detflt. -/
def State.countFault (s : State) (core crew number code : Nat) : State :=
  match s.replay with
  | some r =>
    if r.number = number then
      { s with replay := some { r with
          fcount := min (r.fcount + 1) (2 ^ 32 - 1), ffirst := if r.fcount = 0 then code else r.ffirst } }
    else if crew = 0xFFFF then s.bumpCounter core 0x042 1 else s
  | none => if crew = 0xFFFF then s.bumpCounter core 0x042 1 else s

/-! ### Traps (R187 to R196) -/

/-- The scalar registers that a trap frame, a phase and a region keep (R192, R197, R354), and where in spill memory. -/
def frameRegs : List Nat := List.range 32
def phaseRegs : List Nat := (List.range 16).drop 1
def regionRegs : List Nat := (List.range 30).drop 1
def frameAt : Nat := 0x3F00
def phaseAt : Nat := 0x3E00
def regionAt : Nat := 0x3D00

/-- Scalar registers written to spill memory, register k at off + 8k, with their marks (log entry 14). -/
def Bank.keepRegs (b : Bank) (off : Nat) (l : List Nat) : Bank :=
  { b with
    spill := l.foldl (fun t k => tset t (off / 8 + k) (b.sr k)) b.spill
    marks := l.foldl (fun m k => setMark m (16384 + off / 8 + k) (tget 0 b.marks k)) b.marks }

/-- Scalar registers read back from there. -/
def Bank.takeRegs (b : Bank) (off : Nat) (l : List Nat) : Bank :=
  { b with
    s := l.foldl (fun t k => if k = 0 then t else tset t k (tget 0 b.spill (off / 8 + k))) b.s
    marks := l.foldl (fun m k => if k = 0 then m else setMark m k (tget 0 b.marks (16384 + off / 8 + k))) b.marks }

/-- Trap entry of the issuing context for a bundle issued at t (R190 to R192); a double trap or no handler kills. -/
def State.takeTrap (s : State) (tr : Trap) (pc t : Nat) : State :=
  let c := s.bun.core
  let j := s.bun.ctx
  let x := s.me
  let thnd := s.cr 0x003
  if x.handler then s.startKill c j 0x41
  else if thnd = 0 then s.startKill c j tr.cause
  else
    let s := s.landUntil c j t
    let s := s.modBank c j fun b => { b.keepRegs frameAt frameRegs with
      cr := tset (tset (tset b.cr 0 (wd tr.cause)) 2 (wd (tr.detail * 256 + tr.word))) 1 (wd pc) }
    let s := s.modCtx c j fun x => { x with
      handler := true, trapT := t, pc := thnd.toNat, nextAt := t + 20, land := x.land.filter (·.commits)
      loads := x.loads.map fun l => { l with held := true }
      snap := (x.land.filter (!·.commits)).map fun l => { l with due := l.due - t } }
    s.modCore c fun k => { k with seqr := { k.seqr with frozen := true } }

/-- A landing moved by a number of cycles; a commit stays where it is (R79, R195). -/
def Landing.shift (l : Landing) (by_ : Nat) : Landing := if l.commits then l else { l with due := l.due + by_ }

/-- Return from a handler to a target, at issue cycle t' (R195): frame reload, snapshot replay, sequencer resumed. Of the
results of the jump's own bundle the scalar ones that land by t' are lost to the reload. -/
def State.returnTo (s : State) (target t' : Nat) : State :=
  let c := s.bun.core
  let j := s.bun.ctx
  let x := s.me
  let s := s.modBank c j fun b => b.takeRegs frameAt frameRegs
  let own := x.land.filter fun l => l.due > t' || (match l.dest with | .s _ => false | _ => true)
  let s := s.modCtx c j fun x => { x with
    handler := false, pc := target, nextAt := t', snap := [], land := own.foldl (fun l r => insertLanding r l) (x.snap.map fun l => l.shift t')
    loads := x.loads.map fun l => { l with held := false } }
  s.modCore c fun k => { k with seqr := { k.seqr with frozen := false, start := k.seqr.start + (t' - x.trapT) } }

/-! ### Stochastic counters (R49, R50) -/

/-- Seed of a stream, and the counter value the slot in hand reserves: after those of earlier slots of the bundle. -/
def State.stream (s : State) (f : Nat) : Word × Nat :=
  let k := fmtSri f
  let taken := s.bun.effs.foldl (fun a e => match e with | .srTake j n => if j = k then a + n else a | _ => a) 0
  (s.cr (0x10 + k), (s.cr (0x18 + k)).toNat + taken)

/-- Reserve for n results, in mode rsr only. -/
def State.reserve (s : State) (f n : Nat) : State :=
  if fmtRnd f = 4 then s.emit (.srTake (fmtSri f) (ceilDiv n 64)) else s

/-! ### Monitored lines (R25, R384) -/

/-- Whether a wait is for a location that a write to a range reaches: the 128-byte line, or the scratchpad word. -/
def Wait.hitBy (w : Wait) (pa n : Nat) : Bool :=
  match w with
  | .line a _ z _ _ =>
    if isPad a then decide (pa < a + z ∧ a < pa + n)
    else decide (a / 128 ≤ (pa + n - 1) / 128 ∧ pa / 128 ≤ a / 128)
  | .bar a _ => decide (pa < a + 16 ∧ a < pa + n)
  | _ => false

/-- A waiting context hears of the write; CONTEXT_WAKE follows. -/
def Ctx.hear (x : Ctx) (pa n : Nat) : Ctx :=
  if x.wait.hitBy pa n then { x with woken := true } else x

/-- A write to a range is heard by every context parked on it. -/
def State.wakeWriters (s : State) (pa n : Nat) : State :=
  if s.cores.any (fun p => p.2.ctxs.any fun q => q.2.wait.hitBy pa n) then
    { s with cores := s.cores.map fun p =>
        (p.1, { p.2 with ctxs := p.2.ctxs.map fun q => (q.1, q.2.hear pa n) }) }
  else s

end Sys2Proof.Machine
end

