-- ==== Sys2Proof/Machine/Cellar.lean ====
section
/-! DEFINITION. Writes at the point of coherence (R269): what a write to a cellar page leaves to be made durable (R224,
R225), whose it is (R180, R277), and when it is covered. -/

namespace Sys2Proof.Machine

/-! ### The Cellar (R224, R225) -/

/-- The 64-byte granules of [pa, pa + n). -/
def granulesOf (pa n : Nat) : List Nat :=
  if n = 0 then [] else (List.range ((pa + n - 1) / 64 - pa / 64 + 1)).map (· + pa / 64)

/-- A write by a strand, or by its copy, to a cellar page: durable once each granule reaches its persistence point. -/
def State.cellarWrite (s : State) (uid copy pa n : Nat) : State :=
  { s with
    cellarLines := (granulesOf pa n).foldl (fun l x => l.insert x) s.cellarLines
    cellarOpen := (granulesOf pa n).foldl (fun l x => List.insert ⟨x, uid, copy, false⟩ l) s.cellarOpen }

/-- Whether every cellar write of a strand, its drained copies included, has reached its persistence point (R27). -/
def State.persisted (s : State) (uid : Nat) : Bool :=
  !(s.cellarOpen.any fun p => p.uid == uid && p.copy == 0 && !p.done)

/-- A .rcv release of a strand completes: its writes are covered, and a 64 KiB granule whose persisted writes are then
all covered goes even (R225). What another device wrote counts as covered once it is persisted (DESIGN CHOICE, log
entry 34). -/
def State.coverCellar (s : State) (uid : Nat) : State :=
  let now (p : CellarWrite) : Bool := (p.uid == uid && p.copy == 0) || 
    (p.uid == 0 && p.copy != 2 && p.done && !(p.copy == 3 && s.poison.contains p.granule))
  let rest := s.cellarOpen.filter fun p => !now p
  let gs := ((s.cellarOpen.filter now).map fun p => p.granule / 1024).eraseDups.filter fun g =>
    !(rest.any fun p => p.granule / 1024 == g && p.done)
  { s with
    cellarOpen := rest
    versions := gs.foldl (fun t g => if tget 0 t g % 2 = 1 then tset t g ((tget 0 t g + 1) % 2 ^ 32) else t) s.versions }

/-- Copies a strand has drained count as its own writes (R277); a copy's mark is its number times 8 with its channel. -/
def State.drainCellar (s : State) (uid ch : Nat) : State :=
  { s with cellarOpen := s.cellarOpen.map fun p =>
      if p.uid = uid ∧ 8 ≤ p.copy ∧ p.copy % 8 = ch then { p with copy := 0 } else p }

/-- A twait makes the writes of earlier tstacc.g words the strand's own (R180, R251); their mark is 1. -/
def State.waitedCellar (s : State) (uid : Nat) : State :=
  { s with cellarOpen := s.cellarOpen.map fun p => if p.uid = uid ∧ p.copy = 1 then { p with copy := 0 } else p }

/-- A poisoned write-back of a granule counts as a persisted write that no release covers (R291), until the checkpoint being
written has ended torn. -/
def State.tornCellar (s : State) (x : Nat) : State :=
  { s with cellarOpen := List.insert ⟨x, 0, 2, true⟩ s.cellarOpen }

/-- A checkpoint that lists some 64 KiB granules has ended torn: a .rcv release covers what tore them once it is rewritten (DESIGN
CHOICE, log entry 34). -/
def State.endTorn (s : State) (gs : List Nat) : State :=
  { s with cellarOpen := s.cellarOpen.map fun p =>
      if p.uid = 0 ∧ p.copy = 2 ∧ gs.contains (p.granule / 1024) then { p with copy := 3 } else p }

/-! ### Writes -/

/-- A write at its point of coherence by a strand or a copy, under a leaf (0: none): bytes, poison, durability (CEL), the
form of its blocks (BALE), the access counted (HEAT), and who waits on the line. -/
def State.perform (s : State) (uid copy leaf key pa n v : Nat) : State :=
  if s.cxlDown pa then s.machineCheck 2 pa
  else
    let s := if 8 ≤ copy then s.heatUp leaf pa else s.l2Fills leaf pa n
    let s := s.writePa key pa n v
    let s := if leaf = 0 then s else s.setForm pa n (bits leaf 6 1 + 4 * bits leaf 7 1)
    let s := if bit leaf 5 then s.cellarWrite uid copy pa n else s
    s.wakeWriters pa n

/-- A strand's own read or write at L2 replaces what its core's L1 holds of the line, which later loads must not find (R270). -/
def State.dropLine (s : State) (c pa : Nat) : State := s.modCore c fun k => { k with l1 := tdel k.l1 (pa / 128) }

end Sys2Proof.Machine
end

