-- ==== Sys2Proof/WellFormed.lean ====
section
/-! DEFINITION. Well-formed instructions: every field fits its bits, and no field holds a value that R61 makes an
illegal instruction from the encoding alone. -/

namespace Sys2Proof

/-- The control-register numbers that R100 assigns. -/
def ctrlAssigned (n : Nat) : Bool :=
  n ≤ 0x00D || (0x010 ≤ n && n ≤ 0x01F) || (0x030 ≤ n && n ≤ 0x037) || (0x040 ≤ n && n ≤ 0x057)

/-- Those of R100 whose access is RW (R101). -/
def ctrlWritable (n : Nat) : Bool :=
  n ≤ 0x003 || (0x007 ≤ n && n ≤ 0x009) || (0x010 ≤ n && n ≤ 0x01F) || (0x040 ≤ n && n ≤ 0x047) ||
    (0x050 ≤ n && n ≤ 0x057)

/-- The counter numbers that R427 assigns. -/
def counterAssigned (n : Nat) : Bool :=
  n ≤ 0x001 || n == 0x010 || n == 0x011 || (0x018 ≤ n && n ≤ 0x022) || (0x028 ≤ n && n ≤ 0x02C) ||
    (0x030 ≤ n && n ≤ 0x03F) || (0x040 ≤ n && n ≤ 0x042)

/-- Well formed: fields in range, and none of the encoding-decided conditions of R61, R67 and the instruction
chapters. An event is always well formed. -/
def Instr.wf (i : Instr) : Bool :=
  match i with
  | .add d a b => decide (d < 32 ∧ a < 32 ∧ b < 32)
  | .sub d a b => decide (d < 32 ∧ a < 32 ∧ b < 32)
  | .and d a b => decide (d < 32 ∧ a < 32 ∧ b < 32)
  | .or d a b => decide (d < 32 ∧ a < 32 ∧ b < 32)
  | .xor d a b => decide (d < 32 ∧ a < 32 ∧ b < 32)
  | .andn d a b => decide (d < 32 ∧ a < 32 ∧ b < 32)
  | .shl d a b => decide (d < 32 ∧ a < 32 ∧ b < 32)
  | .shr d a b => decide (d < 32 ∧ a < 32 ∧ b < 32)
  | .sar d a b => decide (d < 32 ∧ a < 32 ∧ b < 32)
  | .ror d a b => decide (d < 32 ∧ a < 32 ∧ b < 32)
  | .minI64 d a b => decide (d < 32 ∧ a < 32 ∧ b < 32)
  | .minN64 d a b => decide (d < 32 ∧ a < 32 ∧ b < 32)
  | .maxI64 d a b => decide (d < 32 ∧ a < 32 ∧ b < 32)
  | .maxN64 d a b => decide (d < 32 ∧ a < 32 ∧ b < 32)
  | .addsI64 d a b => decide (d < 32 ∧ a < 32 ∧ b < 32)
  | .addsN64 d a b => decide (d < 32 ∧ a < 32 ∧ b < 32)
  | .subsI64 d a b => decide (d < 32 ∧ a < 32 ∧ b < 32)
  | .subsN64 d a b => decide (d < 32 ∧ a < 32 ∧ b < 32)
  | .mul d a b => decide (d < 32 ∧ a < 32 ∧ b < 32)
  | .mulhI64 d a b => decide (d < 32 ∧ a < 32 ∧ b < 32)
  | .mulhN64 d a b => decide (d < 32 ∧ a < 32 ∧ b < 32)
  | .clz d a => decide (d < 32 ∧ a < 32)
  | .ctz d a => decide (d < 32 ∧ a < 32)
  | .popc d a => decide (d < 32 ∧ a < 32)
  | .neg d a => decide (d < 32 ∧ a < 32)
  | .not d a => decide (d < 32 ∧ a < 32)
  | .abs d a => decide (d < 32 ∧ a < 32)
  | .sx8 d a => decide (d < 32 ∧ a < 32)
  | .sx16 d a => decide (d < 32 ∧ a < 32)
  | .sx32 d a => decide (d < 32 ∧ a < 32)
  | .zx8 d a => decide (d < 32 ∧ a < 32)
  | .zx16 d a => decide (d < 32 ∧ a < 32)
  | .zx32 d a => decide (d < 32 ∧ a < 32)
  | .brev d a => decide (d < 32 ∧ a < 32)
  | .bswap d a => decide (d < 32 ∧ a < 32)
  | .divI64 d a b => decide (d < 32 ∧ a < 32 ∧ b < 32)
  | .divN64 d a b => decide (d < 32 ∧ a < 32 ∧ b < 32)
  | .remI64 d a b => decide (d < 32 ∧ a < 32 ∧ b < 32)
  | .remN64 d a b => decide (d < 32 ∧ a < 32 ∧ b < 32)
  | .cmp d a b c => decide (d < 32 ∧ a < 32 ∧ b < 32 ∧ c < 8 ∧ c ≤ 5)
  | .addi d a i => decide (d < 32 ∧ a < 32 ∧ i < 65536)
  | .andi d a i => decide (d < 32 ∧ a < 32 ∧ i < 65536)
  | .ori d a i => decide (d < 32 ∧ a < 32 ∧ i < 65536)
  | .xori d a i => decide (d < 32 ∧ a < 32 ∧ i < 65536)
  | .shli d a n => decide (d < 32 ∧ a < 32 ∧ n < 64)
  | .shri d a n => decide (d < 32 ∧ a < 32 ∧ n < 64)
  | .sari d a n => decide (d < 32 ∧ a < 32 ∧ n < 64)
  | .rori d a n => decide (d < 32 ∧ a < 32 ∧ n < 64)
  | .cmpi d a c i => decide (d < 32 ∧ a < 32 ∧ c < 8 ∧ i < 8192)
  | .movi d i => decide (d < 32 ∧ i < 2097152)
  | .movk d a i => decide (d < 32 ∧ a < 32 ∧ i < 65536)
  | .lea d a i => decide (d < 32 ∧ a < 32 ∧ i < 65536)
  | .bextN64 d a l p => decide (d < 32 ∧ a < 32 ∧ l < 64 ∧ p < 64 ∧ p + l + 1 ≤ 64)
  | .bextI64 d a l p => decide (d < 32 ∧ a < 32 ∧ l < 64 ∧ p < 64 ∧ p + l + 1 ≤ 64)
  | .bins d a l p => decide (d < 32 ∧ a < 32 ∧ l < 64 ∧ p < 64 ∧ p + l + 1 ≤ 64)
  | .crd d n => decide (d < 32 ∧ n < 4096 ∧ ctrlAssigned n)
  | .cwr a n => decide (a < 32 ∧ n < 4096 ∧ ctrlWritable n)
  | .gset a f i => decide (a < 32 ∧ f < 2 ∧ i < 128 ∧ (f = 1 ∨ i ≤ 63))
  | .gget d f i => decide (d < 32 ∧ f < 2 ∧ i < 128 ∧ (f = 1 ∨ i ≤ 63))
  | .ld d a t o => decide (d < 32 ∧ a < 32 ∧ t < 8 ∧ o < 8192 ∧ t ≤ 6)
  | .st d a t o => decide (d < 32 ∧ a < 32 ∧ t < 8 ∧ o < 8192 ∧ t ≤ 6 ∧ t % 2 = 0)
  | .ldx d o => decide (d < 32 ∧ o < 16384 ∧ o % 8 = 0)
  | .stx d o => decide (d < 32 ∧ o < 16384 ∧ o % 8 = 0)
  | .ldAcq d a s z o => decide (d < 32 ∧ a < 32 ∧ s < 8 ∧ z < 2 ∧ o < 2048 ∧ s ≤ 3)
  | .stRel d a s z o => decide (d < 32 ∧ a < 32 ∧ s < 8 ∧ z < 2 ∧ o < 2048 ∧ s ≤ 4)
  | .amoAdd d a b s o z => decide (d < 32 ∧ a < 32 ∧ b < 32 ∧ s < 8 ∧ o < 4 ∧ z < 2 ∧ s ≤ 4 ∧ (o ≠ 0 ∨ s = 0) ∧ (s ≠ 4 ∨ 2 ≤ o))
  | .amoAnd d a b s o z => decide (d < 32 ∧ a < 32 ∧ b < 32 ∧ s < 8 ∧ o < 4 ∧ z < 2 ∧ s ≤ 4 ∧ (o ≠ 0 ∨ s = 0) ∧ (s ≠ 4 ∨ 2 ≤ o))
  | .amoOr d a b s o z => decide (d < 32 ∧ a < 32 ∧ b < 32 ∧ s < 8 ∧ o < 4 ∧ z < 2 ∧ s ≤ 4 ∧ (o ≠ 0 ∨ s = 0) ∧ (s ≠ 4 ∨ 2 ≤ o))
  | .amoXor d a b s o z => decide (d < 32 ∧ a < 32 ∧ b < 32 ∧ s < 8 ∧ o < 4 ∧ z < 2 ∧ s ≤ 4 ∧ (o ≠ 0 ∨ s = 0) ∧ (s ≠ 4 ∨ 2 ≤ o))
  | .amoMinI d a b s o z => decide (d < 32 ∧ a < 32 ∧ b < 32 ∧ s < 8 ∧ o < 4 ∧ z < 2 ∧ s ≤ 4 ∧ (o ≠ 0 ∨ s = 0) ∧ (s ≠ 4 ∨ 2 ≤ o))
  | .amoMaxI d a b s o z => decide (d < 32 ∧ a < 32 ∧ b < 32 ∧ s < 8 ∧ o < 4 ∧ z < 2 ∧ s ≤ 4 ∧ (o ≠ 0 ∨ s = 0) ∧ (s ≠ 4 ∨ 2 ≤ o))
  | .amoMinN d a b s o z => decide (d < 32 ∧ a < 32 ∧ b < 32 ∧ s < 8 ∧ o < 4 ∧ z < 2 ∧ s ≤ 4 ∧ (o ≠ 0 ∨ s = 0) ∧ (s ≠ 4 ∨ 2 ≤ o))
  | .amoMaxN d a b s o z => decide (d < 32 ∧ a < 32 ∧ b < 32 ∧ s < 8 ∧ o < 4 ∧ z < 2 ∧ s ≤ 4 ∧ (o ≠ 0 ∨ s = 0) ∧ (s ≠ 4 ∨ 2 ≤ o))
  | .amoSwap d a b s o z => decide (d < 32 ∧ a < 32 ∧ b < 32 ∧ s < 8 ∧ o < 4 ∧ z < 2 ∧ s ≤ 4 ∧ (o ≠ 0 ∨ s = 0) ∧ (s ≠ 4 ∨ 2 ≤ o))
  | .amoFadd d a b s o z => decide (d < 32 ∧ a < 32 ∧ b < 32 ∧ s < 8 ∧ o < 4 ∧ z < 2 ∧ s ≤ 4 ∧ (o ≠ 0 ∨ s = 0) ∧ (s ≠ 4 ∨ 2 ≤ o))
  | .cas d a b s o z => decide (d < 32 ∧ a < 32 ∧ b < 32 ∧ s < 8 ∧ o < 4 ∧ z < 2 ∧ s ≤ 4 ∧ (o ≠ 0 ∨ s = 0) ∧ (s ≠ 4 ∨ 2 ≤ o))
  | .fence d s => decide (d < 32 ∧ s < 8 ∧ s ≤ 4)
  | .fwait a => decide (a < 32)
  | .publish a s => decide (a < 32 ∧ s < 8 ∧ s ≤ 4)
  | .xformSplit d a b f => decide (d < 32 ∧ a < 32 ∧ b < 32 ∧ f < 16 ∧ f ≤ 8)
  | .xformMerge d a b f => decide (d < 32 ∧ a < 32 ∧ b < 32 ∧ f < 16 ∧ (f = 9 ∨ f ≤ 1))
  | .xformConv d a b f g => decide (d < 32 ∧ a < 32 ∧ b < 32 ∧ f < 16 ∧ g < 16 ∧ (f = 9 ∨ f ≤ 3) ∧ (g = 9 ∨ g ≤ 3))
  | .xformZero d b => decide (d < 32 ∧ b < 32)
  | .xformBpack d a b => decide (d < 32 ∧ a < 32 ∧ b < 32)
  | .xformBunpack d a b => decide (d < 32 ∧ a < 32 ∧ b < 32)
  | .phaseStart a n m => decide (a < 32 ∧ n < 16 ∧ m < 16 ∧ n ≤ 8)
  | .ckseal d a n => decide (d < 32 ∧ a < 32 ∧ n < 4)
  | .spawn d a n => decide (d < 32 ∧ a < 32 ∧ n < 64)
  | .suspend s p f => decide (s < 2 ∧ p < 8 ∧ f < 4 ∧ f ≤ 2 ∧ (s = 1 ∨ p = 0))
  | .crewJoin d a => decide (d < 32 ∧ a < 32)
  | .crewInfo d a => decide (d < 32 ∧ a < 32)
  | .wvpin d a => decide (d < 32 ∧ a < 32)
  | .wvpinT d a b => decide (d < 32 ∧ a < 32 ∧ b < 32)
  | .wvget d a => decide (d < 32 ∧ a < 32)
  | .wvgetT d a b => decide (d < 32 ∧ a < 32 ∧ b < 32)
  | .wvrel d a => decide (d < 32 ∧ a < 32)
  | .wvrelT d a b => decide (d < 32 ∧ a < 32 ∧ b < 32)
  | .wvnewStage d a => decide (d < 32 ∧ a < 32)
  | .wvnewPub a => decide (a < 32)
  | .arrive d a b => decide (d < 32 ∧ a < 32 ∧ b < 32)
  | .mwaitN32 d a b => decide (d < 32 ∧ a < 32 ∧ b < 32)
  | .mwaitN64 d a b => decide (d < 32 ∧ a < 32 ∧ b < 32)
  | .gtrig d a b => decide (d < 32 ∧ a < 32 ∧ b < 32)
  | .barInit a b => decide (a < 32 ∧ b < 32)
  | .barExpect a b => decide (a < 32 ∧ b < 32)
  | .barArrive d a b => decide (d < 32 ∧ a < 32 ∧ b < 32)
  | .barWait d a b => decide (d < 32 ∧ a < 32 ∧ b < 32)
  | .barTest d a b => decide (d < 32 ∧ a < 32 ∧ b < 32)
  | .rdcnt d n => decide (d < 32 ∧ n < 4096 ∧ counterAssigned n)
  | .rbeg l => decide (l < 64)
  | .chkt a b => decide (a < 32 ∧ b < 32)
  | .dormArm d a => decide (d < 32 ∧ a < 32)
  | .dormDisarm d a => decide (d < 32 ∧ a < 32)
  | .dormCount d => decide (d < 32)
  | .vfadd d a b => decide (d < 32 ∧ a < 32 ∧ b < 32 ∧ d ≤ 30)
  | .vfsub d a b => decide (d < 32 ∧ a < 32 ∧ b < 32 ∧ d ≤ 30)
  | .vfmul d a b => decide (d < 32 ∧ a < 32 ∧ b < 32 ∧ d ≤ 30)
  | .vfmin d a b => decide (d < 32 ∧ a < 32 ∧ b < 32 ∧ d ≤ 30)
  | .vfmax d a b => decide (d < 32 ∧ a < 32 ∧ b < 32 ∧ d ≤ 30)
  | .vfsgn d a b => decide (d < 32 ∧ a < 32 ∧ b < 32 ∧ d ≤ 30)
  | .vfma d a b c => decide (d < 32 ∧ a < 32 ∧ b < 32 ∧ c < 32 ∧ d ≤ 30)
  | .vfms d a b c => decide (d < 32 ∧ a < 32 ∧ b < 32 ∧ c < 32 ∧ d ≤ 30)
  | .vnfma d a b c => decide (d < 32 ∧ a < 32 ∧ b < 32 ∧ c < 32 ∧ d ≤ 30)
  | .vnfms d a b c => decide (d < 32 ∧ a < 32 ∧ b < 32 ∧ c < 32 ∧ d ≤ 30)
  | .viadd d a b => decide (d < 32 ∧ a < 32 ∧ b < 32 ∧ d ≤ 30)
  | .visub d a b => decide (d < 32 ∧ a < 32 ∧ b < 32 ∧ d ≤ 30)
  | .vimul d a b => decide (d < 32 ∧ a < 32 ∧ b < 32 ∧ d ≤ 30)
  | .vimulh d a b => decide (d < 32 ∧ a < 32 ∧ b < 32 ∧ d ≤ 30)
  | .vand d a b => decide (d < 32 ∧ a < 32 ∧ b < 32 ∧ d ≤ 30)
  | .vor d a b => decide (d < 32 ∧ a < 32 ∧ b < 32 ∧ d ≤ 30)
  | .vxor d a b => decide (d < 32 ∧ a < 32 ∧ b < 32 ∧ d ≤ 30)
  | .vandn d a b => decide (d < 32 ∧ a < 32 ∧ b < 32 ∧ d ≤ 30)
  | .vshl d a b => decide (d < 32 ∧ a < 32 ∧ b < 32 ∧ d ≤ 30)
  | .vshr d a b => decide (d < 32 ∧ a < 32 ∧ b < 32 ∧ d ≤ 30)
  | .vsar d a b => decide (d < 32 ∧ a < 32 ∧ b < 32 ∧ d ≤ 30)
  | .vimin d a b => decide (d < 32 ∧ a < 32 ∧ b < 32 ∧ d ≤ 30)
  | .vimax d a b => decide (d < 32 ∧ a < 32 ∧ b < 32 ∧ d ≤ 30)
  | .viadds d a b => decide (d < 32 ∧ a < 32 ∧ b < 32 ∧ d ≤ 30)
  | .visubs d a b => decide (d < 32 ∧ a < 32 ∧ b < 32 ∧ d ≤ 30)
  | .viabs d a => decide (d < 32 ∧ a < 32 ∧ d ≤ 30)
  | .vineg d a => decide (d < 32 ∧ a < 32 ∧ d ≤ 30)
  | .vcmp d a b k => decide (d < 32 ∧ a < 32 ∧ b < 32 ∧ k < 8 ∧ d ≤ 30 ∧ k ≤ 6)
  | .vcmpm a b k => decide (a < 32 ∧ b < 32 ∧ k < 8 ∧ k ≤ 6)
  | .vsel d a b c => decide (d < 32 ∧ a < 32 ∧ b < 32 ∧ c < 32 ∧ d ≤ 30)
  | .vsels d a b c => decide (d < 32 ∧ a < 32 ∧ b < 32 ∧ c < 32 ∧ d ≤ 30)
  | .vcvt d a p s => decide (d < 32 ∧ a < 32 ∧ p < 4 ∧ s < 16 ∧ d ≤ 30 ∧ s ≤ 13)
  | .vcvtTote d a m => decide (d < 32 ∧ a < 32 ∧ m < 32 ∧ d ≤ 30 ∧ 2 ≤ m ∧ m ≤ 24)
  | .vcvtFrte d a m => decide (d < 32 ∧ a < 32 ∧ m < 32 ∧ d ≤ 30 ∧ 2 ≤ m ∧ m ≤ 24)
  | .vfabs d a => decide (d < 32 ∧ a < 32 ∧ d ≤ 30)
  | .vfneg d a => decide (d < 32 ∧ a < 32 ∧ d ≤ 30)
  | .vsqrt d a => decide (d < 32 ∧ a < 32 ∧ d ≤ 30)
  | .vrcp d a => decide (d < 32 ∧ a < 32 ∧ d ≤ 30)
  | .vrsqrt d a => decide (d < 32 ∧ a < 32 ∧ d ≤ 30)
  | .vexp2 d a => decide (d < 32 ∧ a < 32 ∧ d ≤ 30)
  | .vexp d a => decide (d < 32 ∧ a < 32 ∧ d ≤ 30)
  | .vlog2 d a => decide (d < 32 ∧ a < 32 ∧ d ≤ 30)
  | .vtanh d a => decide (d < 32 ∧ a < 32 ∧ d ≤ 30)
  | .vsigm d a => decide (d < 32 ∧ a < 32 ∧ d ≤ 30)
  | .vperm d a b => decide (d < 32 ∧ a < 32 ∧ b < 32 ∧ d ≤ 30)
  | .vperm2 d a b c => decide (d < 32 ∧ a < 32 ∧ b < 32 ∧ c < 32 ∧ d ≤ 30)
  | .vzipl d a b => decide (d < 32 ∧ a < 32 ∧ b < 32 ∧ d ≤ 30)
  | .vziph d a b => decide (d < 32 ∧ a < 32 ∧ b < 32 ∧ d ≤ 30)
  | .vunze d a b => decide (d < 32 ∧ a < 32 ∧ b < 32 ∧ d ≤ 30)
  | .vunzo d a b => decide (d < 32 ∧ a < 32 ∧ b < 32 ∧ d ≤ 30)
  | .vrot d a n => decide (d < 32 ∧ a < 32 ∧ n < 64 ∧ d ≤ 30)
  | .vshd d a n => decide (d < 32 ∧ a < 32 ∧ n < 64 ∧ d ≤ 30)
  | .vcat d a b n => decide (d < 32 ∧ a < 32 ∧ b < 32 ∧ n < 64 ∧ d ≤ 30)
  | .vredadd d a => decide (d < 32 ∧ a < 32 ∧ d ≤ 30)
  | .vredmin d a => decide (d < 32 ∧ a < 32 ∧ d ≤ 30)
  | .vredmax d a => decide (d < 32 ∧ a < 32 ∧ d ≤ 30)
  | .vredand d a => decide (d < 32 ∧ a < 32 ∧ d ≤ 30)
  | .vredor d a => decide (d < 32 ∧ a < 32 ∧ d ≤ 30)
  | .vredxor d a => decide (d < 32 ∧ a < 32 ∧ d ≤ 30)
  | .vscanadd d a => decide (d < 32 ∧ a < 32 ∧ d ≤ 30)
  | .vscanmin d a => decide (d < 32 ∧ a < 32 ∧ d ≤ 30)
  | .vscanmax d a => decide (d < 32 ∧ a < 32 ∧ d ≤ 30)
  | .vscanxadd d a => decide (d < 32 ∧ a < 32 ∧ d ≤ 30)
  | .vscanxmin d a => decide (d < 32 ∧ a < 32 ∧ d ≤ 30)
  | .vscanxmax d a => decide (d < 32 ∧ a < 32 ∧ d ≤ 30)
  | .vcomp d a => decide (d < 32 ∧ a < 32 ∧ d ≤ 30)
  | .vexpd d a => decide (d < 32 ∧ a < 32 ∧ d ≤ 30)
  | .vm2v d => decide (d < 32 ∧ d ≤ 30)
  | .vnzm a => decide (a < 32)
  | .vmovi d i => decide (d < 32 ∧ i < 1048576 ∧ d ≤ 30)
  | .vmovih d i => decide (d < 32 ∧ i < 1048576 ∧ d ≤ 30)
  | .vext d a l => decide (d < 32 ∧ a < 32 ∧ l < 64)
  | .vexts d a l => decide (d < 32 ∧ a < 32 ∧ l < 64)
  | .vext64 d a l => decide (d < 32 ∧ a < 32 ∧ l < 64 ∧ l % 2 = 0)
  | .vaccr d b q u => decide (d < 32 ∧ b < 32 ∧ q < 4 ∧ u < 4 ∧ d ≤ 30 ∧ q ≤ 1)
  | .vaccw a b q u => decide (a < 32 ∧ b < 32 ∧ q < 4 ∧ u < 4 ∧ q ≤ 1)
  | .vaccrF64 d b q u => decide (d < 32 ∧ b < 32 ∧ q < 4 ∧ u < 4 ∧ d ≤ 30 ∧ u % 2 = 0)
  | .vaccwF64 a b q u => decide (a < 32 ∧ b < 32 ∧ q < 4 ∧ u < 4 ∧ u % 2 = 0)
  | .vld d a m => decide (d < 32 ∧ a < 32 ∧ m < 4 ∧ d ≤ 30 ∧ m ≤ 2)
  | .vst a c m => decide (a < 32 ∧ c < 32 ∧ m < 4 ∧ m ≤ 2)
  | .vgat d a b => decide (d < 32 ∧ a < 32 ∧ b < 32 ∧ d ≤ 30)
  | .vscat a b c => decide (a < 32 ∧ b < 32 ∧ c < 32)
  | .vqh d k => decide (d < 32 ∧ k < 8 ∧ d ≤ 30)
  | .vchk a b => decide (a < 32 ∧ b < 32)
  | .tmm g x y => decide (g < 16 ∧ x < 32 ∧ y < 32)
  | .tmmt g x y => decide (g < 16 ∧ x < 32 ∧ y < 32)
  | .tlx g x y => decide (g < 16 ∧ x < 32 ∧ y < 32)
  | .tlxT g x y => decide (g < 16 ∧ x < 32 ∧ y < 32)
  | .tlxX g x y => decide (g < 16 ∧ x < 32 ∧ y < 32)
  | .tlxTx g x y => decide (g < 16 ∧ x < 32 ∧ y < 32)
  | .tla g x y => decide (g < 16 ∧ x < 32 ∧ y < 32)
  | .tlaT g x y => decide (g < 16 ∧ x < 32 ∧ y < 32)
  | .tproj g x y => decide (g < 16 ∧ x < 32 ∧ y < 32)
  | .tlplE g x y => decide (g < 16 ∧ x < 32 ∧ y < 32)
  | .tlplA g x y => decide (g < 16 ∧ x < 32 ∧ y < 32)
  | .tlplEa g x y => decide (g < 16 ∧ x < 32 ∧ y < 32)
  | .tzero m => decide (m < 16 ∧ m ≠ 0)
  | .tldacc f x y u => decide (f < 16 ∧ x < 32 ∧ y < 32 ∧ u < 4 ∧ f ≤ 3)
  | .tstacc f x y u => decide (f < 16 ∧ x < 32 ∧ y < 32 ∧ u < 4 ∧ f ≤ 6)
  | .tstaccG f x y u => decide (f < 16 ∧ x < 32 ∧ y < 32 ∧ u < 4 ∧ f ≤ 6)
  | .tscale x y m => decide (x < 32 ∧ y < 32 ∧ m < 16 ∧ m ≠ 0)
  | .cpy c g x y f => decide (c < 8 ∧ g < 32 ∧ x < 32 ∧ y < 32 ∧ f < 64 ∧ (f / 4 % 2 = 0 ∨ g ≠ 31))
  | .cpym c g x y m f => decide (c < 8 ∧ g < 32 ∧ x < 32 ∧ y < 32 ∧ m < 4 ∧ f < 8 ∧ (f / 4 % 2 = 0 ∨ g ≠ 31))
  | .rdx c g x y m f => decide (c < 8 ∧ g < 32 ∧ x < 32 ∧ y < 32 ∧ m < 4 ∧ f < 8 ∧ (f / 4 % 2 = 0 ∨ g ≠ 31))
  | .drain c => decide (c < 8)
  | .qpush k x y => decide (k < 8 ∧ x < 32 ∧ y < 32)
  | .stash c g x y => decide (c < 8 ∧ g < 32 ∧ x < 32 ∧ y < 32)
  | .unstash c g x y f => decide (c < 8 ∧ g < 32 ∧ x < 32 ∧ y < 32 ∧ f < 8 ∧ (f / 4 % 2 = 0 ∨ g ≠ 31))
  | .sdrop c y => decide (c < 8 ∧ y < 32)
  | .chsend c g x y => decide (c < 8 ∧ g < 32 ∧ x < 32 ∧ y < 32)
  | .chack c y => decide (c < 8 ∧ y < 32)
  | .glean c g x y => decide (c < 8 ∧ g < 32 ∧ x < 32 ∧ y < 32)
  | .br c a o => decide (c < 16 ∧ a < 32 ∧ o < 131072 ∧ c ≤ 6 ∧ (c ≠ 0 ∨ a = 0))
  | .call o => decide (o < 131072)
  | .jr a => decide (a < 32)
  | .jrl a => decide (a < 32)
  | .loopEnter a o => decide (a < 32 ∧ o < 131072 ∧ 1 ≤ o ∧ o < 65536)
  | .loop a o => decide (a < 32 ∧ o < 131072 ∧ (o = 0 ∨ 65536 ≤ o))
  | .mpush a => decide (a < 32)
  | .mpushRaw a => decide (a < 32)
  | .mpop n => decide (n < 16)
  | .bnone o => decide (o < 131072)
  | .fmtw a => decide (a < 32)
  | .fmtwVty v => decide (v < 16 ∧ v ≤ 13)
  | .fmtwMab b a => decide (b < 64 ∧ a < 64)
  | .fmtwRnd i s r => decide (i < 8 ∧ s < 2 ∧ r < 8 ∧ r ≤ 4)
  | .trap c a k => decide (c < 16 ∧ a < 32 ∧ k < 131072 ∧ c ≤ 6 ∧ (c ≠ 0 ∨ a = 0))
  | .sysc k => decide (k < 131072)
  | .ebrk k => decide (k < 131072)
  | .halt k => decide (k < 131072)
  | .nopS => true
  | .phaseCommitCore => true
  | .phaseCommitClu => true
  | .phaseCommitDev => true
  | .phaseCommitSys => true
  | .phaseCommitRcv => true
  | .phaseAbort => true
  | .exit => true
  | .crewLeave => true
  | .rcom => true
  | .nopV => true
  | .nopM => true
  | .twait => true
  | .nopC => true
  | .nopX => true
  | .minv => true
  | .fmtwBlk00 => true
  | .fmtwBlk01 => true
  | .fmtwBlk10 => true
  | .fmtwBlk11 => true
  | .yield => true
  | .bundleIssue => true
  | .bundleCommit => true
  | .resultLanding => true
  | .globalLoadReturn => true
  | .phaseReissue => true
  | .walkComplete => true
  | .killComplete => true
  | .contextLeave => true
  | .preemptionSwitch => true
  | .dispatch => true
  | .readyEntryAging => true
  | .arrivalPost => true
  | .arrivalQueueAging => true
  | .squareZeroingComplete => true
  | .trig => true
  | .replayStart => true
  | .prefetchComplete => true
  | .granaryRequest => true
  | .killreq => true
  | .schedulerMemoryWrite => true
  | .ringBlockWrite => true
  | .splitChange => true
  | .tlbInvalidate => true
  | .invalidationComplete => true
  | .rtload => true
  | .routeTableSwitch => true
  | .migcmd => true
  | .migrationMoveComplete => true
  | .migrationReport => true
  | .memoryControllerAccess => true
  | .heatDecay => true
  | .clrq => true
  | .keyLoad => true
  | .attestation => true
  | .firmwareUpdate => true
  | .granuleRetire => true
  | .hostApertureRead => true
  | .hostApertureWrite => true
  | .intstatClear => true
  | .registerWindowWrite => true
  | .parkTimeout => true
  | .contextWake => true
  | .spinPark => true
  | .remoteTimeout => true
  | .packetHop => true
  | .ownerRequest => true
  | .remoteReply => true
  | .storeAck => true
  | .publishFlip => true
  | .tcBlockLand => true
  | .tcCreditReturn => true
  | .recipientAck => true
  | .copySegment => true
  | .copyComplete => true
  | .handlerStart => true
  | .chainedWordPlace => true
  | .chainedWordAccept => true
  | .mtWordStart => true
  | .sequencerStep => true
  | .mtWordComplete => true
  | .xformComplete => true
  | .releasePerformed => true
  | .fwaitComplete => true
  | .cksealComplete => true
  | .cellarPersist => true
  | .l2Eviction => true
  | .containmentEvent => true
  | .replayFromSeal => true
  | .deviceReset => true
  | .ioDieReset => true
  | .powerOn => true
  | .reducedServiceEnd => true
  | .thermalContainment => true
  | .thermalRelease => true
  | .throttleDown => true
  | .throttleStepUp => true
  | .linkDown => true
  | .flitReceive => true
  | .linkRetrain => true
  | .linkStateFrame => true
  | .linkTrainingAttempt => true
  | .linkRetryTimer => true
  | .linkQuarantine => true
  | .cxlPortDown => true
  | .gleanerFrame => true
  | .gleanerResend => true
  | .gleanerRingFailure => true
  | .patrolScrub => true
  | .rptFirmwareWrite => true
  | .linkBindingWrite => true
  | .powerLoss => true
  | .hbmStackTrained => true
  | .ethernetPortStateChange => true
  | .gleanerRequest => true
  | .publishStatusReturn => true

end Sys2Proof
end

