-- ==== Sys2Proof/Decode.lean ====
section
/-! DEFINITION. The decoder of slot words (R60 to R68), total on every word, and the encoder, both from the
encoding tables of the manual. A word that no form takes, or a form's word with a value its rule forbids, is rejected. -/

namespace Sys2Proof

/-- Bits lo + n − 1 : lo of a word (R8). -/
def fld (w lo n : Nat) : Nat := w / 2 ^ lo % 2 ^ n

/-- A decoded form is accepted when it is well formed. -/
def accept (i : Instr) : Option Instr := if i.wf then some i else none

/-- Major opcode 1 of the S map (SA, SB). -/
def decodeS1 (w : Nat) : Option Instr :=
  if fld w 0 11 = 0 then accept (Instr.add (fld w 21 5) (fld w 16 5) (fld w 11 5))
  else if fld w 0 11 = 1 then accept (Instr.sub (fld w 21 5) (fld w 16 5) (fld w 11 5))
  else if fld w 0 11 = 2 then accept (Instr.and (fld w 21 5) (fld w 16 5) (fld w 11 5))
  else if fld w 0 11 = 3 then accept (Instr.or (fld w 21 5) (fld w 16 5) (fld w 11 5))
  else if fld w 0 11 = 4 then accept (Instr.xor (fld w 21 5) (fld w 16 5) (fld w 11 5))
  else if fld w 0 11 = 5 then accept (Instr.andn (fld w 21 5) (fld w 16 5) (fld w 11 5))
  else if fld w 0 11 = 6 then accept (Instr.shl (fld w 21 5) (fld w 16 5) (fld w 11 5))
  else if fld w 0 11 = 7 then accept (Instr.shr (fld w 21 5) (fld w 16 5) (fld w 11 5))
  else if fld w 0 11 = 8 then accept (Instr.sar (fld w 21 5) (fld w 16 5) (fld w 11 5))
  else if fld w 0 11 = 9 then accept (Instr.ror (fld w 21 5) (fld w 16 5) (fld w 11 5))
  else if fld w 0 11 = 10 then accept (Instr.minI64 (fld w 21 5) (fld w 16 5) (fld w 11 5))
  else if fld w 0 11 = 11 then accept (Instr.minN64 (fld w 21 5) (fld w 16 5) (fld w 11 5))
  else if fld w 0 11 = 12 then accept (Instr.maxI64 (fld w 21 5) (fld w 16 5) (fld w 11 5))
  else if fld w 0 11 = 13 then accept (Instr.maxN64 (fld w 21 5) (fld w 16 5) (fld w 11 5))
  else if fld w 0 11 = 14 then accept (Instr.addsI64 (fld w 21 5) (fld w 16 5) (fld w 11 5))
  else if fld w 0 11 = 15 then accept (Instr.addsN64 (fld w 21 5) (fld w 16 5) (fld w 11 5))
  else if fld w 0 11 = 16 then accept (Instr.subsI64 (fld w 21 5) (fld w 16 5) (fld w 11 5))
  else if fld w 0 11 = 17 then accept (Instr.subsN64 (fld w 21 5) (fld w 16 5) (fld w 11 5))
  else if fld w 0 11 = 18 then accept (Instr.mul (fld w 21 5) (fld w 16 5) (fld w 11 5))
  else if fld w 0 11 = 19 then accept (Instr.mulhI64 (fld w 21 5) (fld w 16 5) (fld w 11 5))
  else if fld w 0 11 = 20 then accept (Instr.mulhN64 (fld w 21 5) (fld w 16 5) (fld w 11 5)) else none

/-- Major opcode 2 of the S map (SA, SB). -/
def decodeS2 (w : Nat) : Option Instr :=
  if fld w 0 16 = 0 then accept (Instr.clz (fld w 21 5) (fld w 16 5))
  else if fld w 0 16 = 1 then accept (Instr.ctz (fld w 21 5) (fld w 16 5))
  else if fld w 0 16 = 2 then accept (Instr.popc (fld w 21 5) (fld w 16 5))
  else if fld w 0 16 = 3 then accept (Instr.neg (fld w 21 5) (fld w 16 5))
  else if fld w 0 16 = 4 then accept (Instr.not (fld w 21 5) (fld w 16 5))
  else if fld w 0 16 = 5 then accept (Instr.abs (fld w 21 5) (fld w 16 5))
  else if fld w 0 16 = 6 then accept (Instr.sx8 (fld w 21 5) (fld w 16 5))
  else if fld w 0 16 = 7 then accept (Instr.sx16 (fld w 21 5) (fld w 16 5))
  else if fld w 0 16 = 8 then accept (Instr.sx32 (fld w 21 5) (fld w 16 5))
  else if fld w 0 16 = 9 then accept (Instr.zx8 (fld w 21 5) (fld w 16 5))
  else if fld w 0 16 = 10 then accept (Instr.zx16 (fld w 21 5) (fld w 16 5))
  else if fld w 0 16 = 11 then accept (Instr.zx32 (fld w 21 5) (fld w 16 5))
  else if fld w 0 16 = 12 then accept (Instr.brev (fld w 21 5) (fld w 16 5))
  else if fld w 0 16 = 13 then accept (Instr.bswap (fld w 21 5) (fld w 16 5)) else none

/-- Major opcode 3 of the S map (SA, SB). -/
def decodeS3 (w : Nat) : Option Instr :=
  if fld w 0 11 = 0 then accept (Instr.divI64 (fld w 21 5) (fld w 16 5) (fld w 11 5))
  else if fld w 0 11 = 1 then accept (Instr.divN64 (fld w 21 5) (fld w 16 5) (fld w 11 5))
  else if fld w 0 11 = 2 then accept (Instr.remI64 (fld w 21 5) (fld w 16 5) (fld w 11 5))
  else if fld w 0 11 = 3 then accept (Instr.remN64 (fld w 21 5) (fld w 16 5) (fld w 11 5)) else none

/-- Major opcode 4 of the S map (SA, SB). -/
def decodeS4 (w : Nat) : Option Instr :=
  if fld w 3 8 = 0 then accept (Instr.cmp (fld w 21 5) (fld w 16 5) (fld w 11 5) (fld w 0 3)) else none

/-- Major opcode 5 of the S map (SA, SB). -/
def decodeS5 (w : Nat) : Option Instr :=
  accept (Instr.addi (fld w 21 5) (fld w 16 5) (fld w 0 16))

/-- Major opcode 6 of the S map (SA, SB). -/
def decodeS6 (w : Nat) : Option Instr :=
  accept (Instr.andi (fld w 21 5) (fld w 16 5) (fld w 0 16))

/-- Major opcode 7 of the S map (SA, SB). -/
def decodeS7 (w : Nat) : Option Instr :=
  accept (Instr.ori (fld w 21 5) (fld w 16 5) (fld w 0 16))

/-- Major opcode 8 of the S map (SA, SB). -/
def decodeS8 (w : Nat) : Option Instr :=
  accept (Instr.xori (fld w 21 5) (fld w 16 5) (fld w 0 16))

/-- Major opcode 9 of the S map (SA, SB). -/
def decodeS9 (w : Nat) : Option Instr :=
  if fld w 6 10 = 0 then accept (Instr.shli (fld w 21 5) (fld w 16 5) (fld w 0 6))
  else if fld w 6 10 = 1 then accept (Instr.shri (fld w 21 5) (fld w 16 5) (fld w 0 6))
  else if fld w 6 10 = 2 then accept (Instr.sari (fld w 21 5) (fld w 16 5) (fld w 0 6))
  else if fld w 6 10 = 3 then accept (Instr.rori (fld w 21 5) (fld w 16 5) (fld w 0 6)) else none

/-- Major opcode 10 of the S map (SA, SB). -/
def decodeS10 (w : Nat) : Option Instr :=
  accept (Instr.cmpi (fld w 21 5) (fld w 16 5) (fld w 13 3) (fld w 0 13))

/-- Major opcode 11 of the S map (SA, SB). -/
def decodeS11 (w : Nat) : Option Instr :=
  accept (Instr.movi (fld w 21 5) (fld w 0 21))

/-- Major opcode 12 of the S map (SA, SB). -/
def decodeS12 (w : Nat) : Option Instr :=
  accept (Instr.movk (fld w 21 5) (fld w 16 5) (fld w 0 16))

/-- Major opcode 13 of the S map (SA, SB). -/
def decodeS13 (w : Nat) : Option Instr :=
  accept (Instr.lea (fld w 21 5) (fld w 16 5) (fld w 0 16))

/-- Major opcode 14 of the S map (SA, SB). -/
def decodeS14 (w : Nat) : Option Instr :=
  if fld w 12 4 = 0 then accept (Instr.bextN64 (fld w 21 5) (fld w 16 5) (fld w 6 6) (fld w 0 6))
  else if fld w 12 4 = 1 then accept (Instr.bextI64 (fld w 21 5) (fld w 16 5) (fld w 6 6) (fld w 0 6)) else none

/-- Major opcode 15 of the S map (SA, SB). -/
def decodeS15 (w : Nat) : Option Instr :=
  if fld w 12 4 = 0 then accept (Instr.bins (fld w 21 5) (fld w 16 5) (fld w 6 6) (fld w 0 6)) else none

/-- Major opcode 16 of the S map (SA, SB). -/
def decodeS16 (w : Nat) : Option Instr :=
  if fld w 12 9 = 0 then accept (Instr.crd (fld w 21 5) (fld w 0 12)) else none

/-- Major opcode 17 of the S map (SA, SB). -/
def decodeS17 (w : Nat) : Option Instr :=
  if fld w 12 4 = 0 ∧ fld w 21 5 = 0 then accept (Instr.cwr (fld w 16 5) (fld w 0 12)) else none

/-- Major opcode 18 of the S map (SA, SB). -/
def decodeS18 (w : Nat) : Option Instr :=
  if fld w 8 8 = 0 ∧ fld w 21 5 = 0 then accept (Instr.gset (fld w 16 5) (fld w 7 1) (fld w 0 7)) else none

/-- Major opcode 19 of the S map (SA, SB). -/
def decodeS19 (w : Nat) : Option Instr :=
  if fld w 8 13 = 0 then accept (Instr.gget (fld w 21 5) (fld w 7 1) (fld w 0 7)) else none

/-- Major opcode 20 of the S map (SA, SB). -/
def decodeS20 (w : Nat) : Option Instr :=
  accept (Instr.ld (fld w 21 5) (fld w 16 5) (fld w 13 3) (fld w 0 13))

/-- Major opcode 21 of the S map (SA, SB). -/
def decodeS21 (w : Nat) : Option Instr :=
  accept (Instr.st (fld w 21 5) (fld w 16 5) (fld w 13 3) (fld w 0 13))

/-- Major opcode 22 of the S map (SA, SB). -/
def decodeS22 (w : Nat) : Option Instr :=
  if fld w 14 7 = 0 then accept (Instr.ldx (fld w 21 5) (fld w 0 14))
  else if fld w 14 7 = 2 then accept (Instr.stx (fld w 21 5) (fld w 0 14)) else none

/-- Major opcode 23 of the S map (SA, SB). -/
def decodeS23 (w : Nat) : Option Instr :=
  if fld w 15 1 = 0 then accept (Instr.ldAcq (fld w 21 5) (fld w 16 5) (fld w 12 3) (fld w 11 1) (fld w 0 11))
  else if fld w 15 1 = 1 then accept (Instr.stRel (fld w 21 5) (fld w 16 5) (fld w 12 3) (fld w 11 1) (fld w 0 11)) else none

/-- Major opcode 24 of the S map (SA, SB). -/
def decodeS24 (w : Nat) : Option Instr :=
  if fld w 0 4 = 0 ∧ fld w 10 1 = 0 then accept (Instr.amoAdd (fld w 21 5) (fld w 16 5) (fld w 11 5) (fld w 7 3) (fld w 5 2) (fld w 4 1))
  else if fld w 0 4 = 1 ∧ fld w 10 1 = 0 then accept (Instr.amoAnd (fld w 21 5) (fld w 16 5) (fld w 11 5) (fld w 7 3) (fld w 5 2) (fld w 4 1))
  else if fld w 0 4 = 2 ∧ fld w 10 1 = 0 then accept (Instr.amoOr (fld w 21 5) (fld w 16 5) (fld w 11 5) (fld w 7 3) (fld w 5 2) (fld w 4 1))
  else if fld w 0 4 = 3 ∧ fld w 10 1 = 0 then accept (Instr.amoXor (fld w 21 5) (fld w 16 5) (fld w 11 5) (fld w 7 3) (fld w 5 2) (fld w 4 1))
  else if fld w 0 4 = 4 ∧ fld w 10 1 = 0 then accept (Instr.amoMinI (fld w 21 5) (fld w 16 5) (fld w 11 5) (fld w 7 3) (fld w 5 2) (fld w 4 1))
  else if fld w 0 4 = 5 ∧ fld w 10 1 = 0 then accept (Instr.amoMaxI (fld w 21 5) (fld w 16 5) (fld w 11 5) (fld w 7 3) (fld w 5 2) (fld w 4 1))
  else if fld w 0 4 = 6 ∧ fld w 10 1 = 0 then accept (Instr.amoMinN (fld w 21 5) (fld w 16 5) (fld w 11 5) (fld w 7 3) (fld w 5 2) (fld w 4 1))
  else if fld w 0 4 = 7 ∧ fld w 10 1 = 0 then accept (Instr.amoMaxN (fld w 21 5) (fld w 16 5) (fld w 11 5) (fld w 7 3) (fld w 5 2) (fld w 4 1))
  else if fld w 0 4 = 8 ∧ fld w 10 1 = 0 then accept (Instr.amoSwap (fld w 21 5) (fld w 16 5) (fld w 11 5) (fld w 7 3) (fld w 5 2) (fld w 4 1))
  else if fld w 0 4 = 9 ∧ fld w 10 1 = 0 then accept (Instr.amoFadd (fld w 21 5) (fld w 16 5) (fld w 11 5) (fld w 7 3) (fld w 5 2) (fld w 4 1)) else none

/-- Major opcode 25 of the S map (SA, SB). -/
def decodeS25 (w : Nat) : Option Instr :=
  if fld w 0 4 = 0 ∧ fld w 10 1 = 0 then accept (Instr.cas (fld w 21 5) (fld w 16 5) (fld w 11 5) (fld w 7 3) (fld w 5 2) (fld w 4 1)) else none

/-- Major opcode 26 of the S map (SA, SB). -/
def decodeS26 (w : Nat) : Option Instr :=
  if fld w 3 18 = 0 then accept (Instr.fence (fld w 21 5) (fld w 0 3)) else none

/-- Major opcode 27 of the S map (SA, SB). -/
def decodeS27 (w : Nat) : Option Instr :=
  if fld w 0 16 = 0 ∧ fld w 21 5 = 0 then accept (Instr.fwait (fld w 16 5)) else none

/-- Major opcode 28 of the S map (SA, SB). -/
def decodeS28 (w : Nat) : Option Instr :=
  if fld w 3 13 = 0 ∧ fld w 21 5 = 0 then accept (Instr.publish (fld w 16 5) (fld w 0 3)) else none

/-- Major opcode 29 of the S map (SA, SB). -/
def decodeS29 (w : Nat) : Option Instr :=
  if fld w 0 4 = 0 ∧ fld w 8 3 = 0 then accept (Instr.xformSplit (fld w 21 5) (fld w 16 5) (fld w 11 5) (fld w 4 4))
  else if fld w 0 4 = 0 ∧ fld w 8 3 = 1 then accept (Instr.xformMerge (fld w 21 5) (fld w 16 5) (fld w 11 5) (fld w 4 4))
  else if fld w 8 3 = 2 then accept (Instr.xformConv (fld w 21 5) (fld w 16 5) (fld w 11 5) (fld w 4 4) (fld w 0 4))
  else if fld w 0 11 = 768 ∧ fld w 16 5 = 0 then accept (Instr.xformZero (fld w 21 5) (fld w 11 5))
  else if fld w 0 11 = 1024 then accept (Instr.xformBpack (fld w 21 5) (fld w 16 5) (fld w 11 5))
  else if fld w 0 11 = 1280 then accept (Instr.xformBunpack (fld w 21 5) (fld w 16 5) (fld w 11 5)) else none

/-- Major opcode 30 of the S map (SA, SB). -/
def decodeS30 (w : Nat) : Option Instr :=
  if fld w 8 8 = 0 ∧ fld w 21 5 = 0 then accept (Instr.phaseStart (fld w 16 5) (fld w 4 4) (fld w 0 4))
  else if fld w 0 26 = 16384 then accept (Instr.phaseCommitCore)
  else if fld w 0 26 = 16385 then accept (Instr.phaseCommitClu)
  else if fld w 0 26 = 16386 then accept (Instr.phaseCommitDev)
  else if fld w 0 26 = 16387 then accept (Instr.phaseCommitSys)
  else if fld w 0 26 = 16388 then accept (Instr.phaseCommitRcv)
  else if fld w 0 26 = 32768 then accept (Instr.phaseAbort) else none

/-- Major opcode 31 of the S map (SA, SB). -/
def decodeS31 (w : Nat) : Option Instr :=
  if fld w 2 14 = 0 then accept (Instr.ckseal (fld w 21 5) (fld w 16 5) (fld w 0 2)) else none

/-- Major opcode 32 of the S map (SA, SB). -/
def decodeS32 (w : Nat) : Option Instr :=
  if fld w 6 10 = 0 then accept (Instr.spawn (fld w 21 5) (fld w 16 5) (fld w 0 6)) else none

/-- Major opcode 33 of the S map (SA, SB). -/
def decodeS33 (w : Nat) : Option Instr :=
  if fld w 6 20 = 0 then accept (Instr.suspend (fld w 5 1) (fld w 2 3) (fld w 0 2)) else none

/-- Major opcode 34 of the S map (SA, SB). -/
def decodeS34 (w : Nat) : Option Instr :=
  if fld w 0 26 = 0 then accept (Instr.exit) else none

/-- Major opcode 35 of the S map (SA, SB). -/
def decodeS35 (w : Nat) : Option Instr :=
  if fld w 0 16 = 0 then accept (Instr.crewJoin (fld w 21 5) (fld w 16 5))
  else if fld w 0 26 = 1 then accept (Instr.crewLeave)
  else if fld w 0 16 = 2 then accept (Instr.crewInfo (fld w 21 5) (fld w 16 5)) else none

/-- Major opcode 36 of the S map (SA, SB). -/
def decodeS36 (w : Nat) : Option Instr :=
  if fld w 0 16 = 0 then accept (Instr.wvpin (fld w 21 5) (fld w 16 5))
  else if fld w 0 11 = 8 then accept (Instr.wvpinT (fld w 21 5) (fld w 16 5) (fld w 11 5))
  else if fld w 0 16 = 1 then accept (Instr.wvget (fld w 21 5) (fld w 16 5))
  else if fld w 0 11 = 9 then accept (Instr.wvgetT (fld w 21 5) (fld w 16 5) (fld w 11 5))
  else if fld w 0 16 = 2 then accept (Instr.wvrel (fld w 21 5) (fld w 16 5))
  else if fld w 0 11 = 10 then accept (Instr.wvrelT (fld w 21 5) (fld w 16 5) (fld w 11 5))
  else if fld w 0 16 = 3 then accept (Instr.wvnewStage (fld w 21 5) (fld w 16 5))
  else if fld w 0 16 = 4 ∧ fld w 21 5 = 0 then accept (Instr.wvnewPub (fld w 16 5)) else none

/-- Major opcode 37 of the S map (SA, SB). -/
def decodeS37 (w : Nat) : Option Instr :=
  if fld w 0 11 = 0 then accept (Instr.arrive (fld w 21 5) (fld w 16 5) (fld w 11 5)) else none

/-- Major opcode 38 of the S map (SA, SB). -/
def decodeS38 (w : Nat) : Option Instr :=
  if fld w 0 11 = 0 then accept (Instr.mwaitN32 (fld w 21 5) (fld w 16 5) (fld w 11 5))
  else if fld w 0 11 = 1 then accept (Instr.mwaitN64 (fld w 21 5) (fld w 16 5) (fld w 11 5)) else none

/-- Major opcode 39 of the S map (SA, SB). -/
def decodeS39 (w : Nat) : Option Instr :=
  if fld w 0 11 = 0 then accept (Instr.gtrig (fld w 21 5) (fld w 16 5) (fld w 11 5)) else none

/-- Major opcode 40 of the S map (SA, SB). -/
def decodeS40 (w : Nat) : Option Instr :=
  if fld w 0 11 = 0 ∧ fld w 21 5 = 0 then accept (Instr.barInit (fld w 16 5) (fld w 11 5))
  else if fld w 0 11 = 1 ∧ fld w 21 5 = 0 then accept (Instr.barExpect (fld w 16 5) (fld w 11 5))
  else if fld w 0 11 = 2 then accept (Instr.barArrive (fld w 21 5) (fld w 16 5) (fld w 11 5))
  else if fld w 0 11 = 3 then accept (Instr.barWait (fld w 21 5) (fld w 16 5) (fld w 11 5))
  else if fld w 0 11 = 4 then accept (Instr.barTest (fld w 21 5) (fld w 16 5) (fld w 11 5)) else none

/-- Major opcode 41 of the S map (SA, SB). -/
def decodeS41 (w : Nat) : Option Instr :=
  if fld w 12 9 = 0 then accept (Instr.rdcnt (fld w 21 5) (fld w 0 12)) else none

/-- Major opcode 42 of the S map (SA, SB). -/
def decodeS42 (w : Nat) : Option Instr :=
  if fld w 6 20 = 0 then accept (Instr.rbeg (fld w 0 6)) else none

/-- Major opcode 43 of the S map (SA, SB). -/
def decodeS43 (w : Nat) : Option Instr :=
  if fld w 0 26 = 0 then accept (Instr.rcom) else none

/-- Major opcode 44 of the S map (SA, SB). -/
def decodeS44 (w : Nat) : Option Instr :=
  if fld w 0 11 = 0 ∧ fld w 21 5 = 0 then accept (Instr.chkt (fld w 16 5) (fld w 11 5)) else none

/-- Major opcode 45 of the S map (SA, SB). -/
def decodeS45 (w : Nat) : Option Instr :=
  if fld w 0 16 = 0 then accept (Instr.dormArm (fld w 21 5) (fld w 16 5))
  else if fld w 0 16 = 1 then accept (Instr.dormDisarm (fld w 21 5) (fld w 16 5))
  else if fld w 0 21 = 2 then accept (Instr.dormCount (fld w 21 5)) else none

/-- The S map (SA, SB): the major opcode selects the form; reserved opcodes and 63 decode to nothing (R67). -/
def decodeS (w : Nat) : Option Instr :=
  match w / 2 ^ 26 with
  | 0 => if w = 0 then some .nopS else none
  | 1 => decodeS1 w
  | 2 => decodeS2 w
  | 3 => decodeS3 w
  | 4 => decodeS4 w
  | 5 => decodeS5 w
  | 6 => decodeS6 w
  | 7 => decodeS7 w
  | 8 => decodeS8 w
  | 9 => decodeS9 w
  | 10 => decodeS10 w
  | 11 => decodeS11 w
  | 12 => decodeS12 w
  | 13 => decodeS13 w
  | 14 => decodeS14 w
  | 15 => decodeS15 w
  | 16 => decodeS16 w
  | 17 => decodeS17 w
  | 18 => decodeS18 w
  | 19 => decodeS19 w
  | 20 => decodeS20 w
  | 21 => decodeS21 w
  | 22 => decodeS22 w
  | 23 => decodeS23 w
  | 24 => decodeS24 w
  | 25 => decodeS25 w
  | 26 => decodeS26 w
  | 27 => decodeS27 w
  | 28 => decodeS28 w
  | 29 => decodeS29 w
  | 30 => decodeS30 w
  | 31 => decodeS31 w
  | 32 => decodeS32 w
  | 33 => decodeS33 w
  | 34 => decodeS34 w
  | 35 => decodeS35 w
  | 36 => decodeS36 w
  | 37 => decodeS37 w
  | 38 => decodeS38 w
  | 39 => decodeS39 w
  | 40 => decodeS40 w
  | 41 => decodeS41 w
  | 42 => decodeS42 w
  | 43 => decodeS43 w
  | 44 => decodeS44 w
  | 45 => decodeS45 w
  | _ => none

/-- Major opcode 1 of the V map (VA, VB). -/
def decodeV1 (w : Nat) : Option Instr :=
  if fld w 0 11 = 0 then accept (Instr.vfadd (fld w 21 5) (fld w 16 5) (fld w 11 5))
  else if fld w 0 11 = 1 then accept (Instr.vfsub (fld w 21 5) (fld w 16 5) (fld w 11 5))
  else if fld w 0 11 = 2 then accept (Instr.vfmul (fld w 21 5) (fld w 16 5) (fld w 11 5))
  else if fld w 0 11 = 3 then accept (Instr.vfmin (fld w 21 5) (fld w 16 5) (fld w 11 5))
  else if fld w 0 11 = 4 then accept (Instr.vfmax (fld w 21 5) (fld w 16 5) (fld w 11 5))
  else if fld w 0 11 = 5 then accept (Instr.vfsgn (fld w 21 5) (fld w 16 5) (fld w 11 5)) else none

/-- Major opcode 2 of the V map (VA, VB). -/
def decodeV2 (w : Nat) : Option Instr :=
  if fld w 0 6 = 0 then accept (Instr.vfma (fld w 21 5) (fld w 16 5) (fld w 11 5) (fld w 6 5))
  else if fld w 0 6 = 1 then accept (Instr.vfms (fld w 21 5) (fld w 16 5) (fld w 11 5) (fld w 6 5))
  else if fld w 0 6 = 2 then accept (Instr.vnfma (fld w 21 5) (fld w 16 5) (fld w 11 5) (fld w 6 5))
  else if fld w 0 6 = 3 then accept (Instr.vnfms (fld w 21 5) (fld w 16 5) (fld w 11 5) (fld w 6 5)) else none

/-- Major opcode 3 of the V map (VA, VB). -/
def decodeV3 (w : Nat) : Option Instr :=
  if fld w 0 11 = 0 then accept (Instr.viadd (fld w 21 5) (fld w 16 5) (fld w 11 5))
  else if fld w 0 11 = 1 then accept (Instr.visub (fld w 21 5) (fld w 16 5) (fld w 11 5))
  else if fld w 0 11 = 2 then accept (Instr.vimul (fld w 21 5) (fld w 16 5) (fld w 11 5))
  else if fld w 0 11 = 3 then accept (Instr.vimulh (fld w 21 5) (fld w 16 5) (fld w 11 5))
  else if fld w 0 11 = 4 then accept (Instr.vand (fld w 21 5) (fld w 16 5) (fld w 11 5))
  else if fld w 0 11 = 5 then accept (Instr.vor (fld w 21 5) (fld w 16 5) (fld w 11 5))
  else if fld w 0 11 = 6 then accept (Instr.vxor (fld w 21 5) (fld w 16 5) (fld w 11 5))
  else if fld w 0 11 = 7 then accept (Instr.vandn (fld w 21 5) (fld w 16 5) (fld w 11 5))
  else if fld w 0 11 = 8 then accept (Instr.vshl (fld w 21 5) (fld w 16 5) (fld w 11 5))
  else if fld w 0 11 = 9 then accept (Instr.vshr (fld w 21 5) (fld w 16 5) (fld w 11 5))
  else if fld w 0 11 = 10 then accept (Instr.vsar (fld w 21 5) (fld w 16 5) (fld w 11 5))
  else if fld w 0 11 = 11 then accept (Instr.vimin (fld w 21 5) (fld w 16 5) (fld w 11 5))
  else if fld w 0 11 = 12 then accept (Instr.vimax (fld w 21 5) (fld w 16 5) (fld w 11 5))
  else if fld w 0 11 = 13 then accept (Instr.viadds (fld w 21 5) (fld w 16 5) (fld w 11 5))
  else if fld w 0 11 = 14 then accept (Instr.visubs (fld w 21 5) (fld w 16 5) (fld w 11 5))
  else if fld w 0 16 = 15 then accept (Instr.viabs (fld w 21 5) (fld w 16 5))
  else if fld w 0 16 = 16 then accept (Instr.vineg (fld w 21 5) (fld w 16 5)) else none

/-- Major opcode 4 of the V map (VA, VB). -/
def decodeV4 (w : Nat) : Option Instr :=
  if fld w 3 8 = 0 then accept (Instr.vcmp (fld w 21 5) (fld w 16 5) (fld w 11 5) (fld w 0 3))
  else if fld w 3 8 = 1 ∧ fld w 21 5 = 0 then accept (Instr.vcmpm (fld w 16 5) (fld w 11 5) (fld w 0 3)) else none

/-- Major opcode 5 of the V map (VA, VB). -/
def decodeV5 (w : Nat) : Option Instr :=
  if fld w 0 6 = 0 then accept (Instr.vsel (fld w 21 5) (fld w 16 5) (fld w 11 5) (fld w 6 5))
  else if fld w 0 6 = 1 then accept (Instr.vsels (fld w 21 5) (fld w 16 5) (fld w 11 5) (fld w 6 5)) else none

/-- Major opcode 6 of the V map (VA, VB). -/
def decodeV6 (w : Nat) : Option Instr :=
  if fld w 0 6 = 14 ∧ fld w 11 5 = 0 then accept (Instr.vcvtTote (fld w 21 5) (fld w 16 5) (fld w 6 5))
  else if fld w 0 6 = 15 ∧ fld w 11 5 = 0 then accept (Instr.vcvtFrte (fld w 21 5) (fld w 16 5) (fld w 6 5))
  else if fld w 6 10 = 0 then accept (Instr.vcvt (fld w 21 5) (fld w 16 5) (fld w 4 2) (fld w 0 4)) else none

/-- Major opcode 7 of the V map (VA, VB). -/
def decodeV7 (w : Nat) : Option Instr :=
  if fld w 0 16 = 0 then accept (Instr.vfabs (fld w 21 5) (fld w 16 5))
  else if fld w 0 16 = 1 then accept (Instr.vfneg (fld w 21 5) (fld w 16 5))
  else if fld w 0 16 = 2 then accept (Instr.vsqrt (fld w 21 5) (fld w 16 5))
  else if fld w 0 16 = 3 then accept (Instr.vrcp (fld w 21 5) (fld w 16 5))
  else if fld w 0 16 = 4 then accept (Instr.vrsqrt (fld w 21 5) (fld w 16 5))
  else if fld w 0 16 = 5 then accept (Instr.vexp2 (fld w 21 5) (fld w 16 5))
  else if fld w 0 16 = 6 then accept (Instr.vexp (fld w 21 5) (fld w 16 5))
  else if fld w 0 16 = 7 then accept (Instr.vlog2 (fld w 21 5) (fld w 16 5))
  else if fld w 0 16 = 8 then accept (Instr.vtanh (fld w 21 5) (fld w 16 5))
  else if fld w 0 16 = 9 then accept (Instr.vsigm (fld w 21 5) (fld w 16 5)) else none

/-- Major opcode 8 of the V map (VA, VB). -/
def decodeV8 (w : Nat) : Option Instr :=
  if fld w 0 11 = 0 then accept (Instr.vperm (fld w 21 5) (fld w 16 5) (fld w 11 5))
  else if fld w 0 6 = 1 then accept (Instr.vperm2 (fld w 21 5) (fld w 16 5) (fld w 11 5) (fld w 6 5))
  else if fld w 0 11 = 2 then accept (Instr.vzipl (fld w 21 5) (fld w 16 5) (fld w 11 5))
  else if fld w 0 11 = 3 then accept (Instr.vziph (fld w 21 5) (fld w 16 5) (fld w 11 5))
  else if fld w 0 11 = 4 then accept (Instr.vunze (fld w 21 5) (fld w 16 5) (fld w 11 5))
  else if fld w 0 11 = 5 then accept (Instr.vunzo (fld w 21 5) (fld w 16 5) (fld w 11 5)) else none

/-- Major opcode 9 of the V map (VA, VB). -/
def decodeV9 (w : Nat) : Option Instr :=
  if fld w 6 10 = 0 then accept (Instr.vrot (fld w 21 5) (fld w 16 5) (fld w 0 6))
  else if fld w 6 10 = 1 then accept (Instr.vshd (fld w 21 5) (fld w 16 5) (fld w 0 6))
  else if fld w 6 5 = 2 then accept (Instr.vcat (fld w 21 5) (fld w 16 5) (fld w 11 5) (fld w 0 6)) else none

/-- Major opcode 10 of the V map (VA, VB). -/
def decodeV10 (w : Nat) : Option Instr :=
  if fld w 0 16 = 0 then accept (Instr.vredadd (fld w 21 5) (fld w 16 5))
  else if fld w 0 16 = 1 then accept (Instr.vredmin (fld w 21 5) (fld w 16 5))
  else if fld w 0 16 = 2 then accept (Instr.vredmax (fld w 21 5) (fld w 16 5))
  else if fld w 0 16 = 3 then accept (Instr.vredand (fld w 21 5) (fld w 16 5))
  else if fld w 0 16 = 4 then accept (Instr.vredor (fld w 21 5) (fld w 16 5))
  else if fld w 0 16 = 5 then accept (Instr.vredxor (fld w 21 5) (fld w 16 5)) else none

/-- Major opcode 11 of the V map (VA, VB). -/
def decodeV11 (w : Nat) : Option Instr :=
  if fld w 0 16 = 0 then accept (Instr.vscanadd (fld w 21 5) (fld w 16 5))
  else if fld w 0 16 = 1 then accept (Instr.vscanmin (fld w 21 5) (fld w 16 5))
  else if fld w 0 16 = 2 then accept (Instr.vscanmax (fld w 21 5) (fld w 16 5))
  else if fld w 0 16 = 8 then accept (Instr.vscanxadd (fld w 21 5) (fld w 16 5))
  else if fld w 0 16 = 9 then accept (Instr.vscanxmin (fld w 21 5) (fld w 16 5))
  else if fld w 0 16 = 10 then accept (Instr.vscanxmax (fld w 21 5) (fld w 16 5)) else none

/-- Major opcode 12 of the V map (VA, VB). -/
def decodeV12 (w : Nat) : Option Instr :=
  if fld w 0 16 = 0 then accept (Instr.vcomp (fld w 21 5) (fld w 16 5))
  else if fld w 0 16 = 1 then accept (Instr.vexpd (fld w 21 5) (fld w 16 5))
  else if fld w 0 21 = 2 then accept (Instr.vm2v (fld w 21 5))
  else if fld w 0 16 = 3 ∧ fld w 21 5 = 0 then accept (Instr.vnzm (fld w 16 5)) else none

/-- Major opcode 13 of the V map (VA, VB). -/
def decodeV13 (w : Nat) : Option Instr :=
  if fld w 20 1 = 0 then accept (Instr.vmovi (fld w 21 5) (fld w 0 20))
  else if fld w 20 1 = 1 then accept (Instr.vmovih (fld w 21 5) (fld w 0 20)) else none

/-- Major opcode 14 of the V map (VA, VB). -/
def decodeV14 (w : Nat) : Option Instr :=
  if fld w 6 10 = 0 then accept (Instr.vext (fld w 21 5) (fld w 16 5) (fld w 0 6))
  else if fld w 6 10 = 1 then accept (Instr.vexts (fld w 21 5) (fld w 16 5) (fld w 0 6))
  else if fld w 6 10 = 2 then accept (Instr.vext64 (fld w 21 5) (fld w 16 5) (fld w 0 6)) else none

/-- Major opcode 15 of the V map (VA, VB). -/
def decodeV15 (w : Nat) : Option Instr :=
  if fld w 4 7 = 0 ∧ fld w 16 5 = 0 then accept (Instr.vaccr (fld w 21 5) (fld w 11 5) (fld w 2 2) (fld w 0 2))
  else if fld w 4 7 = 1 ∧ fld w 21 5 = 0 then accept (Instr.vaccw (fld w 16 5) (fld w 11 5) (fld w 2 2) (fld w 0 2))
  else if fld w 4 7 = 2 ∧ fld w 16 5 = 0 then accept (Instr.vaccrF64 (fld w 21 5) (fld w 11 5) (fld w 2 2) (fld w 0 2))
  else if fld w 4 7 = 3 ∧ fld w 21 5 = 0 then accept (Instr.vaccwF64 (fld w 16 5) (fld w 11 5) (fld w 2 2) (fld w 0 2)) else none

/-- Major opcode 16 of the V map (VA, VB). -/
def decodeV16 (w : Nat) : Option Instr :=
  if fld w 2 14 = 0 then accept (Instr.vld (fld w 21 5) (fld w 16 5) (fld w 0 2)) else none

/-- Major opcode 17 of the V map (VA, VB). -/
def decodeV17 (w : Nat) : Option Instr :=
  if fld w 2 4 = 0 ∧ fld w 11 5 = 0 ∧ fld w 21 5 = 0 then accept (Instr.vst (fld w 16 5) (fld w 6 5) (fld w 0 2)) else none

/-- Major opcode 18 of the V map (VA, VB). -/
def decodeV18 (w : Nat) : Option Instr :=
  if fld w 0 11 = 0 then accept (Instr.vgat (fld w 21 5) (fld w 16 5) (fld w 11 5))
  else if fld w 0 6 = 1 ∧ fld w 21 5 = 0 then accept (Instr.vscat (fld w 16 5) (fld w 11 5) (fld w 6 5)) else none

/-- Major opcode 19 of the V map (VA, VB). -/
def decodeV19 (w : Nat) : Option Instr :=
  if fld w 3 18 = 0 then accept (Instr.vqh (fld w 21 5) (fld w 0 3)) else none

/-- Major opcode 20 of the V map (VA, VB). -/
def decodeV20 (w : Nat) : Option Instr :=
  if fld w 0 11 = 0 ∧ fld w 21 5 = 0 then accept (Instr.vchk (fld w 16 5) (fld w 11 5)) else none

/-- The V map (VA, VB): the major opcode selects the form; reserved opcodes and 63 decode to nothing (R67). -/
def decodeV (w : Nat) : Option Instr :=
  match w / 2 ^ 26 with
  | 0 => if w = 0 then some .nopV else none
  | 1 => decodeV1 w
  | 2 => decodeV2 w
  | 3 => decodeV3 w
  | 4 => decodeV4 w
  | 5 => decodeV5 w
  | 6 => decodeV6 w
  | 7 => decodeV7 w
  | 8 => decodeV8 w
  | 9 => decodeV9 w
  | 10 => decodeV10 w
  | 11 => decodeV11 w
  | 12 => decodeV12 w
  | 13 => decodeV13 w
  | 14 => decodeV14 w
  | 15 => decodeV15 w
  | 16 => decodeV16 w
  | 17 => decodeV17 w
  | 18 => decodeV18 w
  | 19 => decodeV19 w
  | 20 => decodeV20 w
  | _ => none

/-- Major opcode 1 of the M map (MT). -/
def decodeM1 (w : Nat) : Option Instr :=
  if fld w 0 8 = 0 ∧ fld w 22 4 = 0 then accept (Instr.tmm (fld w 18 4) (fld w 13 5) (fld w 8 5)) else none

/-- Major opcode 2 of the M map (MT). -/
def decodeM2 (w : Nat) : Option Instr :=
  if fld w 0 8 = 0 ∧ fld w 22 4 = 0 then accept (Instr.tmmt (fld w 18 4) (fld w 13 5) (fld w 8 5)) else none

/-- Major opcode 3 of the M map (MT). -/
def decodeM3 (w : Nat) : Option Instr :=
  if fld w 0 8 = 0 ∧ fld w 22 4 = 0 then accept (Instr.tlx (fld w 18 4) (fld w 13 5) (fld w 8 5))
  else if fld w 0 8 = 0 ∧ fld w 22 4 = 1 then accept (Instr.tlxT (fld w 18 4) (fld w 13 5) (fld w 8 5))
  else if fld w 0 8 = 0 ∧ fld w 22 4 = 2 then accept (Instr.tlxX (fld w 18 4) (fld w 13 5) (fld w 8 5))
  else if fld w 0 8 = 0 ∧ fld w 22 4 = 3 then accept (Instr.tlxTx (fld w 18 4) (fld w 13 5) (fld w 8 5)) else none

/-- Major opcode 4 of the M map (MT). -/
def decodeM4 (w : Nat) : Option Instr :=
  if fld w 0 8 = 0 ∧ fld w 22 4 = 0 then accept (Instr.tla (fld w 18 4) (fld w 13 5) (fld w 8 5))
  else if fld w 0 8 = 0 ∧ fld w 22 4 = 1 then accept (Instr.tlaT (fld w 18 4) (fld w 13 5) (fld w 8 5)) else none

/-- Major opcode 5 of the M map (MT). -/
def decodeM5 (w : Nat) : Option Instr :=
  if fld w 0 8 = 0 ∧ fld w 22 4 = 0 then accept (Instr.tproj (fld w 18 4) (fld w 13 5) (fld w 8 5)) else none

/-- Major opcode 6 of the M map (MT). -/
def decodeM6 (w : Nat) : Option Instr :=
  if fld w 0 8 = 0 ∧ fld w 22 4 = 1 then accept (Instr.tlplE (fld w 18 4) (fld w 13 5) (fld w 8 5))
  else if fld w 0 8 = 0 ∧ fld w 22 4 = 2 then accept (Instr.tlplA (fld w 18 4) (fld w 13 5) (fld w 8 5))
  else if fld w 0 8 = 0 ∧ fld w 22 4 = 3 then accept (Instr.tlplEa (fld w 18 4) (fld w 13 5) (fld w 8 5)) else none

/-- Major opcode 7 of the M map (MT). -/
def decodeM7 (w : Nat) : Option Instr :=
  if fld w 4 22 = 0 then accept (Instr.tzero (fld w 0 4)) else none

/-- Major opcode 8 of the M map (MT). -/
def decodeM8 (w : Nat) : Option Instr :=
  if fld w 2 6 = 0 ∧ fld w 18 4 = 0 then accept (Instr.tldacc (fld w 22 4) (fld w 13 5) (fld w 8 5) (fld w 0 2)) else none

/-- Major opcode 9 of the M map (MT). -/
def decodeM9 (w : Nat) : Option Instr :=
  if fld w 2 6 = 0 ∧ fld w 18 4 = 0 then accept (Instr.tstacc (fld w 22 4) (fld w 13 5) (fld w 8 5) (fld w 0 2))
  else if fld w 2 6 = 1 ∧ fld w 18 4 = 0 then accept (Instr.tstaccG (fld w 22 4) (fld w 13 5) (fld w 8 5) (fld w 0 2)) else none

/-- Major opcode 10 of the M map (MT). -/
def decodeM10 (w : Nat) : Option Instr :=
  if fld w 4 4 = 0 ∧ fld w 18 8 = 0 then accept (Instr.tscale (fld w 13 5) (fld w 8 5) (fld w 0 4)) else none

/-- Major opcode 11 of the M map (MT). -/
def decodeM11 (w : Nat) : Option Instr :=
  if fld w 0 26 = 0 then accept (Instr.twait) else none

/-- The M map (MT): the major opcode selects the form; reserved opcodes and 63 decode to nothing (R67). -/
def decodeM (w : Nat) : Option Instr :=
  match w / 2 ^ 26 with
  | 0 => if w = 0 then some .nopM else none
  | 1 => decodeM1 w
  | 2 => decodeM2 w
  | 3 => decodeM3 w
  | 4 => decodeM4 w
  | 5 => decodeM5 w
  | 6 => decodeM6 w
  | 7 => decodeM7 w
  | 8 => decodeM8 w
  | 9 => decodeM9 w
  | 10 => decodeM10 w
  | 11 => decodeM11 w
  | _ => none

/-- Major opcode 1 of the C map (CP). -/
def decodeC1 (w : Nat) : Option Instr :=
  if fld w 6 2 = 0 then accept (Instr.cpy (fld w 23 3) (fld w 18 5) (fld w 13 5) (fld w 8 5) (fld w 0 6)) else none

/-- Major opcode 2 of the C map (CP). -/
def decodeC2 (w : Nat) : Option Instr :=
  if fld w 3 1 = 0 ∧ fld w 6 2 = 0 then accept (Instr.cpym (fld w 23 3) (fld w 18 5) (fld w 13 5) (fld w 8 5) (fld w 4 2) (fld w 0 3)) else none

/-- Major opcode 3 of the C map (CP). -/
def decodeC3 (w : Nat) : Option Instr :=
  if fld w 3 1 = 0 ∧ fld w 6 2 = 0 then accept (Instr.rdx (fld w 23 3) (fld w 18 5) (fld w 13 5) (fld w 8 5) (fld w 4 2) (fld w 0 3)) else none

/-- Major opcode 4 of the C map (CP). -/
def decodeC4 (w : Nat) : Option Instr :=
  if fld w 0 23 = 0 then accept (Instr.drain (fld w 23 3)) else none

/-- Major opcode 5 of the C map (CP). -/
def decodeC5 (w : Nat) : Option Instr :=
  if fld w 0 8 = 0 ∧ fld w 18 5 = 0 then accept (Instr.qpush (fld w 23 3) (fld w 13 5) (fld w 8 5)) else none

/-- Major opcode 6 of the C map (CP). -/
def decodeC6 (w : Nat) : Option Instr :=
  if fld w 0 8 = 0 then accept (Instr.stash (fld w 23 3) (fld w 18 5) (fld w 13 5) (fld w 8 5)) else none

/-- Major opcode 7 of the C map (CP). -/
def decodeC7 (w : Nat) : Option Instr :=
  if fld w 3 5 = 0 then accept (Instr.unstash (fld w 23 3) (fld w 18 5) (fld w 13 5) (fld w 8 5) (fld w 0 3)) else none

/-- Major opcode 8 of the C map (CP). -/
def decodeC8 (w : Nat) : Option Instr :=
  if fld w 0 8 = 0 ∧ fld w 13 10 = 0 then accept (Instr.sdrop (fld w 23 3) (fld w 8 5)) else none

/-- Major opcode 9 of the C map (CP). -/
def decodeC9 (w : Nat) : Option Instr :=
  if fld w 0 8 = 0 then accept (Instr.chsend (fld w 23 3) (fld w 18 5) (fld w 13 5) (fld w 8 5)) else none

/-- Major opcode 10 of the C map (CP). -/
def decodeC10 (w : Nat) : Option Instr :=
  if fld w 0 8 = 0 ∧ fld w 13 10 = 0 then accept (Instr.chack (fld w 23 3) (fld w 8 5)) else none

/-- Major opcode 11 of the C map (CP). -/
def decodeC11 (w : Nat) : Option Instr :=
  if fld w 0 8 = 0 then accept (Instr.glean (fld w 23 3) (fld w 18 5) (fld w 13 5) (fld w 8 5)) else none

/-- The C map (CP): the major opcode selects the form; reserved opcodes and 63 decode to nothing (R67). -/
def decodeC (w : Nat) : Option Instr :=
  match w / 2 ^ 26 with
  | 0 => if w = 0 then some .nopC else none
  | 1 => decodeC1 w
  | 2 => decodeC2 w
  | 3 => decodeC3 w
  | 4 => decodeC4 w
  | 5 => decodeC5 w
  | 6 => decodeC6 w
  | 7 => decodeC7 w
  | 8 => decodeC8 w
  | 9 => decodeC9 w
  | 10 => decodeC10 w
  | 11 => decodeC11 w
  | _ => none

/-- Major opcode 1 of the X map (XC). -/
def decodeX1 (w : Nat) : Option Instr :=
  accept (Instr.br (fld w 22 4) (fld w 17 5) (fld w 0 17))

/-- Major opcode 2 of the X map (XC). -/
def decodeX2 (w : Nat) : Option Instr :=
  if fld w 17 9 = 0 then accept (Instr.call (fld w 0 17)) else none

/-- Major opcode 3 of the X map (XC). -/
def decodeX3 (w : Nat) : Option Instr :=
  if fld w 0 17 = 0 ∧ fld w 22 4 = 0 then accept (Instr.jr (fld w 17 5))
  else if fld w 0 17 = 0 ∧ fld w 22 4 = 1 then accept (Instr.jrl (fld w 17 5)) else none

/-- Major opcode 4 of the X map (XC). -/
def decodeX4 (w : Nat) : Option Instr :=
  if fld w 22 4 = 1 then accept (Instr.loopEnter (fld w 17 5) (fld w 0 17))
  else if fld w 22 4 = 0 then accept (Instr.loop (fld w 17 5) (fld w 0 17)) else none

/-- Major opcode 5 of the X map (XC). -/
def decodeX5 (w : Nat) : Option Instr :=
  if fld w 0 17 = 0 ∧ fld w 22 4 = 0 then accept (Instr.mpush (fld w 17 5))
  else if fld w 0 17 = 0 ∧ fld w 22 4 = 1 then accept (Instr.mpushRaw (fld w 17 5)) else none

/-- Major opcode 6 of the X map (XC). -/
def decodeX6 (w : Nat) : Option Instr :=
  if fld w 0 26 = 0 then accept (Instr.minv) else none

/-- Major opcode 7 of the X map (XC). -/
def decodeX7 (w : Nat) : Option Instr :=
  if fld w 0 22 = 0 then accept (Instr.mpop (fld w 22 4)) else none

/-- Major opcode 8 of the X map (XC). -/
def decodeX8 (w : Nat) : Option Instr :=
  if fld w 17 9 = 0 then accept (Instr.bnone (fld w 0 17)) else none

/-- Major opcode 9 of the X map (XC). -/
def decodeX9 (w : Nat) : Option Instr :=
  if fld w 0 17 = 0 ∧ fld w 22 4 = 0 then accept (Instr.fmtw (fld w 17 5))
  else if fld w 4 22 = 262144 then accept (Instr.fmtwVty (fld w 0 4))
  else if fld w 12 14 = 2048 then accept (Instr.fmtwMab (fld w 6 6) (fld w 0 6))
  else if fld w 7 19 = 98304 then accept (Instr.fmtwRnd (fld w 4 3) (fld w 3 1) (fld w 0 3))
  else if fld w 0 26 = 16777216 then accept (Instr.fmtwBlk00)
  else if fld w 0 26 = 16777217 then accept (Instr.fmtwBlk01)
  else if fld w 0 26 = 16777218 then accept (Instr.fmtwBlk10)
  else if fld w 0 26 = 16777219 then accept (Instr.fmtwBlk11) else none

/-- Major opcode 10 of the X map (XC). -/
def decodeX10 (w : Nat) : Option Instr :=
  accept (Instr.trap (fld w 22 4) (fld w 17 5) (fld w 0 17))

/-- Major opcode 11 of the X map (XC). -/
def decodeX11 (w : Nat) : Option Instr :=
  if fld w 17 9 = 0 then accept (Instr.sysc (fld w 0 17)) else none

/-- Major opcode 12 of the X map (XC). -/
def decodeX12 (w : Nat) : Option Instr :=
  if fld w 17 9 = 0 then accept (Instr.ebrk (fld w 0 17)) else none

/-- Major opcode 13 of the X map (XC). -/
def decodeX13 (w : Nat) : Option Instr :=
  if fld w 0 26 = 0 then accept (Instr.yield) else none

/-- Major opcode 14 of the X map (XC). -/
def decodeX14 (w : Nat) : Option Instr :=
  if fld w 17 9 = 0 then accept (Instr.halt (fld w 0 17)) else none

/-- The X map (XC): the major opcode selects the form; reserved opcodes and 63 decode to nothing (R67). -/
def decodeX (w : Nat) : Option Instr :=
  match w / 2 ^ 26 with
  | 0 => if w = 0 then some .nopX else none
  | 1 => decodeX1 w
  | 2 => decodeX2 w
  | 3 => decodeX3 w
  | 4 => decodeX4 w
  | 5 => decodeX5 w
  | 6 => decodeX6 w
  | 7 => decodeX7 w
  | 8 => decodeX8 w
  | 9 => decodeX9 w
  | 10 => decodeX10 w
  | 11 => decodeX11 w
  | 12 => decodeX12 w
  | 13 => decodeX13 w
  | 14 => decodeX14 w
  | _ => none

/-- The decoder of one slot word in its map. -/
def decodeSlot (sm : SlotMap) (w : Nat) : Option Instr :=
  match sm with
  | .s => decodeS w
  | .v => decodeV w
  | .m => decodeM w
  | .c => decodeC w
  | .x => decodeX w

/-- The map of bundle word k, 1 to 7 (R56, R60). -/
def slotMap (k : Nat) : SlotMap :=
  match k with
  | 1 => .s
  | 2 => .s
  | 3 => .v
  | 4 => .v
  | 5 => .m
  | 6 => .c
  | _ => .x

/-- The map and the word of a slot form; an event has no word. -/
def encode (i : Instr) : Option (SlotMap × Nat) :=
  match i with
  | .add d a b => some (.s, 67108864 + d * 2097152 + a * 65536 + b * 2048)
  | .sub d a b => some (.s, 67108865 + d * 2097152 + a * 65536 + b * 2048)
  | .and d a b => some (.s, 67108866 + d * 2097152 + a * 65536 + b * 2048)
  | .or d a b => some (.s, 67108867 + d * 2097152 + a * 65536 + b * 2048)
  | .xor d a b => some (.s, 67108868 + d * 2097152 + a * 65536 + b * 2048)
  | .andn d a b => some (.s, 67108869 + d * 2097152 + a * 65536 + b * 2048)
  | .shl d a b => some (.s, 67108870 + d * 2097152 + a * 65536 + b * 2048)
  | .shr d a b => some (.s, 67108871 + d * 2097152 + a * 65536 + b * 2048)
  | .sar d a b => some (.s, 67108872 + d * 2097152 + a * 65536 + b * 2048)
  | .ror d a b => some (.s, 67108873 + d * 2097152 + a * 65536 + b * 2048)
  | .minI64 d a b => some (.s, 67108874 + d * 2097152 + a * 65536 + b * 2048)
  | .minN64 d a b => some (.s, 67108875 + d * 2097152 + a * 65536 + b * 2048)
  | .maxI64 d a b => some (.s, 67108876 + d * 2097152 + a * 65536 + b * 2048)
  | .maxN64 d a b => some (.s, 67108877 + d * 2097152 + a * 65536 + b * 2048)
  | .addsI64 d a b => some (.s, 67108878 + d * 2097152 + a * 65536 + b * 2048)
  | .addsN64 d a b => some (.s, 67108879 + d * 2097152 + a * 65536 + b * 2048)
  | .subsI64 d a b => some (.s, 67108880 + d * 2097152 + a * 65536 + b * 2048)
  | .subsN64 d a b => some (.s, 67108881 + d * 2097152 + a * 65536 + b * 2048)
  | .mul d a b => some (.s, 67108882 + d * 2097152 + a * 65536 + b * 2048)
  | .mulhI64 d a b => some (.s, 67108883 + d * 2097152 + a * 65536 + b * 2048)
  | .mulhN64 d a b => some (.s, 67108884 + d * 2097152 + a * 65536 + b * 2048)
  | .clz d a => some (.s, 134217728 + d * 2097152 + a * 65536)
  | .ctz d a => some (.s, 134217729 + d * 2097152 + a * 65536)
  | .popc d a => some (.s, 134217730 + d * 2097152 + a * 65536)
  | .neg d a => some (.s, 134217731 + d * 2097152 + a * 65536)
  | .not d a => some (.s, 134217732 + d * 2097152 + a * 65536)
  | .abs d a => some (.s, 134217733 + d * 2097152 + a * 65536)
  | .sx8 d a => some (.s, 134217734 + d * 2097152 + a * 65536)
  | .sx16 d a => some (.s, 134217735 + d * 2097152 + a * 65536)
  | .sx32 d a => some (.s, 134217736 + d * 2097152 + a * 65536)
  | .zx8 d a => some (.s, 134217737 + d * 2097152 + a * 65536)
  | .zx16 d a => some (.s, 134217738 + d * 2097152 + a * 65536)
  | .zx32 d a => some (.s, 134217739 + d * 2097152 + a * 65536)
  | .brev d a => some (.s, 134217740 + d * 2097152 + a * 65536)
  | .bswap d a => some (.s, 134217741 + d * 2097152 + a * 65536)
  | .divI64 d a b => some (.s, 201326592 + d * 2097152 + a * 65536 + b * 2048)
  | .divN64 d a b => some (.s, 201326593 + d * 2097152 + a * 65536 + b * 2048)
  | .remI64 d a b => some (.s, 201326594 + d * 2097152 + a * 65536 + b * 2048)
  | .remN64 d a b => some (.s, 201326595 + d * 2097152 + a * 65536 + b * 2048)
  | .cmp d a b c => some (.s, 268435456 + d * 2097152 + a * 65536 + b * 2048 + c)
  | .addi d a i => some (.s, 335544320 + d * 2097152 + a * 65536 + i)
  | .andi d a i => some (.s, 402653184 + d * 2097152 + a * 65536 + i)
  | .ori d a i => some (.s, 469762048 + d * 2097152 + a * 65536 + i)
  | .xori d a i => some (.s, 536870912 + d * 2097152 + a * 65536 + i)
  | .shli d a n => some (.s, 603979776 + d * 2097152 + a * 65536 + n)
  | .shri d a n => some (.s, 603979840 + d * 2097152 + a * 65536 + n)
  | .sari d a n => some (.s, 603979904 + d * 2097152 + a * 65536 + n)
  | .rori d a n => some (.s, 603979968 + d * 2097152 + a * 65536 + n)
  | .cmpi d a c i => some (.s, 671088640 + d * 2097152 + a * 65536 + c * 8192 + i)
  | .movi d i => some (.s, 738197504 + d * 2097152 + i)
  | .movk d a i => some (.s, 805306368 + d * 2097152 + a * 65536 + i)
  | .lea d a i => some (.s, 872415232 + d * 2097152 + a * 65536 + i)
  | .bextN64 d a l p => some (.s, 939524096 + d * 2097152 + a * 65536 + l * 64 + p)
  | .bextI64 d a l p => some (.s, 939528192 + d * 2097152 + a * 65536 + l * 64 + p)
  | .bins d a l p => some (.s, 1006632960 + d * 2097152 + a * 65536 + l * 64 + p)
  | .crd d n => some (.s, 1073741824 + d * 2097152 + n)
  | .cwr a n => some (.s, 1140850688 + a * 65536 + n)
  | .gset a f i => some (.s, 1207959552 + a * 65536 + f * 128 + i)
  | .gget d f i => some (.s, 1275068416 + d * 2097152 + f * 128 + i)
  | .ld d a t o => some (.s, 1342177280 + d * 2097152 + a * 65536 + t * 8192 + o)
  | .st d a t o => some (.s, 1409286144 + d * 2097152 + a * 65536 + t * 8192 + o)
  | .ldx d o => some (.s, 1476395008 + d * 2097152 + o)
  | .stx d o => some (.s, 1476427776 + d * 2097152 + o)
  | .ldAcq d a s z o => some (.s, 1543503872 + d * 2097152 + a * 65536 + s * 4096 + z * 2048 + o)
  | .stRel d a s z o => some (.s, 1543536640 + d * 2097152 + a * 65536 + s * 4096 + z * 2048 + o)
  | .amoAdd d a b s o z => some (.s, 1610612736 + d * 2097152 + a * 65536 + b * 2048 + s * 128 + o * 32 + z * 16)
  | .amoAnd d a b s o z => some (.s, 1610612737 + d * 2097152 + a * 65536 + b * 2048 + s * 128 + o * 32 + z * 16)
  | .amoOr d a b s o z => some (.s, 1610612738 + d * 2097152 + a * 65536 + b * 2048 + s * 128 + o * 32 + z * 16)
  | .amoXor d a b s o z => some (.s, 1610612739 + d * 2097152 + a * 65536 + b * 2048 + s * 128 + o * 32 + z * 16)
  | .amoMinI d a b s o z => some (.s, 1610612740 + d * 2097152 + a * 65536 + b * 2048 + s * 128 + o * 32 + z * 16)
  | .amoMaxI d a b s o z => some (.s, 1610612741 + d * 2097152 + a * 65536 + b * 2048 + s * 128 + o * 32 + z * 16)
  | .amoMinN d a b s o z => some (.s, 1610612742 + d * 2097152 + a * 65536 + b * 2048 + s * 128 + o * 32 + z * 16)
  | .amoMaxN d a b s o z => some (.s, 1610612743 + d * 2097152 + a * 65536 + b * 2048 + s * 128 + o * 32 + z * 16)
  | .amoSwap d a b s o z => some (.s, 1610612744 + d * 2097152 + a * 65536 + b * 2048 + s * 128 + o * 32 + z * 16)
  | .amoFadd d a b s o z => some (.s, 1610612745 + d * 2097152 + a * 65536 + b * 2048 + s * 128 + o * 32 + z * 16)
  | .cas d a b s o z => some (.s, 1677721600 + d * 2097152 + a * 65536 + b * 2048 + s * 128 + o * 32 + z * 16)
  | .fence d s => some (.s, 1744830464 + d * 2097152 + s)
  | .fwait a => some (.s, 1811939328 + a * 65536)
  | .publish a s => some (.s, 1879048192 + a * 65536 + s)
  | .xformSplit d a b f => some (.s, 1946157056 + d * 2097152 + a * 65536 + b * 2048 + f * 16)
  | .xformMerge d a b f => some (.s, 1946157312 + d * 2097152 + a * 65536 + b * 2048 + f * 16)
  | .xformConv d a b f g => some (.s, 1946157568 + d * 2097152 + a * 65536 + b * 2048 + f * 16 + g)
  | .xformZero d b => some (.s, 1946157824 + d * 2097152 + b * 2048)
  | .xformBpack d a b => some (.s, 1946158080 + d * 2097152 + a * 65536 + b * 2048)
  | .xformBunpack d a b => some (.s, 1946158336 + d * 2097152 + a * 65536 + b * 2048)
  | .phaseStart a n m => some (.s, 2013265920 + a * 65536 + n * 16 + m)
  | .ckseal d a n => some (.s, 2080374784 + d * 2097152 + a * 65536 + n)
  | .spawn d a n => some (.s, 2147483648 + d * 2097152 + a * 65536 + n)
  | .suspend s p f => some (.s, 2214592512 + s * 32 + p * 4 + f)
  | .crewJoin d a => some (.s, 2348810240 + d * 2097152 + a * 65536)
  | .crewInfo d a => some (.s, 2348810242 + d * 2097152 + a * 65536)
  | .wvpin d a => some (.s, 2415919104 + d * 2097152 + a * 65536)
  | .wvpinT d a b => some (.s, 2415919112 + d * 2097152 + a * 65536 + b * 2048)
  | .wvget d a => some (.s, 2415919105 + d * 2097152 + a * 65536)
  | .wvgetT d a b => some (.s, 2415919113 + d * 2097152 + a * 65536 + b * 2048)
  | .wvrel d a => some (.s, 2415919106 + d * 2097152 + a * 65536)
  | .wvrelT d a b => some (.s, 2415919114 + d * 2097152 + a * 65536 + b * 2048)
  | .wvnewStage d a => some (.s, 2415919107 + d * 2097152 + a * 65536)
  | .wvnewPub a => some (.s, 2415919108 + a * 65536)
  | .arrive d a b => some (.s, 2483027968 + d * 2097152 + a * 65536 + b * 2048)
  | .mwaitN32 d a b => some (.s, 2550136832 + d * 2097152 + a * 65536 + b * 2048)
  | .mwaitN64 d a b => some (.s, 2550136833 + d * 2097152 + a * 65536 + b * 2048)
  | .gtrig d a b => some (.s, 2617245696 + d * 2097152 + a * 65536 + b * 2048)
  | .barInit a b => some (.s, 2684354560 + a * 65536 + b * 2048)
  | .barExpect a b => some (.s, 2684354561 + a * 65536 + b * 2048)
  | .barArrive d a b => some (.s, 2684354562 + d * 2097152 + a * 65536 + b * 2048)
  | .barWait d a b => some (.s, 2684354563 + d * 2097152 + a * 65536 + b * 2048)
  | .barTest d a b => some (.s, 2684354564 + d * 2097152 + a * 65536 + b * 2048)
  | .rdcnt d n => some (.s, 2751463424 + d * 2097152 + n)
  | .rbeg l => some (.s, 2818572288 + l)
  | .chkt a b => some (.s, 2952790016 + a * 65536 + b * 2048)
  | .dormArm d a => some (.s, 3019898880 + d * 2097152 + a * 65536)
  | .dormDisarm d a => some (.s, 3019898881 + d * 2097152 + a * 65536)
  | .dormCount d => some (.s, 3019898882 + d * 2097152)
  | .vfadd d a b => some (.v, 67108864 + d * 2097152 + a * 65536 + b * 2048)
  | .vfsub d a b => some (.v, 67108865 + d * 2097152 + a * 65536 + b * 2048)
  | .vfmul d a b => some (.v, 67108866 + d * 2097152 + a * 65536 + b * 2048)
  | .vfmin d a b => some (.v, 67108867 + d * 2097152 + a * 65536 + b * 2048)
  | .vfmax d a b => some (.v, 67108868 + d * 2097152 + a * 65536 + b * 2048)
  | .vfsgn d a b => some (.v, 67108869 + d * 2097152 + a * 65536 + b * 2048)
  | .vfma d a b c => some (.v, 134217728 + d * 2097152 + a * 65536 + b * 2048 + c * 64)
  | .vfms d a b c => some (.v, 134217729 + d * 2097152 + a * 65536 + b * 2048 + c * 64)
  | .vnfma d a b c => some (.v, 134217730 + d * 2097152 + a * 65536 + b * 2048 + c * 64)
  | .vnfms d a b c => some (.v, 134217731 + d * 2097152 + a * 65536 + b * 2048 + c * 64)
  | .viadd d a b => some (.v, 201326592 + d * 2097152 + a * 65536 + b * 2048)
  | .visub d a b => some (.v, 201326593 + d * 2097152 + a * 65536 + b * 2048)
  | .vimul d a b => some (.v, 201326594 + d * 2097152 + a * 65536 + b * 2048)
  | .vimulh d a b => some (.v, 201326595 + d * 2097152 + a * 65536 + b * 2048)
  | .vand d a b => some (.v, 201326596 + d * 2097152 + a * 65536 + b * 2048)
  | .vor d a b => some (.v, 201326597 + d * 2097152 + a * 65536 + b * 2048)
  | .vxor d a b => some (.v, 201326598 + d * 2097152 + a * 65536 + b * 2048)
  | .vandn d a b => some (.v, 201326599 + d * 2097152 + a * 65536 + b * 2048)
  | .vshl d a b => some (.v, 201326600 + d * 2097152 + a * 65536 + b * 2048)
  | .vshr d a b => some (.v, 201326601 + d * 2097152 + a * 65536 + b * 2048)
  | .vsar d a b => some (.v, 201326602 + d * 2097152 + a * 65536 + b * 2048)
  | .vimin d a b => some (.v, 201326603 + d * 2097152 + a * 65536 + b * 2048)
  | .vimax d a b => some (.v, 201326604 + d * 2097152 + a * 65536 + b * 2048)
  | .viadds d a b => some (.v, 201326605 + d * 2097152 + a * 65536 + b * 2048)
  | .visubs d a b => some (.v, 201326606 + d * 2097152 + a * 65536 + b * 2048)
  | .viabs d a => some (.v, 201326607 + d * 2097152 + a * 65536)
  | .vineg d a => some (.v, 201326608 + d * 2097152 + a * 65536)
  | .vcmp d a b k => some (.v, 268435456 + d * 2097152 + a * 65536 + b * 2048 + k)
  | .vcmpm a b k => some (.v, 268435464 + a * 65536 + b * 2048 + k)
  | .vsel d a b c => some (.v, 335544320 + d * 2097152 + a * 65536 + b * 2048 + c * 64)
  | .vsels d a b c => some (.v, 335544321 + d * 2097152 + a * 65536 + b * 2048 + c * 64)
  | .vcvt d a p s => some (.v, 402653184 + d * 2097152 + a * 65536 + p * 16 + s)
  | .vcvtTote d a m => some (.v, 402653198 + d * 2097152 + a * 65536 + m * 64)
  | .vcvtFrte d a m => some (.v, 402653199 + d * 2097152 + a * 65536 + m * 64)
  | .vfabs d a => some (.v, 469762048 + d * 2097152 + a * 65536)
  | .vfneg d a => some (.v, 469762049 + d * 2097152 + a * 65536)
  | .vsqrt d a => some (.v, 469762050 + d * 2097152 + a * 65536)
  | .vrcp d a => some (.v, 469762051 + d * 2097152 + a * 65536)
  | .vrsqrt d a => some (.v, 469762052 + d * 2097152 + a * 65536)
  | .vexp2 d a => some (.v, 469762053 + d * 2097152 + a * 65536)
  | .vexp d a => some (.v, 469762054 + d * 2097152 + a * 65536)
  | .vlog2 d a => some (.v, 469762055 + d * 2097152 + a * 65536)
  | .vtanh d a => some (.v, 469762056 + d * 2097152 + a * 65536)
  | .vsigm d a => some (.v, 469762057 + d * 2097152 + a * 65536)
  | .vperm d a b => some (.v, 536870912 + d * 2097152 + a * 65536 + b * 2048)
  | .vperm2 d a b c => some (.v, 536870913 + d * 2097152 + a * 65536 + b * 2048 + c * 64)
  | .vzipl d a b => some (.v, 536870914 + d * 2097152 + a * 65536 + b * 2048)
  | .vziph d a b => some (.v, 536870915 + d * 2097152 + a * 65536 + b * 2048)
  | .vunze d a b => some (.v, 536870916 + d * 2097152 + a * 65536 + b * 2048)
  | .vunzo d a b => some (.v, 536870917 + d * 2097152 + a * 65536 + b * 2048)
  | .vrot d a n => some (.v, 603979776 + d * 2097152 + a * 65536 + n)
  | .vshd d a n => some (.v, 603979840 + d * 2097152 + a * 65536 + n)
  | .vcat d a b n => some (.v, 603979904 + d * 2097152 + a * 65536 + b * 2048 + n)
  | .vredadd d a => some (.v, 671088640 + d * 2097152 + a * 65536)
  | .vredmin d a => some (.v, 671088641 + d * 2097152 + a * 65536)
  | .vredmax d a => some (.v, 671088642 + d * 2097152 + a * 65536)
  | .vredand d a => some (.v, 671088643 + d * 2097152 + a * 65536)
  | .vredor d a => some (.v, 671088644 + d * 2097152 + a * 65536)
  | .vredxor d a => some (.v, 671088645 + d * 2097152 + a * 65536)
  | .vscanadd d a => some (.v, 738197504 + d * 2097152 + a * 65536)
  | .vscanmin d a => some (.v, 738197505 + d * 2097152 + a * 65536)
  | .vscanmax d a => some (.v, 738197506 + d * 2097152 + a * 65536)
  | .vscanxadd d a => some (.v, 738197512 + d * 2097152 + a * 65536)
  | .vscanxmin d a => some (.v, 738197513 + d * 2097152 + a * 65536)
  | .vscanxmax d a => some (.v, 738197514 + d * 2097152 + a * 65536)
  | .vcomp d a => some (.v, 805306368 + d * 2097152 + a * 65536)
  | .vexpd d a => some (.v, 805306369 + d * 2097152 + a * 65536)
  | .vm2v d => some (.v, 805306370 + d * 2097152)
  | .vnzm a => some (.v, 805306371 + a * 65536)
  | .vmovi d i => some (.v, 872415232 + d * 2097152 + i)
  | .vmovih d i => some (.v, 873463808 + d * 2097152 + i)
  | .vext d a l => some (.v, 939524096 + d * 2097152 + a * 65536 + l)
  | .vexts d a l => some (.v, 939524160 + d * 2097152 + a * 65536 + l)
  | .vext64 d a l => some (.v, 939524224 + d * 2097152 + a * 65536 + l)
  | .vaccr d b q u => some (.v, 1006632960 + d * 2097152 + b * 2048 + q * 4 + u)
  | .vaccw a b q u => some (.v, 1006632976 + a * 65536 + b * 2048 + q * 4 + u)
  | .vaccrF64 d b q u => some (.v, 1006632992 + d * 2097152 + b * 2048 + q * 4 + u)
  | .vaccwF64 a b q u => some (.v, 1006633008 + a * 65536 + b * 2048 + q * 4 + u)
  | .vld d a m => some (.v, 1073741824 + d * 2097152 + a * 65536 + m)
  | .vst a c m => some (.v, 1140850688 + a * 65536 + c * 64 + m)
  | .vgat d a b => some (.v, 1207959552 + d * 2097152 + a * 65536 + b * 2048)
  | .vscat a b c => some (.v, 1207959553 + a * 65536 + b * 2048 + c * 64)
  | .vqh d k => some (.v, 1275068416 + d * 2097152 + k)
  | .vchk a b => some (.v, 1342177280 + a * 65536 + b * 2048)
  | .tmm g x y => some (.m, 67108864 + g * 262144 + x * 8192 + y * 256)
  | .tmmt g x y => some (.m, 134217728 + g * 262144 + x * 8192 + y * 256)
  | .tlx g x y => some (.m, 201326592 + g * 262144 + x * 8192 + y * 256)
  | .tlxT g x y => some (.m, 205520896 + g * 262144 + x * 8192 + y * 256)
  | .tlxX g x y => some (.m, 209715200 + g * 262144 + x * 8192 + y * 256)
  | .tlxTx g x y => some (.m, 213909504 + g * 262144 + x * 8192 + y * 256)
  | .tla g x y => some (.m, 268435456 + g * 262144 + x * 8192 + y * 256)
  | .tlaT g x y => some (.m, 272629760 + g * 262144 + x * 8192 + y * 256)
  | .tproj g x y => some (.m, 335544320 + g * 262144 + x * 8192 + y * 256)
  | .tlplE g x y => some (.m, 406847488 + g * 262144 + x * 8192 + y * 256)
  | .tlplA g x y => some (.m, 411041792 + g * 262144 + x * 8192 + y * 256)
  | .tlplEa g x y => some (.m, 415236096 + g * 262144 + x * 8192 + y * 256)
  | .tzero m => some (.m, 469762048 + m)
  | .tldacc f x y u => some (.m, 536870912 + f * 4194304 + x * 8192 + y * 256 + u)
  | .tstacc f x y u => some (.m, 603979776 + f * 4194304 + x * 8192 + y * 256 + u)
  | .tstaccG f x y u => some (.m, 603979780 + f * 4194304 + x * 8192 + y * 256 + u)
  | .tscale x y m => some (.m, 671088640 + x * 8192 + y * 256 + m)
  | .cpy c g x y f => some (.c, 67108864 + c * 8388608 + g * 262144 + x * 8192 + y * 256 + f)
  | .cpym c g x y m f => some (.c, 134217728 + c * 8388608 + g * 262144 + x * 8192 + y * 256 + m * 16 + f)
  | .rdx c g x y m f => some (.c, 201326592 + c * 8388608 + g * 262144 + x * 8192 + y * 256 + m * 16 + f)
  | .drain c => some (.c, 268435456 + c * 8388608)
  | .qpush k x y => some (.c, 335544320 + k * 8388608 + x * 8192 + y * 256)
  | .stash c g x y => some (.c, 402653184 + c * 8388608 + g * 262144 + x * 8192 + y * 256)
  | .unstash c g x y f => some (.c, 469762048 + c * 8388608 + g * 262144 + x * 8192 + y * 256 + f)
  | .sdrop c y => some (.c, 536870912 + c * 8388608 + y * 256)
  | .chsend c g x y => some (.c, 603979776 + c * 8388608 + g * 262144 + x * 8192 + y * 256)
  | .chack c y => some (.c, 671088640 + c * 8388608 + y * 256)
  | .glean c g x y => some (.c, 738197504 + c * 8388608 + g * 262144 + x * 8192 + y * 256)
  | .br c a o => some (.x, 67108864 + c * 4194304 + a * 131072 + o)
  | .call o => some (.x, 134217728 + o)
  | .jr a => some (.x, 201326592 + a * 131072)
  | .jrl a => some (.x, 205520896 + a * 131072)
  | .loopEnter a o => some (.x, 272629760 + a * 131072 + o)
  | .loop a o => some (.x, 268435456 + a * 131072 + o)
  | .mpush a => some (.x, 335544320 + a * 131072)
  | .mpushRaw a => some (.x, 339738624 + a * 131072)
  | .mpop n => some (.x, 469762048 + n * 4194304)
  | .bnone o => some (.x, 536870912 + o)
  | .fmtw a => some (.x, 603979776 + a * 131072)
  | .fmtwVty v => some (.x, 608174080 + v)
  | .fmtwMab b a => some (.x, 612368384 + b * 64 + a)
  | .fmtwRnd i s r => some (.x, 616562688 + i * 16 + s * 8 + r)
  | .trap c a k => some (.x, 671088640 + c * 4194304 + a * 131072 + k)
  | .sysc k => some (.x, 738197504 + k)
  | .ebrk k => some (.x, 805306368 + k)
  | .halt k => some (.x, 939524096 + k)
  | .nopS => some (.s, 0)
  | .phaseCommitCore => some (.s, 2013282304)
  | .phaseCommitClu => some (.s, 2013282305)
  | .phaseCommitDev => some (.s, 2013282306)
  | .phaseCommitSys => some (.s, 2013282307)
  | .phaseCommitRcv => some (.s, 2013282308)
  | .phaseAbort => some (.s, 2013298688)
  | .exit => some (.s, 2281701376)
  | .crewLeave => some (.s, 2348810241)
  | .rcom => some (.s, 2885681152)
  | .nopV => some (.v, 0)
  | .nopM => some (.m, 0)
  | .twait => some (.m, 738197504)
  | .nopC => some (.c, 0)
  | .nopX => some (.x, 0)
  | .minv => some (.x, 402653184)
  | .fmtwBlk00 => some (.x, 620756992)
  | .fmtwBlk01 => some (.x, 620756993)
  | .fmtwBlk10 => some (.x, 620756994)
  | .fmtwBlk11 => some (.x, 620756995)
  | .yield => some (.x, 872415232)
  | .bundleIssue => none
  | .bundleCommit => none
  | .resultLanding => none
  | .globalLoadReturn => none
  | .phaseReissue => none
  | .walkComplete => none
  | .killComplete => none
  | .contextLeave => none
  | .preemptionSwitch => none
  | .dispatch => none
  | .readyEntryAging => none
  | .arrivalPost => none
  | .arrivalQueueAging => none
  | .squareZeroingComplete => none
  | .trig => none
  | .replayStart => none
  | .prefetchComplete => none
  | .granaryRequest => none
  | .killreq => none
  | .schedulerMemoryWrite => none
  | .ringBlockWrite => none
  | .splitChange => none
  | .tlbInvalidate => none
  | .invalidationComplete => none
  | .rtload => none
  | .routeTableSwitch => none
  | .migcmd => none
  | .migrationMoveComplete => none
  | .migrationReport => none
  | .memoryControllerAccess => none
  | .heatDecay => none
  | .clrq => none
  | .keyLoad => none
  | .attestation => none
  | .firmwareUpdate => none
  | .granuleRetire => none
  | .hostApertureRead => none
  | .hostApertureWrite => none
  | .intstatClear => none
  | .registerWindowWrite => none
  | .parkTimeout => none
  | .contextWake => none
  | .spinPark => none
  | .remoteTimeout => none
  | .packetHop => none
  | .ownerRequest => none
  | .remoteReply => none
  | .storeAck => none
  | .publishFlip => none
  | .tcBlockLand => none
  | .tcCreditReturn => none
  | .recipientAck => none
  | .copySegment => none
  | .copyComplete => none
  | .handlerStart => none
  | .chainedWordPlace => none
  | .chainedWordAccept => none
  | .mtWordStart => none
  | .sequencerStep => none
  | .mtWordComplete => none
  | .xformComplete => none
  | .releasePerformed => none
  | .fwaitComplete => none
  | .cksealComplete => none
  | .cellarPersist => none
  | .l2Eviction => none
  | .containmentEvent => none
  | .replayFromSeal => none
  | .deviceReset => none
  | .ioDieReset => none
  | .powerOn => none
  | .reducedServiceEnd => none
  | .thermalContainment => none
  | .thermalRelease => none
  | .throttleDown => none
  | .throttleStepUp => none
  | .linkDown => none
  | .flitReceive => none
  | .linkRetrain => none
  | .linkStateFrame => none
  | .linkTrainingAttempt => none
  | .linkRetryTimer => none
  | .linkQuarantine => none
  | .cxlPortDown => none
  | .gleanerFrame => none
  | .gleanerResend => none
  | .gleanerRingFailure => none
  | .patrolScrub => none
  | .rptFirmwareWrite => none
  | .linkBindingWrite => none
  | .powerLoss => none
  | .hbmStackTrained => none
  | .ethernetPortStateChange => none
  | .gleanerRequest => none
  | .publishStatusReturn => none

/-- The slot whose map first takes a table word: the table gives a word without its slot, and the slot's position
selects the map (R60), so the maps are asked in the order of the slots. -/
def tableSlot (w : Nat) : Option (Nat × Instr) :=
  match decodeS w, decodeV w, decodeM w, decodeC w, decodeX w with
  | some i, _, _, _, _ => some (1, i)
  | _, some i, _, _, _ => some (3, i)
  | _, _, some i, _, _ => some (5, i)
  | _, _, _, some i, _ => some (6, i)
  | _, _, _, _, some i => some (7, i)
  | _, _, _, _, _ => none

/-- The instruction the decoder reads from a word of the opcode table: 32 bits, one slot word. -/
def decodeTableWord (nbits w : Nat) : Option Instr :=
  if nbits ≤ 32 then (tableSlot w).map Prod.snd else none

end Sys2Proof
end

