-- ==== Sys2Proof/Machine/Translate.lean ====
section
/-! DEFINITION. Translation (R228, R397 to R400) and the classing and checking of a slot's addresses (R218, R239). -/

namespace Sys2Proof.Machine

/-- Page size of a leaf at a level: log2 (R398). -/
def pageLog (lvl : Nat) : Nat := match lvl with | 0 => 16 | 1 => 21 | 2 => 29 | _ => 32

/-- The index a level takes from a virtual address, and the size of the table it selects from (R398, R399). -/
def walkIndex (lvl va : Nat) : Nat :=
  match lvl with | 3 => bits va 32 24 | 2 => bits va 29 3 | 1 => bits va 21 8 | _ => bits va 16 5

def tableSize (lvl : Nat) : Nat := match lvl with | 2 => 64 | 1 => 2048 | _ => 256

/-- Whether an address is memory that a leaf may name: populated, not reserved, trained (R213, R399, R452). -/
def State.populated (s : State) (pa : Nat) : Bool :=
  if isHbm pa then decide (pa < cellarBase) && decide (bits pa 12 3 < s.hbmTrained)
  else if isCxl 0 pa || isCxl 1 pa then (s.expander pa).isSome
  else (isPad pa && decide (pa % 0x800000 < padBytes (s.core (padCore pa)).split)) || isSched pa || isReg pa

/-- Whether memory keeps cellar pages: HBM, or a persistent expander (R223). -/
def State.cellarMemory (s : State) (pa : Nat) : Bool :=
  isHbm pa || (s.expander pa).any (·.persistent)

/-- Whether a leaf maps its page (R399, R405, R413). -/
def State.leafGood (s : State) (e : Nat) : Bool :=
  let pa := bits e 16 28 * 65536
  s.populated pa && (!bit e 5 || s.cellarMemory pa) && s.keyValid.contains (bits e 8 8)

/-- One level of the walk, at most four of them (R399): the leaf, its level and its address; none is a fault, as is a table that
cannot be read (R413). -/
def State.walkFrom (s : State) (va : Nat) : Nat → Nat → Option (Nat × Nat × Nat)
  | lvl, t =>
    let at_ := t + walkIndex lvl va * 8
    let e := (s.tableAt at_ 8).getD 0
    if !bit e 0 || e >>> 46 ≠ 0 then none
    else if bit e 1 then
      if bits e 44 2 ≠ lvl ∨ bits e 16 28 * 65536 % 2 ^ pageLog lvl ≠ 0 then none
      else if s.leafGood e then some (e, lvl, at_) else none
    else
      match lvl with
      | 0 => none
      | l + 1 =>
        let next := bits e 6 38 * 64
        if bits e 44 2 ≠ 0 ∨ bits e 2 4 ≠ 0 ∨ next % tableSize l ≠ 0 then none else s.walkFrom va l next

/-- The addresses that a walk reads. -/
def State.walkReads (s : State) (va : Nat) : Nat → Nat → List Nat
  | lvl, t =>
    let at_ := t + walkIndex lvl va * 8
    let e := (s.tableAt at_ 8).getD 0
    match lvl with
    | 0 => [at_]
    | l + 1 => at_ :: (if bit e 0 && !bit e 1 then s.walkReads va l (bits e 6 38 * 64) else [])

/-- The walk of R399. -/
def State.walk (s : State) (space va : Nat) : Option (Nat × Nat × Nat) :=
  let root := (tget 0 s.sproot space).toNat
  if !bit root 63 || decide (2 ^ bits root 58 5 ≤ bits va 32 24) then none
  else s.walkFrom va 3 (bits root 12 32 * 4096)

/-- The walker reads the tables: in the window of a port that is down each access is a machine check (R443). -/
def State.walkAccess (s : State) (space va : Nat) : State :=
  let root := (tget 0 s.sproot space).toNat
  if bit root 63 then (s.walkReads va 3 (bits root 12 32 * 4096)).foldl State.downAccess s else s

/-- The physical address a leaf at a level gives. -/
def leafPa (e lvl va : Nat) : Nat := bits e 16 28 * 65536 + va % 2 ^ pageLog lvl

/-- A TLB entry for an address (R228). -/
def tlbFind (l : List Tlb) (space va : Nat) : Option Tlb :=
  l.find? fun e => e.space == space && e.page == va >>> e.log

/-- The leaf that a core's TLB holds for an address, or that the tables hold (R398); 0 for none. -/
def State.leafOf (s : State) (core space va : Nat) : Nat :=
  match tlbFind (s.core core).tlb space va with
  | some e => e.leaf.toNat
  | none => match s.walk space va with
    | some (e, _, _) => e
    | none => 0

/-- Whether an address lies in the page that a walk is for (R228); a walk that will fault is for 64 KiB. -/
def State.walkCovers (s : State) (w : Walk) (space va : Nat) : Bool :=
  let log := match s.walk space w.va with | some (_, lvl, _) => pageLog lvl | none => 16
  w.space == space && w.va >>> log == va >>> log

/-- Requesters miss a page: cores and copies join the walk in flight for it, or start one (R228). -/
def State.joinWalk (s : State) (space va : Nat) (cores copies : List Nat) : State :=
  match s.walks.find? fun p => s.walkCovers p.2 space va with
  | some p => { s with walks := tset s.walks p.1 { p.2 with
      cores := cores.foldl (fun l c => l.insert c) p.2.cores, copies := copies.foldl (fun l k => l.insert k) p.2.copies } }
  | none => { s with walks := tset s.walks s.nextId ⟨space, va, cores, copies⟩, nextId := s.nextId + 1 }

/-- The level of a page size. -/
def lvlOf (log : Nat) : Nat := if log = 16 then 0 else if log = 21 then 1 else if log = 29 then 2 else 3

/-- Whether writes to a physical address are held for a move (R230). -/
def State.writesHeld (s : State) (pa : Nat) : Bool :=
  s.moves.any fun m => !m.switched && decide (bits m.old.toNat 16 28 * 65536 ≤ pa ∧ pa < bits m.old.toNat 16 28 * 65536 + m.size)

/-- What an access comes to: a place (physical address, key, whether it is global memory), a fault, or a translation
that is not at hand (R79). -/
inductive Access where
  | at_ (pa key : Nat) (global : Bool)
  | fault (cause detail : Nat)
  | miss (space va : Nat)
  deriving DecidableEq, Repr

/-- A global access through the L1 TLB: translation, then rights (R84, R228, R400). A page whose writes are held for
a move counts as missing (R230); what is no global memory, or neither populated nor trained, is no
translation for a slot (R213, R239, R452). An entry without V stands for a walk that faulted. -/
def State.lookup (s : State) (core space va : Nat) (r w x : Bool) : Access :=
  match tlbFind (s.core core).tlb space va with
  | none => .miss space va
  | some e =>
    let n := e.leaf.toNat
    if !bit n 0 then .fault 0x03 va
    else
      let pa := leafPa n (lvlOf e.log) va
      if s.retired.contains (pa / 65536) || !isGlobal pa || !s.populated pa then .fault 0x03 va
      else if (r && !bit n 2) || (w && !bit n 3) || (x && !bit n 4) then .fault 0x04 va
      else if w && s.writesHeld pa then .miss space va
      else .at_ pa (bits n 8 8) true

/-- Aperture: bits 63:56 zero and bits 55:40 all ones (R239). -/
def isAperture (ea : Nat) : Bool := ea >>> 40 == 0xFFFF

/-- The access of a scalar form to n bytes at ea (R239): aperture or global, with the faults in the order of R84. -/
def State.locate (s : State) (ea n align : Nat) (r w : Bool) : Access :=
  if 2 ^ 56 ≤ ea then .fault 0x03 (ea % 2 ^ 56)
  else if isAperture ea then
    let o := bits ea 0 40
    let (base, size) := s.allot s.bun.core s.me.crew
    if ea % align ≠ 0 then .fault 0x05 ea
    else if size < o + n then .fault 0x06 o
    else .at_ (base + o) 0 false
  else
    match s.lookup s.bun.core s.me.space ea r w false with
    | .at_ pa key g =>
      if ea % align ≠ 0 then .fault 0x05 ea else .at_ pa key g
    | a => a

/-- An access outside the aperture faults translation; inside, alignment then bounds (R259, R423). -/
def State.locatePad (s : State) (ea n align : Nat) : Access :=
  if isAperture ea then s.locate ea n align true true else .fault 0x03 (ea % 2 ^ 56)

/-- Go on with a located access; a fault traps, a miss holds the bundle for translation (R79). -/
def State.access (s : State) (a : Access) (k : Nat → Nat → Bool → State) : State :=
  match a with
  | .at_ pa key g => k pa key g
  | .fault c d => s.trap c d
  | .miss sp va => { s with bun := { s.bun with miss := s.bun.miss ++ [(sp, va)] } }

/-- A range of bytes of the crew's allotment on this core (R157): its physical address, or bounds. -/
def State.padRange (s : State) (off n : Nat) : Option Nat :=
  let (base, size) := s.allot s.bun.core s.me.crew
  if off + n ≤ size then some (base + off) else none

end Sys2Proof.Machine
end

