-- ==== Sys2Proof/Machine/Queues.lean ====
section
/-! DEFINITION. Decoupled queues and their head latches (R72, R99, R308 to R310), link FIFOs (R99, R318, R350), and
the control registers as crd reads them (R100). -/

namespace Sys2Proof.Machine

/-! ### Decoupled queues -/

def State.queue (s : State) (k : Nat) : Nat := s.mb.queue k

/-- Whether queue k has its head element (R310). -/
def State.qReady (s : State) (k : Nat) : Bool := bit (tget 0 s.mb.present k) (qHead (s.queue k))

/-- The head element as qhk presents it (R99): its bytes, and whether any is poisoned. -/
def State.qHeadValue (s : State) (k : Nat) : Nat × Bool :=
  let q := s.queue k
  let base := (s.allot s.bun.core s.me.crew).1 + qBase q + qHead q * qEsz q
  (s.readPa 0 base (qEsz q), s.poisonedAt base (qEsz q))

/-- Whether a read of queue k's head waits: it is enabled and empty (R78). A disabled one makes the bundle illegal (R72, R83). -/
def State.qHolds (s : State) (k : Nat) : Bool := qEn (s.queue k) && !s.qReady k

/-- Elements of queue k that earlier bundles have reserved and not yet taken at their commit (R304, R310). -/
def State.qReserved (s : State) (k : Nat) : Nat := (s.me.land.filter fun l => l.dest == .qtail k).length

/-- The element that the next reservation of queue k will take. -/
def State.qNext (s : State) (k : Nat) : Nat :=
  let q := s.queue k
  (qTail q + s.qReserved k) % qDepth q

/-- Elements of queue k reserved in all: by earlier bundles and by earlier slots of this one. -/
def State.qTaken (s : State) (k : Nat) : Nat :=
  s.qReserved k + s.bun.effs.foldl (fun n e => match e with | .qpush j _ _ _ => if j = k then n + 1 else n | _ => n) 0

/-- Room in queue k, or the strict trap or the lenient hold of R304 (detail 2; counter qstk). -/
def State.qRoom (s : State) (k : Nat) (go : State → State) : State :=
  let q := s.queue k
  if qCnt q + s.qTaken k < qDepth q then go s
  else if s.cr 0x007 = 0 then s.trap 0x07 2 else s.waitFor 2 (0x018 + k)

/-! ### Link FIFOs -/

def Core.lfOf (k : Core) (n : Nat) : Lf := tget .unbound k.lf n
def State.lf (s : State) (k : Nat) : Lf := (s.core s.bun.core).lfOf k
def State.modLf (s : State) (c k : Nat) (f : Lf → Lf) : State :=
  s.modCore c fun x => { x with lf := tset x.lf k (f (x.lfOf k)) }

/-- Bound to the strand's crew (R99, R411); a detached strand has none (R376). -/
def State.lfBound (s : State) (k : Nat) : Bool :=
  let b := (s.lf k).bind.toNat
  s.me.crew ≠ 0xFFFF && bit b 63 && bits b 46 16 == s.me.crew

/-- The words that a packet with this header needs (R350). -/
def packetLen (h : Nat) : Nat :=
  match bits h 60 4 with | 0 => 2 | 1 => 2 + bits h 48 4 + 1 | 2 => 3 | _ => 4

/-- The header check of R350. -/
def packetHeaderGood (h : Nat) : Bool :=
  let op := bits h 60 4
  let ord := bits h 54 2
  decide (op ≤ 3) && (if op = 2 then decide (bits h 56 4 ≤ 9) else bits h 56 4 == 0) &&
    (if op = 0 then decide (ord ≤ 1) else if op = 1 then ord == 0 || ord == 2 else true) &&
    bits h 52 1 == 0 && bits h 32 4 == 0 && (decide (op ≤ 1) || bits h 48 4 == 0)

/-! ### Control registers -/

/-- cyc of a core: cycles since its reset (R100, R117). -/
def State.cyc (s : State) : Nat := (wd s.bun.t - (s.core s.bun.core).cyc0).toNat

/-- ctx (R100). -/
def State.ctxReg (s : State) : Nat :=
  s.bun.core * 512 + s.me.pri * 64 + (s.me.bank.getD 0) * 8 + s.bun.ctx

/-- A control register that crd reads without moving anything (R100, R117). -/
def State.crRead (s : State) (n : Nat) : Word :=
  if n = 0x004 then wd s.me.tag
  else if n = 0x005 then wd s.me.crew
  else if n = 0x006 then wd s.ctxReg
  else if n = 0x00C then wd s.cyc
  else if n = 0x00D then wd s.mb.mask.length
  else if 0x030 ≤ n ∧ n < 0x038 then wd (bits (tget 0 s.rpt ((n - 0x030) / 2)) (64 * ((n - 0x030) % 2)) 64)
  else if 0x040 ≤ n ∧ n < 0x048 then tget 0 s.mb.qc (n - 0x040)
  else s.cr n

end Sys2Proof.Machine
end

