-- ==== Sys2Proof/Machine/Flags.lean ====
section
/-! DEFINITION. What predicates and conditions instructions: the mask stack (R93, R125), the conditions of the X map
(R121), the fields of fmt that fmtw writes (R127). -/

namespace Sys2Proof.Machine

/-- A landing placed by the order of issue, after those of its own bundle. -/
def insertIssued (x : Landing) : List Landing → List Landing
  | [] => [x]
  | y :: l => if x.seq < y.seq then x :: y :: l else y :: insertIssued x l

/-- Depth at issue counting pushes and pops in flight, in the order of their issue (R93). -/
def State.maskDepth (s : State) : Nat :=
  (s.me.land.foldl (fun l x => insertIssued x l) []).foldl (fun n l => match l.dest, l.val with
    | .mask, .stack _ p q => n + p - q
    | _, _ => n) s.mb.mask.length

/-- A push, checked for overflow before commit (R93): lands at its instruction's latency. Where a pop in flight lets it
push onto a stack that still reads 16 entries, the newest 16 remain (DESIGN CHOICE, log entry 30). -/
def State.pushMask (s : State) (lat : Nat) (m : Word) : State :=
  s.unless (decide (16 ≤ s.maskDepth)) 0x08 0 fun s => s.emit (.land lat .mask (.stack ((m :: s.mb.mask).take 16) 1 0))

/-- minv's stack: top := ~top & next (R125). -/
def invertTop : List Word → List Word
  | [] => []
  | [t] => [~~~t]
  | t :: n :: l => (~~~t &&& n) :: n :: l

/-- The conditions of R121 on s[a]. -/
def branchCond (c : Nat) (x : Word) : Bool :=
  match c with
  | 0 => true
  | 1 => x == 0
  | 2 => x != 0
  | 3 => x.slt 0
  | 4 => !x.slt 0
  | 5 => BitVec.slt 0 x
  | _ => x.sle 0

/-- The label of a format-B word: pc + sext(off17) × 32 (R120). -/
def State.label (s : State) (o : Nat) : Nat := (wd s.bun.pc + wi (32 * sext 17 o)).toNat

/-- A change of the fmt bits lo + n - 1 : lo, in force from issue + 4 (R80, R128). -/
def fmtField (lo n v : Nat) : Val := .field (wd ((2 ^ n - 1) * 2 ^ lo)) (wd (v % 2 ^ n * 2 ^ lo))

/-- The bits of fmt that a program can write: 31:7 (R94). -/
def fmtWritable : Word := 0xFFFFFF80#64

/-- Reserved type or mode codes (R127). -/
def fmtReserved (f : Nat) : Bool := decide (14 ≤ fmtVty f) || decide (5 ≤ fmtRnd f)

/-- Whether the core ignores SAFE and yield: an open region, handler state, or a phase that holds shadows (R81, R193,
R202). -/
def Ctx.pinned (x : Ctx) : Bool := x.handler || x.region.opened || (x.phase.opened && x.phase.mask != 0)

end Sys2Proof.Machine
end

