-- ==== Sys2Proof/Machine/Te.lean ====
section
/-! DEFINITION. Twin-exponent blocks: their elements, planes and exponent pair, and every conversion into and out of
them (R36 to R46). -/

namespace Sys2Proof.Machine

/-- One element of a TE block: sign, selector, magnitude (R37). -/
structure TeElem where
  s : Bool
  x : Bool
  m : Nat
  deriving DecidableEq, Repr

/-- A TE block of up to 32 elements: the two exponents and the elements (R37). -/
structure TeBlock where
  e1 : Nat
  e0 : Nat
  el : List TeElem
  deriving DecidableEq, Repr

/-- The value of an element of a block read with p planes of class m (R37, R41). -/
def TeBlock.value (b : TeBlock) (cls p : Nat) (t : TeElem) : FVal :=
  let e := if t.x then b.e1 else b.e0
  if e = 255 then .nan t.s else .fin t.s (t.m / 2 ^ (cls - p)) ((e : Int) - 127 - ((p : Int) - 1))

/-- floor (log2 |w|) + 127 of a nonzero value rounded to m significant bits (R42). -/
def sigExp (cls rnd r : Nat) (s : Bool) (m : Nat) (e : Int) : Int :=
  let q : Int := (Nat.log2 m : Int) + e - ((cls : Int) - 1)
  let k := roundInt rnd r s m e q
  (if k = 0 then (Nat.log2 m : Int) + e else (Nat.log2 k : Int) + q) + 127

/-- te_clamp: the exponent and whether magnitudes are capped (R43). -/
def teClamp (sat : Bool) (e : Int) : Nat × Bool :=
  if e < 0 then (0, false) else if e ≤ 254 then (e.toNat, false) else if sat then (254, true) else (255, false)

/-- The greatest of a list of integers, or a default. -/
def maxInt (d : Int) : List Int → Int
  | [] => d
  | a :: l => l.foldl (fun x y => if x < y then y else x) a

/-- A magnitude rounded at exponent E, capped where te_clamp asks for it (R42). -/
def teMag (cls rnd r : Nat) (s : Bool) (m : Nat) (e : Int) (ec : Nat × Bool) : Nat :=
  if ec.1 = 255 then 2 ^ cls - 1
  else
    let k := roundInt rnd r s m e ((ec.1 : Int) - 127 - ((cls : Int) - 1))
    if ec.2 && 2 ^ cls - 1 < k then 2 ^ cls - 1 else k

/-- Conversion of a block of values into TE class cls (R42 to R44); each value with its random value. -/
def teConvert (cls : Nat) (o : Rnd) (v : List (FVal × Nat)) : TeBlock :=
  let v := v.map fun p => match p.1 with
    | .inf s => if o.sat then (FVal.fin s (2 ^ cls - 1) (127 - ((cls : Int) - 1)), p.2) else p
    | _ => p
  let bad := v.any fun p => match p.1 with | .fin .. => false | _ => true
  let es := v.filterMap fun p => match p.1 with
    | .fin s m e => if m = 0 then none else some (sigExp cls o.mode p.2 s m e)
    | _ => none
  if bad then
    let c0 := if es.isEmpty then (0, false) else teClamp o.sat (maxInt 0 es)
    { e1 := 255, e0 := c0.1
      el := v.map fun p => match p.1 with
        | .fin s m e => ⟨s, false, if m = 0 then 0 else teMag cls o.mode p.2 s m e c0⟩
        | w => ⟨w.sign, true, 2 ^ cls - 1⟩ }
  else if es.isEmpty then { e1 := 0, e0 := 0, el := v.map fun p => ⟨p.1.sign, false, 0⟩ }
  else
    let top := maxInt 0 es
    let lim := top - ((cls / 2 : Nat) : Int)
    let low := maxInt top (es.filter fun e => e < lim)
    let c1 := teClamp o.sat top
    let c0 := teClamp o.sat low
    { e1 := c1.1, e0 := c0.1
      el := v.map fun p => match p.1 with
        | .fin s m e =>
          if m = 0 then ⟨s, false, 0⟩
          else
            let hi := decide (lim ≤ sigExp cls o.mode p.2 s m e)
            ⟨s, hi, teMag cls o.mode p.2 s m e (if hi then c1 else c0)⟩
        | w => ⟨w.sign, true, 0⟩ }

/-- Plane p of a block: sign, selector, then the magnitude from its most significant bit (R39). -/
def TeBlock.plane (b : TeBlock) (cls p : Nat) : Nat :=
  pack 1 (b.el.map fun t =>
    if p = 0 then b2n t.s else if p = 1 then b2n t.x else b2n (bit t.m (cls - 1 - (p - 2))))

/-- The exponent pair word (R40). -/
def TeBlock.exps (b : TeBlock) : Nat := b.e1 % 256 * 256 + b.e0 % 256

/-- The block that n elements of stored planes and an exponent pair give (R39, R40). -/
def teOfPlanes (cls n : Nat) (planes : List Nat) (exps : Nat) : TeBlock :=
  { e1 := bits exps 8 8, e0 := bits exps 0 8
    el := (List.range n).map fun i =>
      ⟨bit (nth 0 planes 0) i, bit (nth 0 planes 1) i,
        (List.range cls).foldl (fun a j => 2 * a + b2n (bit (nth 0 planes (2 + j)) i)) 0⟩ }

/-- An element of an MX block (R36): exponent bits, fraction bits, bias; the value without the scale. -/
def mxSmall (ew mw : Nat) (bias : Int) (x : Nat) : FVal :=
  let s := bit x (ew + mw)
  let ex := bits x mw ew
  let fr := bits x 0 mw
  if ex = 0 then .fin s fr (1 - bias - mw) else .fin s (fr + 2 ^ mw) ((ex : Int) - bias - mw)

/-- The element formats of MX (R36). -/
inductive MxKind where
  | e2m1 | e2m3 | e3m2 | e4m3 | e5m2
  deriving DecidableEq, Repr

/-- The value of an MX element under scale X (R36). -/
def mxValue (k : MxKind) (scale x : Nat) : FVal :=
  let v := match k with
    | .e2m1 => mxSmall 2 1 1 x
    | .e2m3 => mxSmall 2 3 1 x
    | .e3m2 => mxSmall 3 2 3 x
    | .e4m3 => e4m3.decode x
    | .e5m2 => e5m2.decode x
  if scale = 255 then .nan v.sign
  else match v with
    | .fin s m e => .fin s m (e + (scale : Int) - 127)
    | w => w

/-- Bits of an MX element. -/
def MxKind.width : MxKind → Nat
  | .e2m1 => 4
  | .e2m3 => 6
  | .e3m2 => 6
  | .e4m3 => 8
  | .e5m2 => 8

/-- The exact mappings of R45 (MXFP4 into TE3, E2M3 into TE5), where they apply. -/
def mxExact (k : MxKind) (cls scale : Nat) (xs : List Nat) : Option TeBlock :=
  let go (hiExp lowExp : Nat) (limit : FVal) (hiUnit loUnit : Int) (mw : Nat) : TeBlock :=
    if scale = 255 then { e1 := 255, e0 := 255, el := xs.map fun x => ⟨bit x (2 + mw), true, 2 ^ cls - 1⟩ }
    else
      { e1 := hiExp, e0 := lowExp
        el := xs.map fun x => match mxSmall 2 mw 1 x with
          | .fin s m e =>
            if m = 0 then ⟨s, false, 0⟩
            else
              let hi := !FVal.lt (.fin false m e) limit
              ⟨s, hi, roundInt 1 0 s m e (if hi then hiUnit else loUnit)⟩
          | w => ⟨w.sign, false, 0⟩ }
  match k with
  | .e2m1 => if cls = 3 ∧ (scale ≤ 252 ∨ scale = 255) then some (go (scale + 2) (scale + 1) (.fin false 2 0) 0 (-1) 1) else none
  | .e2m3 => if cls = 5 ∧ (scale ≤ 251 ∨ scale = 255) then some (go (scale + 3) (scale + 1) (.fin false 4 0) (-1) (-3) 3) else none
  | _ => none

/-- One MX block into TE: R45 where it applies, else exact values and R42. -/
def mxConvert (k : MxKind) (cls : Nat) (o : Rnd) (scale : Nat) (xs : List (Nat × Nat)) : TeBlock :=
  match mxExact k cls scale (xs.map (·.1)) with
  | some b => b
  | none => teConvert cls o (xs.map fun p => (mxValue k scale p.1, p.2))

/-- te_convert of f32 patterns. -/
def teOfF32 (cls : Nat) (o : Rnd) (v : List (Nat × Nat)) : TeBlock :=
  teConvert cls o (v.map fun p => (f32.decode p.1, p.2))

end Sys2Proof.Machine
end

