-- ==== Sys2Proof/Machine/Operands.lean ====
section
/-! DEFINITION. Vector operands: element types, elements by lane, write enables, results under the mask, and the
stochastic numbers of elements (R94, R132 to R135). -/

namespace Sys2Proof.Machine

/-- Width of an element type in bits (R94, R132). -/
def vtyWidth (t : Nat) : Nat :=
  match t with
  | 0 => 32 | 1 => 64 | 2 => 16 | 3 => 16 | 4 => 8 | 5 => 8 | 6 => 32 | 7 => 32 | 8 => 16 | 9 => 16 | 10 => 8 | 11 => 8
  | _ => 64

/-- The floating format of a type, where it is one. -/
def vtyFmt (t : Nat) : Option Fmt :=
  match t with
  | 0 => some f32 | 1 => some f64 | 2 => some bf16 | 3 => some f16 | 4 => some e4m3 | 5 => some e5m2 | _ => none

/-- Whether an integer type is two's complement. -/
def vtySigned (t : Nat) : Bool := t == 6 || t == 8 || t == 10 || t == 12

/-- f32, f64, bf16, f16 (R136). -/
def vtyArith (t : Nat) : Bool := decide (t ≤ 3)
def vtyInteger (t : Nat) : Bool := decide (6 ≤ t)

def State.vty (s : State) : Nat := fmtVty s.fmtn
def State.vw (s : State) : Nat := vtyWidth s.vty
/-- The format of fmt.VTY; f32 where it is none. -/
def State.vf (s : State) : Fmt := (vtyFmt s.vty).getD f32
def State.rnd (s : State) : Rnd := fmtR s.fmtn

/-- Whether element e is enabled by a mask (R134). -/
def elemOn (w mask e : Nat) : Bool := bit mask (laneOf w e)

/-- Write enables for elements of w bits under a mask; a 64-bit element follows its even lane (R134). -/
def enables (w mask : Nat) : VReg :=
  ofElems w ((List.range (2048 / w)).map fun e => if elemOn w mask e then 2 ^ w - 1 else 0)

/-- Go on under the listed types; any other traps illegal instruction with detail 1 (R133). -/
def State.types (s : State) (good : Bool) (k : State → State) : State := s.unless (!good) 0x01 1 k

/-- A vector result of elements of w bits under the top of the mask stack (R134). -/
def State.vresult (s : State) (d lat w : Nat) (l : List Nat) : State :=
  s.emit (.land lat (.v d) (.vec (enables w s.top) (ofElems w l) 0))

/-- A vector result that writes every lane. -/
def State.vresultAll (s : State) (d lat w : Nat) (l : List Nat) : State :=
  s.emit (.land lat (.v d) (.vec (BitVec.allOnes 2048) (ofElems w l) 0))

/-- The elements of a source field. -/
def State.velems (s : State) (w k : Nat) : List Nat := elems w (s.rv w k)

/-- The random value of result element e of a w-bit type (R49, R135). -/
def State.elemRandom (s : State) (w e : Nat) : Nat :=
  if fmtRnd s.fmtn = 4 then
    let st := s.stream s.fmtn
    sr16 st.1 st.2 (laneOf w e) (partOf w e)
  else 0

/-- One source, element by element, each result with its random value; the bundle reserves for 64 results in mode rsr
(R50). -/
def State.vmap1 (s : State) (d a lat : Nat) (f : Nat → Nat → Nat) : State :=
  let w := s.vw
  (s.vresult d lat w ((s.velems w a).zipIdx.map fun p => f p.1 (s.elemRandom w p.2)))

def State.vmap2 (s : State) (d a b lat : Nat) (f : Nat → Nat → Nat → Nat) : State :=
  let w := s.vw
  s.vresult d lat w (((s.velems w a).zip (s.velems w b)).zipIdx.map fun p => f p.1.1 p.1.2 (s.elemRandom w p.2))

def State.vmap3 (s : State) (d a b c lat : Nat) (f : Nat → Nat → Nat → Nat → Nat) : State :=
  let w := s.vw
  s.vresult d lat w ((((s.velems w a).zip (s.velems w b)).zip (s.velems w c)).zipIdx.map fun p =>
    f p.1.1.1 p.1.1.2 p.1.2 (s.elemRandom w p.2))

/-- A vector instruction that rounds reserves its counter value after it has drawn (R50). -/
def State.reserve64 (_s t : State) : State := t.reserve t.fmtn 64

/-- The lanes of a source field as 32-bit words. -/
def State.vlanes (s : State) (k : Nat) : List Nat := elems 32 (s.rv 32 k)

end Sys2Proof.Machine
end

