-- ==== Sys2Proof/Machine/Memory.lean ====
section
/-! DEFINITION. The memory forms as they issue (R239 to R265): addresses, checks, and what they hand to the commit. -/

namespace Sys2Proof.Machine

/-- Whether a release-ordered remote store or atomic of the strand has not performed (R247, R284). -/
def State.remoteRelease (s : State) : Bool :=
  s.remotes.any fun p => p.2.kind == 0 && p.2.uid == s.me.uid && bit p.2.op 55

/-- Whether an ld.acq or atomic of acquire order has not returned; one outstanding at a trap holds nothing in the handler
(R191, R247). -/
def Ctx.acquiring (x : Ctx) : Bool := x.loads.any fun l => l.acquire.isSome && !l.held

/-- Whether an acquire-ordered load or atomic of the strand at a link FIFO has not returned (R284). -/
def State.remoteAcquire (s : State) : Bool :=
  s.remotes.any fun p => p.2.kind == 0 && p.2.uid == s.me.uid && bit p.2.op 54 && bits p.2.op 60 4 != 1

/-- Whether no release and no acquire of the strand holds back its memory bundles (R247, R284). -/
def State.memOpen (s : State) : Bool :=
  s.me.rel.isNone && !s.me.acquiring && !s.remoteAcquire && decide (s.me.acqTill ≤ s.bun.t) && !s.remoteRelease

/-- A memory form waits while a release or an acquire of the strand is pending (R247, R284). -/
def State.memGate (s : State) (go : State → State) : State := if s.memOpen then go s else s.waitFor 7 0

/-! ### Mirage windows (R233, R402) -/

/-- Where window entry w lies, and the entry as one 512-bit number (R402); one that cannot be read is no window. -/
def State.windowPa (s : State) (w : Nat) : Nat := bits s.wtBase.toNat 18 26 * 2 ^ 18 + 64 * w
def State.window (s : State) (w : Nat) : Nat := (s.tableAt (s.windowPa w) 64).getD 0

/-- The windows whose entries can be other than zero: those with a listed byte, or written under another key. -/
def State.windowsWritten (s : State) : List Nat :=
  let base := bits s.wtBase.toNat 18 26 * 2 ^ 18
  let inTable (a : Nat) : Option Nat := if base ≤ a ∧ a < base + 262144 then some ((a - base) / 64) else none
  if s.keyMark 0 ≠ 0 then List.range 4096
  else (s.mem.filterMap (fun p => inTable p.1) ++ s.keyTags.filterMap fun p => inTable (64 * p.1)).eraseDups

/-- The mirage windows of a space: visible buffer, hidden buffer, size (R233). -/
def State.mirages (s : State) (space : Nat) : List (Nat × Nat × Nat) :=
  s.windowsWritten.filterMap fun k =>
    let e := s.window k
    let base := bits e 365 56
    let shadow := bits e 309 56
    if !bit e 511 || !bit e 510 || bits e 499 4 != space then none
    else if bit e 509 then some (shadow, base, bits e 269 40) else some (base, shadow, bits e 269 40)

/-- An address that a mirage window shows, as where its hidden buffer has it (R180, R233). -/
def hiddenAddress (l : List (Nat × Nat × Nat)) (va : Nat) : Option Nat :=
  (l.find? fun m => decide (m.1 ≤ va ∧ va < m.1 + m.2.2)).map fun m => m.2.1 + (va - m.1)

/-- Where a store, an atomic or a copy at a virtual address writes: the shadow of the mirage window that shows it, if any (R233). -/
def State.shadowed (s : State) (space va : Nat) : Nat :=
  if isAperture va then va else (hiddenAddress (s.mirages space) va).getD va

/-! ### Loads and stores (R240 to R242) -/

/-- Bytes of a type code (R240). -/
def typeBytes (t : Nat) : Nat := 2 ^ (t / 2)

/-- ea = s[a] + a sign-extended offset, modulo 2^64 (R239). -/
def State.ea (s : State) (a w o : Nat) : Nat := (s.rs a + wi (sext w o)).toNat

def execLd (d a t o : Nat) (s : State) : Answer :=
  .next (s.memGate fun s =>
    let ea := s.ea a 13 o
    let n := typeBytes t
    s.access (s.locate ea n n true false) fun pa key g =>
      s.emit (if g then .loadGlobal d t pa ea key none else .loadPad d t pa))

/-- st (R242). At an address that a mirage window shows it writes into the window, so into its shadow (R233, R283; DEDUCED,
log entry 36). -/
def execSt (d a t o : Nat) (s : State) : Answer :=
  .next (s.memGate fun s =>
    let ea := s.shadowed s.me.space (s.ea a 13 o)
    let n := typeBytes t
    s.access (s.locate ea n n false true) fun pa key g => s.emit (.store n pa ea key (s.rs d) g))

/-- A spill form in SA makes its bundle a memory bundle; in SB it does not (R247). -/
def State.spillGate (s : State) (go : State → State) : State := if s.bun.slot = 1 then s.memGate go else go s

/-- ldx and stx (R215, R244): the offset field counts bytes. -/
def execLdx (d o : Nat) (s : State) : Answer := .next (s.spillGate fun s => s.emit (.spillLoad d o))
def execStx (d o : Nat) (s : State) : Answer := .next (s.spillGate fun s => s.emit (.spillStore o (s.rs d) 0))

/-- ld.acq (R246): size 4 or 8, zero-extended. -/
def execLdAcq (d a sc z o : Nat) (s : State) : Answer :=
  .next (s.memGate fun s =>
    let ea := s.ea a 11 o
    let n := 4 + 4 * z
    s.access (s.locate ea n n true false) fun pa key g =>
      if g then s.emit (.loadGlobal d (4 + 2 * z) pa ea key (some sc))
      else (s.emit (.loadPad d (4 + 2 * z) pa)).emit (.acquirePad sc))

/-- st.rel (R246, R247); at an address that a mirage window shows, into the shadow. -/
def execStRel (d a sc z o : Nat) (s : State) : Answer :=
  .next (s.memGate fun s =>
    let ea := s.shadowed s.me.space (s.ea a 11 o)
    let n := 4 + 4 * z
    s.access (s.locate ea n n false true) fun pa key g => s.emit (.storeRel sc n pa ea key (s.rs d) g))

/-! ### Atomics (R248, R249) -/

/-- An amo or cas: needs both rights; a release order performs under its scope, an acquire order holds what follows. At
an address that a mirage window shows it acts on the shadow (R233). -/
def State.atomic (s : State) (op d a : Nat) (src expect : Word) (sc ord z : Nat) : Answer :=
  .next (s.memGate fun s =>
    let ea := s.shadowed s.me.space (s.rsn a)
    let n := 4 + 4 * z
    s.access (s.locate ea n n true true) fun pa key g =>
      s.emit (.rmw d ⟨op, n, src, expect⟩ pa ea key g (if 2 ≤ ord then some sc else none) (if ord % 2 = 1 then some sc else none)))

def execAmoAdd (d a b sc o z : Nat) (s : State) : Answer := s.atomic 0 d a (s.rs b) 0 sc o z
def execAmoAnd (d a b sc o z : Nat) (s : State) : Answer := s.atomic 1 d a (s.rs b) 0 sc o z
def execAmoOr (d a b sc o z : Nat) (s : State) : Answer := s.atomic 2 d a (s.rs b) 0 sc o z
def execAmoXor (d a b sc o z : Nat) (s : State) : Answer := s.atomic 3 d a (s.rs b) 0 sc o z
def execAmoMinI (d a b sc o z : Nat) (s : State) : Answer := s.atomic 4 d a (s.rs b) 0 sc o z
def execAmoMaxI (d a b sc o z : Nat) (s : State) : Answer := s.atomic 5 d a (s.rs b) 0 sc o z
def execAmoMinN (d a b sc o z : Nat) (s : State) : Answer := s.atomic 6 d a (s.rs b) 0 sc o z
def execAmoMaxN (d a b sc o z : Nat) (s : State) : Answer := s.atomic 7 d a (s.rs b) 0 sc o z
def execAmoSwap (d a b sc o z : Nat) (s : State) : Answer := s.atomic 8 d a (s.rs b) 0 sc o z
def execAmoFadd (d a b sc o z : Nat) (s : State) : Answer := s.atomic 9 d a (s.rs b) 0 sc o z
/-- cas: d is the expected value and the destination (R249). -/
def execCas (d a b sc o z : Nat) (s : State) : Answer := s.atomic 10 d a (s.rs b) (s.rs d) sc o z

/-! ### Fences and publish (R251 to R254) -/

def execFence (d sc : Nat) (s : State) : Answer := .next (s.memGate fun s => s.emit (.fence sc d))

def execFwait (a : Nat) (s : State) : Answer :=
  .next (s.memGate fun s =>
    let t := s.rsn a
    s.unless (bits t 48 13 != 0 || decide (4 < bits t 61 3)) 0x01 0 fun s => s.emit (.fwait (s.rs a)))

/-- Fields of a window handle (R253). -/
def handleKey (h : Nat) : Nat := bits h 32 32
def handleWin (h : Nat) : Nat := bits h 15 12
def handleDev (h : Nat) : Nat := bits h 0 15

/-- Requester admitted by RQM (R402). -/
def State.admits (s : State) (e dev : Nat) : Bool :=
  match bits e 503 2 with
  | 0 => true
  | 1 => decide (bits e 436 15 ≤ dev ∧ dev ≤ bits e 421 15)
  | 2 => bit ((s.tableAt (bits e 237 32 * 4096 + dev / 8) 1).getD 0) (dev % 8)
  | _ => false

/-- Whether a check of window w by a device meets a retired granule: that of its entry, or of the bitmap it needs (R413). -/
def State.windowRetired (s : State) (w dev : Nat) : Bool :=
  let e := s.window w
  s.retired.contains (s.windowPa w / 65536) ||
    (bits e 503 2 == 2 && bit e 511 && s.retired.contains ((bits e 237 32 * 4096 + dev / 8) / 65536))

/-- Checks 1 to 4 of R232 on a request: the status, 0 when they pass; right: 3 read, 2 write, 1 deposit, 0 atomic. -/
def State.windowCheck (s : State) (w key dev right : Nat) : Nat :=
  let e := s.window w
  if w < 4096 ∧ s.windowRetired w dev then 6
  else if 4096 ≤ w ∨ !bit e 511 ∨ bits e 269 40 = 0 then 1
  else if bits e 451 32 ≠ key then 2
  else if !s.admits e dev then 3
  else if !bit (bits e 505 4) right then 4
  else 0

/-- What a publish meets at the owner (R253): a window that is not a mirage window refuses with 4. -/
def State.publishCheck (s : State) (h dev : Nat) : Nat :=
  let st := s.windowCheck (handleWin h) (handleKey h) dev 2
  if st ≠ 0 then st else if bit (s.window (handleWin h)) 510 then 0 else 4

/-- The rstat bits 47:0 of a failure (R353): status, party, channel, device, window, operation. -/
def rstatWord (status party ch dev win op : Nat) : Nat :=
  status * 2 ^ 40 + party * 2 ^ 38 + ch * 2 ^ 35 + dev * 2 ^ 20 + win * 2 ^ 8 + op

/-- publish (R253, R254): a refusal at the strand's own device traps before commit. -/
def execPublish (a sc : Nat) (s : State) : Answer :=
  .next (s.memGate fun s =>
    let h := s.rsn a
    s.unless (bits h 27 5 != 0) 0x01 0 fun s =>
      let st := if handleDev h = s.dev then s.publishCheck h s.dev else 0
      s.unless (st != 0) 0x0F (rstatWord st 0 0 s.dev (handleWin h) 0x1C) fun s => s.emit (.publish sc [s.rs a]))

/-! ### Transform commands (R255 to R258) -/

/-- Bits of an element of a format code; MX formats also have a scale byte for each 32 (R255, R256). -/
def xfBits (f : Nat) : Nat :=
  match f with | 0 => 16 | 1 => 16 | 2 => 8 | 3 => 8 | 4 => 4 | 5 => 6 | 6 => 6 | 7 => 8 | 8 => 8 | _ => 32
def xfMx (f : Nat) : Bool := decide (4 ≤ f ∧ f ≤ 8)

/-- K, Q and m of a size word (R256). -/
def szK (z : Nat) : Nat := bits z 0 16
def szQ (z : Nat) : Nat := bits z 16 16
def szM (z : Nat) : Nat := bits z 32 5

/-- The size word of split and merge is legal (R256). -/
def szTeGood (z : Nat) : Bool :=
  z >>> 37 == 0 && szK z % 32 == 0 && szK z != 0 && szQ z % 128 == 0 && decide (128 ≤ szQ z ∧ szQ z ≤ 4096) &&
    decide (2 ≤ szM z ∧ szM z ≤ 24)

/-- Bytes of Q rows of K elements in a format, scales included. -/
def xfRowsBytes (f z : Nat) : Nat := szQ z * szK z * xfBits f / 8 + (if xfMx f then szQ z * (szK z / 32) else 0)

/-- Bytes of the plane array alone, and with its exponent array (R256). -/
def xfPlaneBytes (z : Nat) : Nat := szQ z * (szK z / 32) * (szM z + 2) * 4
def xfTeBytes (z : Nat) : Nat := xfPlaneBytes z + szQ z * (szK z / 32) * 2

/-- An xform: illegal size word, addresses in the aperture, alignment, bounds, overlap, in that order (R84, R258). -/
def State.xform (s : State) (i : Instr) (d : Nat) (a : Option Nat) (b : Nat) (good : Bool) (srcLen dstLen sAl dAl results : Nat) :
    Answer :=
  .next (s.memGate fun s =>
    let dst := s.rsn d
    let src := match a with | some k => s.rsn k | none => dst
    let dOff := bits dst 0 40
    let sOff := bits src 0 40
    let (base, size) := s.allot s.bun.core s.me.crew
    s.unless (!good) 0x01 0 fun s =>
    s.unless (!isAperture dst) 0x03 (dst % 2 ^ 56) fun s =>
    s.unless (!isAperture src) 0x03 (src % 2 ^ 56) fun s =>
    s.unless (dst % dAl != 0) 0x05 (dst % 2 ^ 56) fun s =>
    s.unless (a.isSome && src % sAl != 0) 0x05 (src % 2 ^ 56) fun s =>
    s.unless (dstLen != 0 && decide (size < dOff + dstLen)) 0x06 dOff fun s =>
    s.unless (a.isSome && srcLen != 0 && decide (size < sOff + srcLen)) 0x06 sOff fun s =>
    s.unless (a.isSome && decide (sOff < dOff + dstLen ∧ dOff < sOff + srcLen)) 0x01 0 fun s =>
      let st := s.stream s.fmtn
      let x : Xform := { id := 0, ctx := s.bun.ctx, core := s.bun.core, instr := i, dst := base + dOff, src := base + sOff
                         size := s.rs b, fmt := s.mb.fmt, seed := st.1, ctr := st.2, seq := 0, uid := s.me.uid }
      (if results = 0 then s else s.reserve s.fmtn results).emit (.xform x))

def execXformSplit (d a b f : Nat) (s : State) : Answer :=
  let z := s.rsn b
  s.xform (.xformSplit d a b f) d (some a) b (szTeGood z) (xfRowsBytes f z) (xfTeBytes z) 4 4 (szQ z * szK z)
def execXformMerge (d a b f : Nat) (s : State) : Answer :=
  let z := s.rsn b
  s.xform (.xformMerge d a b f) d (some a) b (szTeGood z) (xfTeBytes z) (xfRowsBytes f z) 4 4 (szQ z * szK z)
def execXformConv (d a b f g : Nat) (s : State) : Answer :=
  let n := s.rsn b
  s.xform (.xformConv d a b f g) d (some a) b (n >>> 32 == 0) (n * xfBits f / 8) (n * xfBits g / 8) 4 4 (if f = g then 0 else n)
def execXformZero (d b : Nat) (s : State) : Answer :=
  let n := s.rsn b
  s.xform (.xformZero d b) d none b (n >>> 32 == 0 && n % 4 == 0) 0 n 4 4 0
def execXformBpack (d a b : Nat) (s : State) : Answer :=
  let n := s.rsn b
  s.xform (.xformBpack d a b) d (some a) b (n >>> 16 == 0) (4096 * n) (4160 * n) 4 64 0
def execXformBunpack (d a b : Nat) (s : State) : Answer :=
  let n := s.rsn b
  s.xform (.xformBunpack d a b) d (some a) b (n >>> 16 == 0) (4160 * n) (4096 * n) 64 4 0

/-! ### Vector loads and stores (R259, R260) -/

/-- The 64 words of a vector access by mode: offsets in the allotment (R217, R259). -/
def vectorOffsets (mode o : Nat) : List Nat :=
  let q := o >>> 14
  let w := bits o 2 12
  let r := w / 64
  let c := w % 64
  (List.range 64).map fun j =>
    let rj := if mode = 1 then (r + j) % 64 else r
    let cj := if mode = 0 then (c + j) % 64 else if mode = 1 then c else j
    q * 16384 + (rj * 64 + cj) * 4

/-- A vector access in the aperture: translation, alignment, bounds of its square (R259). -/
def State.vaccess (s : State) (a mode : Nat) (go : List Nat → State) : State :=
  let ea := s.rsn a
  let o := bits ea 0 40
  let (base, size) := s.allot s.bun.core s.me.crew
  if !isAperture ea then s.trap 0x03 (ea % 2 ^ 56)
  else if ea % (if mode = 2 then 256 else 4) ≠ 0 then s.trap 0x05 ea
  else if size < (o >>> 14) * 16384 + 16384 then s.trap 0x06 o
  else go ((vectorOffsets mode o).map (base + ·))

def execVld (d a m : Nat) (s : State) : Answer :=
  .next (s.memGate fun s => s.vaccess a m fun pas => s.emit (.vload d (enables 32 s.top) pas 5))

/-- The words that enabled lanes store. -/
def laneStores (mask : Nat) (pas ls : List Nat) : List (Nat × Nat) :=
  ((pas.zip ls).zipIdx.filter fun p => bit mask p.2).map (·.1)

def execVst (a c m : Nat) (s : State) : Answer :=
  .next (s.memGate fun s => s.vaccess a m fun pas => s.emit (.vstore (laneStores s.top pas (s.vlanes c))))

/-- The scratchpad bank of a word at an allotment offset (R217). -/
def bankOfWord (o : Nat) : Nat := (bits o 2 12 / 64 + bits o 2 12 % 64) % 64

/-- The greatest number of distinct words in one bank, at least 1 (R260). -/
def bankConflicts (os : List Nat) : Nat :=
  let ds := os.eraseDups.map bankOfWord
  ds.foldl (fun m b => max m (ds.count b)) 1

/-- The lanes a gather or scatter reaches: offsets of the enabled lanes, with translation, alignment and bounds checked
for those alone (R260). -/
def State.gather (s : State) (a b : Nat) (go : List Nat → List Nat → State) : State :=
  let eas := (s.vlanes b).map fun x => (s.rs a + wd (4 * x)).toNat
  let on := (eas.zipIdx.filter fun p => bit s.top p.2).map (·.1)
  let (base, size) := s.allot s.bun.core s.me.crew
  match on.find? (fun e => !isAperture e), on.find? (fun e => e % 4 != 0), on.find? (fun e => decide (size < bits e 0 40 + 4)) with
  | some e, _, _ => s.trap 0x03 (e % 2 ^ 56)
  | none, some e, _ => s.trap 0x05 e
  | none, none, some e => s.trap 0x06 (bits e 0 40)
  | none, none, none => go (eas.map fun e => base + bits e 0 40) (on.map fun e => bits e 0 40)

/-- Later bundles issue k - 1 cycles later (R260). -/
def State.slow (s : State) (k : Nat) : State := { s with bun := { s.bun with extra := k - 1 } }

def execVgat (d a b : Nat) (s : State) : Answer :=
  .next (s.memGate fun s => s.gather a b fun pas os =>
    let k := bankConflicts os
    (s.slow k).emit (.vload d (enables 32 s.top) pas (4 + k)))

def execVscat (a b c : Nat) (s : State) : Answer :=
  .next (s.memGate fun s => s.gather a b fun pas os =>
    (s.slow (bankConflicts os)).emit (.vstore (laneStores s.top pas (s.vlanes c))))

/-! ### Phases and seals (R261 to R264) -/

/-- phase.start: n windows, mask m (R197, R261); the list is aligned before the mask is in bounds (R84). -/
def execPhaseStart (a n m : Nat) (s : State) : Answer :=
  .next (s.memGate fun s =>
    s.unless s.me.phase.opened 0x01 0 fun s =>
      let list : Access := if n = 0 then .at_ 0 0 false else s.locatePad (s.rsn a) (8 * n) 8
      match list with
      | .fault 0x03 d => s.trap 0x03 d
      | .fault 0x05 d => s.trap 0x05 d
      | _ =>
        s.unless (m &&& s.myCrew.accm != m) 0x06 (trailZeros 4 (m ^^^ (m &&& s.myCrew.accm))) fun s =>
          s.access list fun pa _ _ => s.emit (.phaseStart m pa n))

/-- Copies issued in the open phase that have not completed (R262). -/
def State.phaseCopies (s : State) (c : Nat) (uid : Nat) : Bool :=
  s.copies.any fun p => p.2.core == c && p.2.uid == uid && p.2.phase

/-- The rstat bits of the first listed window that this device would refuse; 0 for none (R254, R262). -/
def State.phaseRefusal (s : State) : Nat :=
  (s.me.phase.windows.findSome? fun h =>
    let h := h.toNat
    let st := if handleDev h = s.dev then s.publishCheck h s.dev else 0
    if st = 0 then none else some (rstatWord st 0 0 s.dev (handleWin h) 0x1C)).getD 0

/-- phase.commit at a scope (R261, R262). -/
def State.phaseCommitAt (s : State) (sc : Nat) : Answer :=
  .next (s.memGate fun s =>
    s.unless (!s.me.phase.opened) 0x01 0 fun s =>
      if s.phaseCopies s.bun.core s.me.uid then s.waitFor 8 0
      else
        s.unless (s.me.phase.windows.any fun h => bits h.toNat 27 5 != 0) 0x01 0 fun s =>
        s.unless (s.phaseRefusal != 0) 0x0F s.phaseRefusal fun s => s.emit (.phaseCommit sc))

def execPhaseCommitCore (s : State) : Answer := s.phaseCommitAt 0
def execPhaseCommitClu (s : State) : Answer := s.phaseCommitAt 1
def execPhaseCommitDev (s : State) : Answer := s.phaseCommitAt 2
def execPhaseCommitSys (s : State) : Answer := s.phaseCommitAt 3
def execPhaseCommitRcv (s : State) : Answer := s.phaseCommitAt 4

def execPhaseAbort (s : State) : Answer :=
  .next (s.memGate fun s => s.unless (!s.me.phase.opened) 0x01 0 fun s => s.emit .phaseAbort)

/-- ckseal (R264): the body's first 64 bytes are checked for translation, both rights and alignment. -/
def execCkseal (d a n : Nat) (s : State) : Answer :=
  .next (s.memGate fun s =>
    let ea := s.rsn a
    if isAperture ea then s.trap 0x03 ea
    else s.access (s.locate ea 64 64 true true) fun _ _ _ => s.emit (.ckseal d ea n))

end Sys2Proof.Machine
end

