-- ==== Sys2Proof/Machine/Vector.lean ====
section
/-! DEFINITION. The V map but for its memory forms (R132 to R155). -/

namespace Sys2Proof.Machine

/-! ### vfp, vfm (R136, R137) -/

/-- Two floating sources, computed exactly and rounded once. -/
def State.vfp (s : State) (d a b : Nat) (f : FVal → FVal → FVal) : Answer :=
  .next (s.types (vtyArith s.vty) fun s =>
    s.reserve64 (s.vmap2 d a b 5 fun x y r => s.vf.arith s.rnd r (f (s.vf.decode x) (s.vf.decode y))))

def execVfadd (d a b : Nat) (s : State) : Answer := s.vfp d a b (FVal.add s.rnd.mode)
def execVfsub (d a b : Nat) (s : State) : Answer := s.vfp d a b fun x y => FVal.add s.rnd.mode x y.neg
def execVfmul (d a b : Nat) (s : State) : Answer := s.vfp d a b FVal.mul
def execVfmin (d a b : Nat) (s : State) : Answer := s.vfp d a b FVal.minimum
def execVfmax (d a b : Nat) (s : State) : Answer := s.vfp d a b FVal.maximum

/-- Magnitude bits of a, sign bit of b (R136). -/
def execVfsgn (d a b : Nat) (s : State) : Answer :=
  .next (s.types (vtyArith s.vty) fun s =>
    s.vmap2 d a b 5 fun x y _ => x % 2 ^ (s.vw - 1) + bits y (s.vw - 1) 1 * 2 ^ (s.vw - 1))

/-- The fused forms: ±(a × b) ± c rounded once; ∞ × 0 is NaN whatever c (R137). -/
def State.vfm (s : State) (d a b c : Nat) (np nc : Bool) : Answer :=
  .next (s.types (vtyArith s.vty) fun s =>
    s.reserve64 (s.vmap3 d a b c 5 fun x y z r =>
      let p := FVal.mul (s.vf.decode x) (s.vf.decode y)
      let w := s.vf.decode z
      s.vf.arith s.rnd r (FVal.add s.rnd.mode (if np then p.neg else p) (if nc then w.neg else w))))

def execVfma (d a b c : Nat) (s : State) : Answer := s.vfm d a b c false false
def execVfms (d a b c : Nat) (s : State) : Answer := s.vfm d a b c false true
def execVnfma (d a b c : Nat) (s : State) : Answer := s.vfm d a b c true false
def execVnfms (d a b c : Nat) (s : State) : Answer := s.vfm d a b c true true

/-! ### vint (R138) -/

/-- Two integer sources, element by element, latency 3. -/
def State.vint2 (s : State) (d a b : Nat) (f : Bool → Nat → Nat → Nat → Nat) : Answer :=
  .next (s.types (vtyInteger s.vty) fun s => s.vmap2 d a b 3 fun x y _ => f (vtySigned s.vty) s.vw x y)

def execViadd (d a b : Nat) (s : State) : Answer := s.vint2 d a b fun _ w x y => (x + y) % 2 ^ w
def execVisub (d a b : Nat) (s : State) : Answer := s.vint2 d a b fun _ w x y => (x + 2 ^ w - y) % 2 ^ w
def execVimul (d a b : Nat) (s : State) : Answer := s.vint2 d a b fun _ w x y => x * y % 2 ^ w
def execVimulh (d a b : Nat) (s : State) : Answer :=
  s.vint2 d a b fun sg w x y => wrap w (intOf sg w x * intOf sg w y / ((2 ^ w : Nat) : Int))

/-- Bitwise over all 2048 bits under any type; lanes follow the mask in elements of the type (R134, R138). -/
def State.vbits (s : State) (d a b : Nat) (f : VReg → VReg → VReg) : Answer :=
  .next (s.emit (.land 3 (.v d) (.vec (enables s.vw s.top) (f (s.rv s.vw a) (s.rv s.vw b)) 0)))

def execVand (d a b : Nat) (s : State) : Answer := s.vbits d a b fun x y => x &&& y
def execVor (d a b : Nat) (s : State) : Answer := s.vbits d a b fun x y => x ||| y
def execVxor (d a b : Nat) (s : State) : Answer := s.vbits d a b fun x y => x ^^^ y
def execVandn (d a b : Nat) (s : State) : Answer := s.vbits d a b fun x y => x &&& ~~~y
def execVshl (d a b : Nat) (s : State) : Answer := s.vint2 d a b fun _ w x y => (x <<< (y % w)) % 2 ^ w
def execVshr (d a b : Nat) (s : State) : Answer := s.vint2 d a b fun _ w x y => x >>> (y % w)
def execVsar (d a b : Nat) (s : State) : Answer :=
  s.vint2 d a b fun _ w x y => wrap w (sext w x / ((2 ^ (y % w) : Nat) : Int))
def execVimin (d a b : Nat) (s : State) : Answer :=
  s.vint2 d a b fun sg w x y => if intOf sg w y < intOf sg w x then y else x
def execVimax (d a b : Nat) (s : State) : Answer :=
  s.vint2 d a b fun sg w x y => if intOf sg w x < intOf sg w y then y else x
def execViadds (d a b : Nat) (s : State) : Answer :=
  s.vint2 d a b fun sg w x y => let r := intRange sg w; wrap w (clamp r.1 r.2 (intOf sg w x + intOf sg w y))
def execVisubs (d a b : Nat) (s : State) : Answer :=
  s.vint2 d a b fun sg w x y => let r := intRange sg w; wrap w (clamp r.1 r.2 (intOf sg w x - intOf sg w y))
def execViabs (d a : Nat) (s : State) : Answer :=
  .next (s.types (vtySigned s.vty) fun s => s.vmap1 d a 3 fun x _ => wrap s.vw (sext s.vw x).natAbs)
def execVineg (d a : Nat) (s : State) : Answer :=
  .next (s.types (vtyInteger s.vty) fun s => s.vmap1 d a 3 fun x _ => (2 ^ s.vw - x) % 2 ^ s.vw)

/-! ### Compare and select (R139, R140) -/

/-- The conditions of R139 on two elements of a type. -/
def elemCond (t k x y : Nat) : Bool :=
  match vtyFmt t with
  | some f =>
    let u := f.decode x
    let v := f.decode y
    match k with
    | 0 => u.eqv v
    | 1 => !u.eqv v
    | 2 => u.lt v
    | 3 => u.lt v || u.eqv v
    | 4 => v.lt u
    | 5 => v.lt u || u.eqv v
    | _ => u.isNan || v.isNan
  | none =>
    let u := intOf (vtySigned t) (vtyWidth t) x
    let v := intOf (vtySigned t) (vtyWidth t) y
    match k with
    | 0 => decide (u = v)
    | 1 => decide (u ≠ v)
    | 2 => decide (u < v)
    | 3 => decide (u ≤ v)
    | 4 => decide (v < u)
    | _ => decide (v ≤ u)

/-- The types a compare accepts: no 8-bit float; un only floats (R139). -/
def cmpTypes (t k : Nat) : Bool := if vtyInteger t then k != 6 else vtyArith t

/-- 3 for integer types, 5 for floating (R75, R139). -/
def cmpLat (t : Nat) : Nat := if vtyInteger t then 3 else 5

def execVcmp (d a b k : Nat) (s : State) : Answer :=
  .next (s.types (cmpTypes s.vty k) fun s =>
    s.vmap2 d a b (cmpLat s.vty) fun x y _ => if elemCond s.vty k x y then 2 ^ s.vw - 1 else 0)

/-- The mask of a pushing compare: each lane the condition on its element, and the top (R139). -/
def State.cmpMask (s : State) (a b k : Nat) : Word :=
  let w := s.vw
  let l := ((s.velems w a).zip (s.velems w b)).map fun p => b2n (elemCond s.vty k p.1 p.2)
  wd (if w = 64 then pack 2 (l.map (· * 3)) else pack 1 l) &&& s.mb.top

def execVcmpm (a b k : Nat) (s : State) : Answer :=
  .next (s.types (cmpTypes s.vty k && decide (32 ≤ s.vw)) fun s => s.pushMask (cmpLat s.vty) (s.cmpMask a b k))

/-- A choice lane by lane, latency 3. Each 32-bit lane is written by its own mask bit, whatever VTY is: R134 as it stands for
32-bit elements (DESIGN CHOICE, log entry 31). -/
def State.vselect (s : State) (d a b c : Nat) (f : Nat → Bool) : Answer :=
  .next (s.vresult d 3 32 ((((s.vlanes a).zip (s.vlanes b)).zip (s.vlanes c)).map fun p =>
    if f p.2 then p.1.1 else p.1.2))

def execVsel (d a b c : Nat) (s : State) : Answer := s.vselect d a b c fun z => z != 0
def execVsels (d a b c : Nat) (s : State) : Answer := s.vselect d a b c fun z => bit z 31

/-! ### Conversion (R141, R142) -/

/-- conv of R141 between two type codes. -/
def convElem (src dst : Nat) (o : Rnd) (r x : Nat) : Nat :=
  if src = dst then x
  else
    match vtyFmt src, vtyFmt dst with
    | some f, some g => g.convert o r (f.decode x)
    | some f, none => (f.decode x).toInteger o r (vtySigned dst) (vtyWidth dst)
    | none, some g => g.convert o r (FVal.ofInt (intOf (vtySigned src) (vtyWidth src) x))
    | none, none =>
      let i := intOf (vtySigned src) (vtyWidth src) x
      if vtyWidth src < vtyWidth dst then wrap (vtyWidth dst) i
      else if o.sat then let q := intRange (vtySigned dst) (vtyWidth dst); wrap (vtyWidth dst) (clamp q.1 q.2 i)
      else x % 2 ^ vtyWidth dst

/-- Whether a conversion rounds in mode rsr when RND asks for it: to or from a floating type, types not equal. -/
def convRounds (src dst : Nat) : Bool := src != dst && ((vtyFmt src).isSome || (vtyFmt dst).isSome)

/-- vcvt (R141): part p of the wider side. -/
def execVcvt (d a p t : Nat) (s : State) : Answer :=
  let ws := vtyWidth t
  let wt := s.vw
  let k := (max ws wt) / (min ws wt)
  .next (s.unless (decide (4 < k ∨ k ≤ p)) 0x01 0 fun s =>
    let src := elems ws (s.rv ws a)
    let nd := 2048 / wt
    let part := if ws ≤ wt then p * nd else 0
    let base := if wt < ws then p * (2048 / ws) else 0
    let count := min (2048 / ws) nd
    let val (e : Nat) : Nat :=
      if base ≤ e ∧ e < base + count then
        convElem t s.vty s.rnd (s.elemRandom wt e) (src.getD (part + (e - base)) 0) else 0
    let on := (List.range nd).map fun e => if decide (base ≤ e ∧ e < base + count) && elemOn wt s.top e then 2 ^ wt - 1 else 0
    let out := s.emit (.land 5 (.v d) (.vec (ofElems wt on) (ofElems wt ((List.range nd).map val)) 0))
    if convRounds t s.vty then s.reserve64 out else out)

/-- The 32 lanes of region b of a register. -/
def region (l : List Nat) (b : Nat) : List Nat := (l.drop (32 * b)).take 32

/-- vcvt.tote (R142): planes from lane 32b, the exponent pair in lane 32b + 31. -/
def execVcvtTote (d a m : Nat) (s : State) : Answer :=
  let l := s.vlanes a
  let one (b : Nat) : List Nat :=
    let blk := teOfF32 m s.rnd ((region l b).zipIdx.map fun p => (p.1, s.elemRandom 32 (32 * b + p.2)))
    (List.range 32).map fun q => if q < m + 2 then blk.plane m q else if q = 31 then blk.exps else 0
  .next (s.reserve64 (s.vresultAll d 5 32 (one 0 ++ one 1)))

/-- vcvt.frte (R142, R46). -/
def execVcvtFrte (d a m : Nat) (s : State) : Answer :=
  let l := s.vlanes a
  let one (b : Nat) : List Nat :=
    let r := region l b
    let blk := teOfPlanes m 32 (r.take (m + 2)) (r.getD 31 0 % 65536)
    blk.el.zipIdx.map fun p => f32.convert s.rnd (s.elemRandom 32 (32 * b + p.2)) (blk.value m m p.1)
  .next (s.reserve64 (s.vresult d 5 32 (one 0 ++ one 1)))

/-! ### Unary functions (R143, R144) -/

/-- A bit operation on the sign. -/
def State.vsign (s : State) (d a : Nat) (f : Nat → Nat → Nat) : Answer :=
  .next (s.types (vtyArith s.vty) fun s => s.vmap1 d a 5 fun x _ => f s.vw x)

def execVfabs (d a : Nat) (s : State) : Answer := s.vsign d a fun w x => x % 2 ^ (w - 1)
def execVfneg (d a : Nat) (s : State) : Answer :=
  s.vsign d a fun w x => x % 2 ^ (w - 1) + (1 - bits x (w - 1) 1) * 2 ^ (w - 1)

def execVsqrt (d a : Nat) (s : State) : Answer :=
  .next (s.types (vtyArith s.vty) fun s =>
    s.reserve64 (s.vmap1 d a 9 fun x r => s.vf.arith s.rnd r (vsqrtVal (s.vf.decode x))))

/-- An approximation: in f32, its result rounded once into bf16 or f16 (R143). -/
def State.vapprox (s : State) (d a fn : Nat) : Answer :=
  .next (s.types (vtyArith s.vty && s.vty != 1) fun s =>
    let out := s.vmap1 d a 9 fun x r =>
      let v := s.vf.decode x
      let y := vunF32 fn v (s.vf.widen f32 x) s.rnd.sat
      if s.vty = 0 then f32.arith ⟨0, s.rnd.sat⟩ 0 y else s.vf.arith s.rnd r y
    if s.vty = 0 then out else s.reserve64 out)

def execVrcp (d a : Nat) (s : State) : Answer := s.vapprox d a 3
def execVrsqrt (d a : Nat) (s : State) : Answer := s.vapprox d a 4
def execVexp2 (d a : Nat) (s : State) : Answer := s.vapprox d a 5
def execVexp (d a : Nat) (s : State) : Answer := s.vapprox d a 6
def execVlog2 (d a : Nat) (s : State) : Answer := s.vapprox d a 7
def execVtanh (d a : Nat) (s : State) : Answer := s.vapprox d a 8
def execVsigm (d a : Nat) (s : State) : Answer := s.vapprox d a 9

/-! ### Data movement across lanes (R145, R146) -/

/-- A permutation of 32-bit lanes: lane j from a function of j, latency 4. -/
def State.vlaneMap (s : State) (d : Nat) (f : Nat → Nat) : Answer :=
  .next (s.vresult d 4 32 ((List.range 64).map f))

/-- Lane j of a list of lanes. -/
def lane (l : List Nat) (j : Nat) : Nat := l.getD j 0

def execVperm (d a b : Nat) (s : State) : Answer :=
  s.vlaneMap d fun j => lane (s.vlanes a) (lane (s.vlanes b) j % 64)
def execVperm2 (d a b c : Nat) (s : State) : Answer :=
  s.vlaneMap d fun j =>
    let i := lane (s.vlanes b) j % 128
    if i < 64 then lane (s.vlanes a) i else lane (s.vlanes c) (i - 64)
def execVzipl (d a b : Nat) (s : State) : Answer :=
  s.vlaneMap d fun j => if j % 2 = 0 then lane (s.vlanes a) (j / 2) else lane (s.vlanes b) ((j - 1) / 2)
def execVziph (d a b : Nat) (s : State) : Answer :=
  s.vlaneMap d fun j => if j % 2 = 0 then lane (s.vlanes a) (32 + j / 2) else lane (s.vlanes b) (32 + (j - 1) / 2)
def execVunze (d a b : Nat) (s : State) : Answer :=
  s.vlaneMap d fun j => if j < 32 then lane (s.vlanes a) (2 * j) else lane (s.vlanes b) (2 * j - 64)
def execVunzo (d a b : Nat) (s : State) : Answer :=
  s.vlaneMap d fun j => if j < 32 then lane (s.vlanes a) (2 * j + 1) else lane (s.vlanes b) (2 * j - 63)
def execVrot (d a n : Nat) (s : State) : Answer := s.vlaneMap d fun j => lane (s.vlanes a) ((j + n) % 64)
def execVshd (d a n : Nat) (s : State) : Answer :=
  s.vlaneMap d fun j => if j + n < 64 then lane (s.vlanes a) (j + n) else 0
def execVcat (d a b n : Nat) (s : State) : Answer :=
  s.vlaneMap d fun j => if j + n < 64 then lane (s.vlanes a) (j + n) else lane (s.vlanes b) (j + n - 64)

/-! ### Reduce and scan (R147, R148) -/

/-- The format a reduction computes in: f32 for bf16 and f16 (R147). -/
def State.redFmt (s : State) : Fmt := if s.vty = 2 ∨ s.vty = 3 then f32 else s.vf

/-- RND with rne in place of rsr (R135). -/
def State.redRnd (s : State) : Rnd := ⟨if s.rnd.mode = 4 then 0 else s.rnd.mode, s.rnd.sat⟩

/-- The sum, minimum or maximum of two elements as a reduction takes it: kinds 0, 1, 2. -/
def State.redOp (s : State) (kind x y : Nat) : Nat :=
  match vtyFmt s.vty with
  | some _ =>
    let f := s.redFmt
    let u := f.decode x
    let v := f.decode y
    f.arith s.redRnd 0 (match kind with
      | 0 => FVal.add s.redRnd.mode u v
      | 1 => u.minimum v
      | _ => u.maximum v)
  | none =>
    let w := s.vw
    let u := intOf (vtySigned s.vty) w x
    let v := intOf (vtySigned s.vty) w y
    match kind with
    | 0 => (x + y) % 2 ^ w
    | 1 => if v < u then y else x
    | _ => if u < v then y else x

/-- The identity of a kind (R147). -/
def State.redId (s : State) (kind : Nat) : Nat :=
  match vtyFmt s.vty with
  | some _ =>
    let f := s.redFmt
    match kind with
    | 0 => f.signBit true
    | 1 => f.infBits false
    | _ => f.infBits true
  | none =>
    let r := intRange (vtySigned s.vty) s.vw
    match kind with
    | 0 => 0
    | 1 => wrap s.vw r.2
    | _ => wrap s.vw r.1

/-- The elements a reduction or scan works on: widened, disabled ones replaced by the identity. -/
def State.redElems (s : State) (a kind : Nat) : List Nat :=
  let w := s.vw
  (s.velems w a).zipIdx.map fun p =>
    if elemOn w s.top p.2 then (if s.vty = 2 ∨ s.vty = 3 then s.vf.widen f32 p.1 else p.1) else s.redId kind

/-- A result rounded once into VTY if it was widened. -/
def State.redOut (s : State) (x : Nat) : Nat :=
  if s.vty = 2 ∨ s.vty = 3 then s.vf.arith s.redRnd 0 (f32.decode x) else x

/-- One level of the tree: neighbours combined. -/
def pairUp (f : Nat → Nat → Nat) : List Nat → List Nat
  | x :: y :: l => f x y :: pairUp f l
  | l => l

/-- The tree of R147: at most n levels. -/
def treeFold (f : Nat → Nat → Nat) : Nat → List Nat → Nat
  | 0, l => l.headD 0
  | n + 1, l => treeFold f n (pairUp f l)

/-- vred of an arithmetic kind. -/
def State.vred (s : State) (d a kind : Nat) : Answer :=
  .next (s.types (s.vty != 4 && s.vty != 5) fun s =>
    s.vresultAll d 7 s.vw [s.redOut (treeFold (s.redOp kind) 8 (s.redElems a kind))])

/-- vred of a bitwise kind, any type. -/
def State.vredBits (s : State) (d a ident : Nat) (f : Nat → Nat → Nat) : Answer :=
  let w := s.vw
  .next (s.vresultAll d 7 w [treeFold f 8 ((s.velems w a).zipIdx.map fun p => if elemOn w s.top p.2 then p.1 else ident)])

def execVredadd (d a : Nat) (s : State) : Answer := s.vred d a 0
def execVredmin (d a : Nat) (s : State) : Answer := s.vred d a 1
def execVredmax (d a : Nat) (s : State) : Answer := s.vred d a 2
def execVredand (d a : Nat) (s : State) : Answer := s.vredBits d a (2 ^ s.vw - 1) fun x y => x &&& y
def execVredor (d a : Nat) (s : State) : Answer := s.vredBits d a 0 fun x y => x ||| y
def execVredxor (d a : Nat) (s : State) : Answer := s.vredBits d a 0 fun x y => x ^^^ y

/-- The running results of R148, from the running value. -/
def scanFrom (f : Nat → Nat → Nat) (excl : Bool) : Nat → List Nat → List Nat
  | _, [] => []
  | run, x :: l => (if excl then run else f run x) :: scanFrom f excl (f run x) l

/-- vscan of a kind. -/
def State.vscan (s : State) (d a kind : Nat) (excl : Bool) : Answer :=
  .next (s.types (s.vty != 4 && s.vty != 5) fun s =>
    s.vresult d 7 s.vw ((scanFrom (s.redOp kind) excl (s.redId kind) (s.redElems a kind)).map s.redOut))

def execVscanadd (d a : Nat) (s : State) : Answer := s.vscan d a 0 false
def execVscanmin (d a : Nat) (s : State) : Answer := s.vscan d a 1 false
def execVscanmax (d a : Nat) (s : State) : Answer := s.vscan d a 2 false
def execVscanxadd (d a : Nat) (s : State) : Answer := s.vscan d a 0 true
def execVscanxmin (d a : Nat) (s : State) : Answer := s.vscan d a 1 true
def execVscanxmax (d a : Nat) (s : State) : Answer := s.vscan d a 2 true

/-! ### Compaction and masks (R149), constants (R150) -/

/-- The lanes enabled in the top, in ascending order. -/
def State.lanesOn (s : State) (l : List Nat) : List Nat := (l.zipIdx.filter fun p => bit s.top p.2).map (·.1)

def execVcomp (d a : Nat) (s : State) : Answer :=
  .next (s.vresultAll d 4 32 (s.lanesOn (s.vlanes a)))
def execVexpd (d a : Nat) (s : State) : Answer :=
  .next (s.vresult d 4 32 ((List.range 64).map fun j => lane (s.vlanes a) (popCount j (s.top % 2 ^ j))))
def execVm2v (d : Nat) (s : State) : Answer :=
  .next (s.vresultAll d 4 32 ((List.range 64).map fun j => if bit s.top j then 2 ^ 32 - 1 else 0))
def execVnzm (a : Nat) (s : State) : Answer :=
  .next (s.pushMask 4 (wd (pack 1 ((s.vlanes a).map fun x => b2n (x != 0))) &&& s.mb.top))

def execVmovi (d i : Nat) (s : State) : Answer :=
  .next (s.vresult d 3 32 (List.replicate 64 (wrap 32 (sext 20 i))))
def execVmovih (d i : Nat) (s : State) : Answer :=
  .next (s.vresult d 3 32 (List.replicate 64 (i % 2 ^ 20 * 4096)))

/-! ### Crossing to scalars, accumulators and checks (R151 to R155) -/

def execVext (d a l : Nat) (s : State) : Answer := .next (s.result d 4 (wd (lane (s.vlanes a) l)))
def execVexts (d a l : Nat) (s : State) : Answer := .next (s.result d 4 (wi (sext 32 (lane (s.vlanes a) l))))
def execVext64 (d a l : Nat) (s : State) : Answer :=
  .next (s.result d 4 (wd (lane (s.vlanes a) l + lane (s.vlanes a) (l + 1) * 2 ^ 32)))

/-- Row i of accumulator u as one number of 128 elements (R96). -/
def Core.accRow (k : Core) (u i : Nat) : Nat := tget 0 k.acc (u * 128 + i)

/-- vacc writes that perform by a cycle do so, oldest first (R152). -/
def Core.accSettle (k : Core) (t : Nat) : Core :=
  (k.accLate.filter fun x => decide (x.due ≤ t)).foldl (fun k x => { k with
    acc := tset k.acc x.entry ((tget 0 k.acc x.entry ^^^ (tget 0 k.acc x.entry &&& x.en)) ||| (x.v &&& x.en))
    accPoison := k.accPoison.filter fun p => !(p / 128 == x.entry && bits x.en (32 * (p % 128)) 32 == 2 ^ 32 - 1) })
    { k with accLate := k.accLate.filter fun x => !decide (x.due ≤ t) }

/-- Every vacc write that has committed performs: whatever reads accumulators next comes after it. -/
def Core.accAll (k : Core) : Core := k.accSettle (k.accLate.foldl (fun m x => max m x.due) 0)

/-- Whether the sequencer of a core is busy in cycle t (R165, R168): a word runs, waits or is chained, a twait has issued and
not committed, or a copy that carries a chained word has not placed it. -/
def State.seqHeld (s : State) (c t : Nat) : Bool :=
  let q := (s.core c).seqr
  q.run.isSome || q.wait.isSome || !q.chained.isEmpty || decide (t < q.till) ||
    s.copies.any fun p => p.2.core == c && p.2.mt.isSome && p.2.stage != 4

/-- Whether the sequencer of the issuing core is busy. -/
def State.seqBusy (s : State) : Bool := s.seqHeld s.bun.core s.bun.t

/-- An access to a row of accumulator u (and u + 1 for a pair): the interlock of R78, then bounds (R152). Where both fail,
the grant is reported before the row, and a row above 127 is reported by its number (DESIGN CHOICE, log entry 31). -/
def State.accAccess (s : State) (u b : Nat) (pair : Bool) (go : Nat → State → State) : State :=
  let row := s.rsn b
  let grant := s.myCrew.accm
  if s.seqBusy then s.waitFor 6 0
  else if s.me.crew = 0xFFFF ∨ !bit grant u then s.trap 0x06 u
  else if pair && !bit grant (u + 1) then s.trap 0x06 (u + 1)
  else if 127 < row then s.trap 0x06 row
  else go row s

/-- Whether any of n elements of a row is poisoned (R169, R189). -/
def State.accBad (s : State) (u row lo n : Nat) : Nat :=
  b2n ((s.core s.bun.core).accPoison.any fun e => decide (128 * (u * 128 + row) + lo ≤ e ∧ e < 128 * (u * 128 + row) + lo + n))

/-- The pair's elements e = 32q to 32q + 31 as lanes: low half in the even lane (R96, R152). -/
def pairLanes (lo hi q : Nat) : List Nat :=
  (List.range 64).map fun j => bits (if j % 2 = 0 then lo else hi) (32 * (32 * q + j / 2)) 32

def execVaccr (d b q u : Nat) (s : State) : Answer :=
  .next (s.accAccess u b false fun row s =>
    s.emit (.land 7 (.v d) (.vec (enables 32 s.top)
      (ofElems 32 (split 32 64 (((s.core s.bun.core).accRow u row) >>> (2048 * q)))) (s.accBad u row (64 * q) 64))))

def execVaccw (a b q u : Nat) (s : State) : Answer :=
  .next (s.accAccess u b false fun row s =>
    s.emit (.accWrite u row ((enables 32 s.top).toNat <<< (2048 * q)) ((s.rv 32 a).toNat <<< (2048 * q))))

def execVaccrF64 (d b q u : Nat) (s : State) : Answer :=
  .next (s.accAccess u b true fun row s =>
    let k := s.core s.bun.core
    s.emit (.land 7 (.v d) (.vec (enables 64 s.top)
      (ofElems 32 (pairLanes (k.accRow u row) (k.accRow (u + 1) row) q)) (max (s.accBad u row (32 * q) 32) (s.accBad (u + 1) row (32 * q) 32)))))

/-- Lanes of one parity, with their enables, as 32 elements of a row's quarter q. -/
def halfRow (l : List Nat) (par q : Nat) : Nat :=
  pack 32 ((List.range 32).map fun e => lane l (2 * e + par)) <<< (1024 * q)

def execVaccwF64 (a b q u : Nat) (s : State) : Answer :=
  .next (s.accAccess u b true fun row s =>
    let on := lanes (enables 64 s.top)
    let l := lanes (s.rv 64 a)
    (s.emit (.accWrite u row (halfRow on 0 q) (halfRow l 0 q))).emit (.accWrite (u + 1) row (halfRow on 1 q) (halfRow l 1 q)))

/-- vqh (R154): the head element under the mask, by 32-bit lanes. -/
def execVqh (d k : Nat) (s : State) : Answer :=
  if s.qHolds k then .next (s.waitFor 4 0)
  else
    let q := s.qHeadValue k
    .next (s.emit (.land 3 (.v d) (.vec (enables 32 s.top) (BitVec.ofNat 2048 q.1) (b2n q.2))))

/-- vchk (R155): the lowest differing lane is reported. -/
def execVchk (a b : Nat) (s : State) : Answer :=
  let l := ((s.vlanes a).zip (s.vlanes b)).zipIdx
  match l.find? (fun p => p.1.1 != p.1.2) with
  | some p => .next (s.trap 0x0C (a + b * 32 + p.2 * 1024))
  | none => .next s

def execNopV (s : State) : Answer := .next s

end Sys2Proof.Machine
end

