-- ==== Sys2Proof/Machine/MatrixWord.lean ====
section
/-! DEFINITION. Matrix words: their geometry, the legal combinations, alignment, bounds and cycle counts (R156 to R165,
R170 to R185). -/

namespace Sys2Proof.Machine

/-! ### Fields (R161 to R163) -/

def opEf (g : Word) : Nat := bits g.toNat 62 2
def opCls (g : Word) : Nat := bits g.toNat 56 5
def opEbase (g : Word) : Nat := bits g.toNat 24 24
def opPbase (g : Word) : Nat := bits g.toNat 0 24
def opReserved (g : Word) : Bool := bit g.toNat 61 || bits g.toNat 48 8 != 0

def shK (g : Word) : Nat := bits g.toNat 0 13
def shM (g : Word) : Nat := bits g.toNat 16 10
def shN (g : Word) : Nat := bits g.toNat 32 8
def shAcc (g : Word) : Nat := bits g.toNat 42 2
def shAccum (g : Word) : Bool := bit g.toNat 44
def shReserved (g : Word) : Bool := g.toNat >>> 45 != 0 || bits g.toNat 40 2 != 0 || bits g.toNat 26 6 != 0 || bits g.toNat 13 3 != 0

def laMw (g : Word) : Nat := bits g.toNat 32 4
def laSlot (g : Word) : Nat := bits g.toNat 29 3
def laDc (g : Word) : Nat := bits g.toNat 18 11
def laDh (g : Word) : Nat := bits g.toNat 10 8
def laReserved (g : Word) : Bool := g.toNat >>> 36 != 0 || bits g.toNat 0 10 != 0

def trConst (g : Word) : Nat := bits g.toNat 32 32
def trReserved (g : Word) : Bool := bit g.toNat 31
/-- COL0 - ROW0 - DELTA, all that decides the mask (R163). -/
def trShift (g : Word) : Int := (bits g.toNat 9 11 : Int) - bits g.toNat 20 11 - sext 9 (bits g.toNat 0 9)

/-! ### Forms (R164) -/

/-- Major opcode of a matrix word. -/
def mtOp : Instr → Nat
  | .tmm .. => 1 | .tmmt .. => 2 | .tlx .. => 3 | .tlxT .. => 3 | .tlxX .. => 3 | .tlxTx .. => 3
  | .tla .. => 4 | .tlaT .. => 4 | .tproj .. => 5 | .tlplE .. => 6 | .tlplA .. => 6 | .tlplEa .. => 6
  | .tzero .. => 7 | .tldacc .. => 8 | .tstacc .. => 9 | .tstaccG .. => 9 | .tscale .. => 10 | .twait => 11
  | _ => 0

def mtT : Instr → Bool | .tlxT .. => true | .tlxTx .. => true | .tlaT .. => true | _ => false
def mtX : Instr → Bool | .tlxX .. => true | .tlxTx .. => true | _ => false
def mtLoadsE : Instr → Bool | .tlplE .. => true | .tlplEa .. => true | _ => false
def mtLoadsA : Instr → Bool | .tlplA .. => true | .tlplEa .. => true | _ => false

/-- Set, x, y of a word. -/
def mtFields : Instr → Nat × Nat × Nat
  | .tmm g x y => (g, x, y) | .tmmt g x y => (g, x, y) | .tlx g x y => (g, x, y) | .tlxT g x y => (g, x, y)
  | .tlxX g x y => (g, x, y) | .tlxTx g x y => (g, x, y) | .tla g x y => (g, x, y) | .tlaT g x y => (g, x, y)
  | .tproj g x y => (g, x, y) | .tlplE g x y => (g, x, y) | .tlplA g x y => (g, x, y) | .tlplEa g x y => (g, x, y)
  | .tldacc _ x y _ => (0, x, y) | .tstacc _ x y _ => (0, x, y) | .tstaccG _ x y _ => (0, x, y) | .tscale x y _ => (0, x, y)
  | _ => (0, 0, 0)

/-- Source or destination format, and accumulator, of the accumulator forms. -/
def mtSub : Instr → Nat | .tldacc f _ _ _ => f | .tstacc f _ _ _ => f | .tstaccG f _ _ _ => f | _ => 0
def mtAcc : Instr → Nat | .tldacc _ _ _ u => u | .tstacc _ _ _ u => u | .tstaccG _ _ _ u => u | _ => 0
def mtMask : Instr → Nat | .tzero m => m | .tscale _ _ m => m | _ => 0

/-- Bytes of an element of tldacc (R179) and of tstacc (R180). -/
def ldWidth (f : Nat) : Nat := match f with | 0 => 4 | 1 => 2 | 2 => 2 | _ => 8
def stWidth (f : Nat) : Nat := match f with | 0 => 4 | 1 => 2 | 2 => 2 | 3 => 1 | 4 => 1 | 5 => 8 | _ => 4
def mtWidth (i : Instr) : Nat := if mtOp i = 8 then ldWidth (mtSub i) else stWidth (mtSub i)
/-- Forms on an FP64 pair. -/
def mtPair (i : Instr) : Bool := (mtOp i == 8 && mtSub i == 3) || (mtOp i == 9 && (mtSub i == 5 || mtSub i == 6))

namespace MtWord

def fm (w : MtWord) : Nat := w.fmt.toNat
def k (w : MtWord) : Nat := if mtOp w.instr = 4 then laDc w.g3 else shK w.g2
def m (w : MtWord) : Nat := shM w.g2
def g (w : MtWord) : Nat := (mtFields w.instr).1
/-- The triangular word, where the form reads one (R164). -/
def tri (w : MtWord) : Option Word :=
  if mtOp w.instr = 2 then some w.g3 else if mtT w.instr then (if w.g < 15 then some w.h3 else none) else none

end MtWord

/-- What a word captures at issue: its registers, operands, fmt, and its stream (R98, R160, R183). -/
def State.mtCapture (s : State) (i : Instr) : MtWord :=
  let (g, x, y) := mtFields i
  let r (n : Nat) : Word := tget 0 s.mb.mg n
  let st := s.stream s.fmtn
  { instr := i, g0 := r (4 * g), g1 := r (4 * g + 1), g2 := r (4 * g + 2), g3 := r (4 * g + 3)
    h1 := if g < 15 then r (4 * g + 5) else 0, h3 := if g < 15 then r (4 * g + 7) else 0
    x := s.rs x, y := s.rs y, fmt := s.mb.fmt, seed := st.1, ctr := st.2
    core := s.bun.core, ctx := s.bun.ctx, crew := s.me.crew, rows := [], accepted := 0, late := 0, behind := false }

/-! ### Projection slots (R172) -/

/-- The descriptor a tlpl leaves. -/
def projDesc (w : MtWord) : Word :=
  wd (w.crew * 2 ^ 48 + b2n (mtLoadsE w.instr) * 2 ^ 47 + b2n (mtLoadsA w.instr) * 2 ^ 46 + laDc w.g3 * 2 ^ 35 +
    laDh w.g3 * 2 ^ 27 + laMw w.g3 * 2 ^ 23)

/-- Every matrix word issued earlier on a core and not yet complete, in the order they are to run: a chained one comes after
those of slot M that are accepted already (R185 does not order the two; DESIGN CHOICE, log entry 36). -/
def State.mtAhead (s : State) (core : Nat) : List MtWord :=
  let q := (s.core core).seqr
  q.run.toList ++ q.wait.toList ++ q.chained ++
    (s.copies.filter fun p => p.2.core == core && p.2.stage != 4).filterMap (fun p => p.2.mt) ++
    s.bun.effs.filterMap fun e => match e with | .mt w => some w | _ => none

/-- A slot's descriptor as every tlpl issued earlier leaves it (R173, R185). -/
def State.projAhead (s : State) (core slot : Nat) : Nat :=
  ((s.mtAhead core).foldl (fun d w => if mtOp w.instr = 6 ∧ laSlot w.g3 = slot then projDesc w else d)
    (tget 0 (s.core core).proj slot)).toNat

/-- Usable for a word: orientation, crew, shape (R172). -/
def projUsable (d : Nat) (expand : Bool) (w : MtWord) : Bool :=
  bit d (if expand then 47 else 46) && bits d 48 16 == w.crew && bits d 35 11 == laDc w.g3 && bits d 27 8 == laDh w.g3 &&
    bits d 23 4 == laMw w.g3

/-- Bytes one orientation takes (R173). -/
def projBytes (w : MtWord) : Nat := laDc w.g3 * laDh w.g3 * (laMw w.g3 + 2) / 8 + laDc w.g3 * laDh w.g3 / 16

/-- L of a tlpl (R173). -/
def tlplBytes (w : MtWord) : Nat := (b2n (mtLoadsE w.instr) + b2n (mtLoadsA w.instr)) * projBytes w

/-! ### Legal combinations (R185) -/

/-- A binary32 NaN. -/
def isNan32 (x : Nat) : Bool := bits x 23 8 == 255 && bits x 0 23 != 0

/-- The conditions of R185 in order, each with its detail code; frozen and chained as R167 and R183 give. -/
def State.mtConditions (s : State) (w : MtWord) (frozen chained : Bool) : List (Nat × Bool) :=
  let op := mtOp w.instr
  let five := decide (1 ≤ op ∧ op ≤ 5)
  let mm := op == 1 || op == 2
  let f := w.fm
  let ma := fmtMa f
  let mb := fmtMb f
  let blk := fmtBlk f
  let acf := fmtAcf f
  let usesA := five || mtLoadsA w.instr
  let usesB := mm || op == 3 || op == 4 || mtLoadsE w.instr
  let efA := opEf w.g0
  let efB := opEf w.g1
  let has (p : Nat → Bool) : Bool := (usesA && p efA) || (usesB && p efB)
  let elemPlanes := if efA = 1 then 24 else 53
  let badCls (g : Word) : Bool :=
    if opEf g = 0 then decide (opCls g < 2 ∨ 24 < opCls g) else opEf g != 3 && (opCls g != 0 || opEbase g != 0)
  let rb := w.m / 128
  let dcBad := laDc w.g3 == 0 || laDc w.g3 % 32 != 0 || decide (1024 < laDc w.g3)
  let dhBad := laDh w.g3 == 0 || laDh w.g3 % 32 != 0 || decide (128 < laDh w.g3)
  let noNext := decide (15 ≤ w.g)
  let stride := w.y.toNat
  let ww := mtWidth w.instr
  [(0x10, five && (if op ≤ 2 then (blk && has (· == 0)) || (!blk && has fun e => e == 1 || e == 2)
      else blk || has fun e => e == 1 || e == 2)),
   (0x11, has (· == 3) || (mm && efA != efB)),
   (0x12, five && (ma == 0 || (op != 5 && mb == 0) ||
      (if mm && efA != 0 then ma != elemPlanes || mb != elemPlanes
       else decide (opCls w.g0 < ma) || ((mm || op == 4) && decide (opCls w.g1 < mb))))),
   (0x13, five && op != 5 && ((acf && !blk) || (has (· == 2) && !acf))),
   (0x14, five && (!(w.m == 128 || w.m == 256 || w.m == 384 || w.m == 512) || (op != 5 && acf && decide (256 < w.m)))),
   (0x15, five && shN w.g2 != 128),
   (0x16, five && (shK w.g2 == 0 || shK w.g2 % 32 != 0 || decide (4096 < shK w.g2) ||
      ((op == 3 || op == 5) && shK w.g2 != laDh w.g3) || (op == 4 && shK w.g2 != laDc w.g3))),
   (0x17, five && op != 5 && (if acf then shAcc w.g2 % 2 == 1 || decide (3 < shAcc w.g2 + 2 * rb - 1)
      else decide (3 < shAcc w.g2 + rb - 1))),
   (0x18, (usesA && badCls w.g0) || (usesB && badCls w.g1)),
   (0x19, ((op == 3 || op == 4) && decide (8 < mb)) ||
      ((op == 3 || op == 5 || op == 6) && decide (laMw w.g3 < 2 ∨ 8 < laMw w.g3)) || (op == 5 && decide (ma < 2))),
   (0x1A, (decide (3 ≤ op ∧ op ≤ 6) && dcBad) || ((op == 3 || op == 5 || op == 6) && (dhBad || laReserved w.g3))),
   (0x1B, (op == 3 && !projUsable (s.projAhead w.core (laSlot w.g3)) true w) ||
      (op == 5 && !projUsable (s.projAhead w.core (laSlot w.g3)) false w)),
   (0x1C, match w.tri with | some t => isNan32 (trConst t) || trReserved t | none => false),
   (0x1D, (mtX w.instr && !noNext && (opEf w.h1 != 0 || opCls w.h1 != mb)) || (op == 5 && (efB != 0 || opCls w.g1 != ma))),
   (0x1E, op == 6 && ((usesA && (efA != 0 || opCls w.g0 != laMw w.g3)) || (usesB && (efB != 0 || opCls w.g1 != laMw w.g3)) ||
      decide (131072 < tlplBytes w))),
   (0x1F, (mtT w.instr || mtX w.instr) && noNext),
   (0x20, (usesA && opReserved w.g0) || ((usesB || op == 5) && opReserved w.g1) || (five && shReserved w.g2) ||
      (mtX w.instr && !noNext && opReserved w.h1)),
   (0x21, ((op == 8 || op == 9) && ((mtPair w.instr && mtAcc w.instr % 2 == 1) || stride % ww != 0 || decide (stride < 128 * ww))) ||
      (op == 10 && acf && !(mtMask w.instr == 3 || mtMask w.instr == 12 || mtMask w.instr == 15))),
   (0x22, frozen),
   (0x23, chained && op == 11)]

/-- The detail code of the first condition that holds (R185). -/
def State.mtDetail (s : State) (w : MtWord) (frozen chained : Bool) : Option Nat :=
  ((s.mtConditions w frozen chained).find? (·.2)).map (·.1)

/-! ### Operand extents (R157 to R160) -/

/-- A stretch of scratchpad a word reaches: base offset, alignment its base needs, bytes. -/
structure Extent where
  base : Nat
  al : Nat
  len : Nat
  deriving DecidableEq, Repr

/-- A TE operand of rows × K in class cls, of which the first p magnitude planes are read (R158). -/
def teExtents (g : Word) (off rows k cls p : Nat) : List Extent :=
  let n := ceilDiv rows 128 * (k / 32)
  [⟨opPbase g + off, 4, ((n - 1) * (cls + 2) + p + 2) * 512⟩, ⟨opEbase g + off, 2, n * 256⟩]

/-- An element operand (R159). -/
def elExtents (g : Word) (off rows k : Nat) : List Extent :=
  let w := if opEf g = 2 then 8 else 4
  [⟨opPbase g + off, w, ceilDiv rows 128 * k * 128 * w⟩]

def operandExtents (g : Word) (off rows k p : Nat) : List Extent :=
  if opEf g = 0 then teExtents g off rows k (opCls g) p else elExtents g off rows k

/-- A tlpl source: n rows of K / 32 blocks, every plane (R173). -/
def tlplExtents (g : Word) (off n k : Nat) : List Extent :=
  let p := opCls g + 2
  let last := ((n - 1) / 128 * (k / 32) + (k / 32 - 1)) * p + (p - 1)
  [⟨opPbase g + off, 4, last * 512 + ((n - 1) % 128) * 4 + 4⟩,
   ⟨opEbase g + off, 2, ((n - 1) / 128 * (k / 32) + (k / 32 - 1)) * 256 + ((n - 1) % 128) * 2 + 2⟩]

/-- Every stretch of scratchpad that a word reads or writes. R157 does not say whether sub-tiles that a triangular word
skips count: here they do, so a tmmt, tla.t or tlx.t is in bounds only with all M rows and all 128 columns of its operands;
the rows that a tlpl never reads do not count (DESIGN CHOICE, log entry 32). -/
def mtExtents (w : MtWord) : List Extent :=
  let x := w.x.toNat
  let y := w.y.toNat
  let ma := fmtMa w.fm
  let mb := fmtMb w.fm
  match mtOp w.instr with
  | 1 => operandExtents w.g0 x w.m w.k ma ++ operandExtents w.g1 y 128 w.k mb
  | 2 => operandExtents w.g0 x w.m w.k ma ++ operandExtents w.g1 y 128 w.k mb
  | 3 => teExtents w.g0 x w.m w.k (opCls w.g0) ma ++ teExtents w.g1 y 128 (laDc w.g3) (opCls w.g1) (opCls w.g1) ++
      (if mtX w.instr then teExtents w.h1 0 128 (laDh w.g3) mb mb else [])
  | 4 => teExtents w.g0 x w.m w.k (opCls w.g0) ma ++ teExtents w.g1 y 128 w.k (opCls w.g1) mb
  | 5 => teExtents w.g0 x w.m w.k (opCls w.g0) ma ++ teExtents w.g1 y w.m (laDc w.g3) ma ma
  | 6 => (if mtLoadsA w.instr then tlplExtents w.g0 x (laDc w.g3) (laDh w.g3) else []) ++
      (if mtLoadsE w.instr then tlplExtents w.g1 y (laDh w.g3) (laDc w.g3) else [])
  | 8 => [⟨x, mtWidth w.instr, 127 * y + 128 * mtWidth w.instr⟩]
  | 9 => match w.instr with
      | .tstaccG .. => []
      | _ => [⟨x, mtWidth w.instr, 127 * y + 128 * mtWidth w.instr⟩]
  | _ => []

/-- The accumulators a word names, as a mask (R96, R162). -/
def mtAccs (w : MtWord) : Nat :=
  let op := mtOp w.instr
  if op = 7 ∨ op = 10 then mtMask w.instr
  else if op = 8 ∨ op = 9 then (if mtPair w.instr then 3 * 2 ^ mtAcc w.instr else 2 ^ mtAcc w.instr)
  else if 1 ≤ op ∧ op ≤ 4 then
    let n := w.m / 128 * (if fmtAcf w.fm then 2 else 1)
    (2 ^ n - 1) * 2 ^ shAcc w.g2
  else 0

/-! ### Results in rsr, cycles (R50, R156, R170 to R182) -/

/-- Results a word numbers for stochastic rounding (R50, R174, R175, R180, R182). -/
def mtResults (w : MtWord) : Nat :=
  match mtOp w.instr with
  | 3 => 128 * laDh w.g3
  | 5 => w.m * laDc w.g3
  | 9 => match mtSub w.instr with | 0 => 0 | 5 => 0 | _ => 16384
  | 10 => 16384 * (popCount 4 (mtMask w.instr) / (if fmtAcf w.fm then 2 else 1))
  | _ => 0

/-- Sub-tiles not skipped, in row-major order (R171). -/
def activeTiles (t : Word) (m : Nat) : List (Nat × Nat) :=
  ((List.range (m / 32 * 4)).map fun n => (n / 4, n % 4)).filter fun p =>
    decide (trShift t + 32 * p.2 - 32 * p.1 - 31 ≤ 0)

/-- Steps of the product: row blocks or groups, times k-blocks (R167). -/
def productGroups (w : MtWord) : Nat :=
  match w.tri with | some t => ceilDiv (activeTiles t w.m).length 16 | none => w.m / 128

/-- Cycles of a word (R170 to R182). -/
def mtCycles (w : MtWord) : Nat :=
  let ma := fmtMa w.fm
  let mb := fmtMb w.fm
  let prod (k : Nat) : Nat := productGroups w * (k / 32) * ma * ceilDiv mb 8
  let accs := popCount 4 (mtMask w.instr)
  match mtOp w.instr with
  | 1 => prod w.k + 24
  | 2 => prod w.k + 24
  | 3 => max (prod (laDh w.g3)) (laDh w.g3 * laDc w.g3 * laMw w.g3 * ceilDiv (opCls w.g1) 8 / 1024) + 24
  | 4 => prod w.k + 24
  | 5 => w.m / 128 * ceilDiv (laDc w.g3) 128 * (laDh w.g3 / 32) * ma * ceilDiv (laMw w.g3) 8 + 24
  | 6 => ceilDiv (tlplBytes w) 256 + 24
  | 7 => 8 * accs + 4
  | 8 => if mtSub w.instr = 3 then 520 else 264
  | 9 => (if mtSub w.instr = 5 ∨ mtSub w.instr = 6 then 520 else 264) + w.late
  | 10 => 16 * accs + 8
  | _ => 0

/-- Steps of a word (R167). -/
def mtSteps (w : MtWord) : Nat :=
  match mtOp w.instr with
  | 3 => productGroups w * (laDh w.g3 / 32)
  | 5 => w.m / 128 * ceilDiv (laDc w.g3) 128 * (laDh w.g3 / 32)
  | 6 => ceilDiv (tlplBytes w) 256
  | 7 => 128 * popCount 4 (mtMask w.instr)
  | 8 => 128
  | 9 => 128
  | 10 => 128 * popCount 4 (mtMask w.instr) / (if fmtAcf w.fm then 2 else 1)
  | _ => productGroups w * (w.k / 32)

/-! ### Issue -/

/-- Whether a release store or atomic of a context is still to perform. -/
def State.relWrites (s : State) (c j : Nat) : Bool :=
  match (s.ctx c j).rel with | some ⟨_, .store ..⟩ => true | some ⟨_, .rmw _⟩ => true | _ => false

/-- Whether a word waits for the release store of its strand that was pending at its acceptance, into scratchpad (R275). -/
def State.wordWaits (s : State) (w : MtWord) : Bool :=
  let x := s.ctx w.core w.ctx
  w.behind && match x.rel with
    | some ⟨_, .store _ pa _ _ _ _⟩ => isPad pa
    | some ⟨_, .rmw l⟩ => x.loads.any fun y => y.id == l && isPad y.pa
    | _ => false

/-- Whether the sequencer can accept a word at the commit of a bundle issued now, two cycles on: no word waits, or the
running one completes by then (R165). -/
def State.seqAccepts (s : State) : Bool :=
  let q := (s.core s.bun.core).seqr
  q.chained.isEmpty && (q.wait.isNone ||
    match q.run with | some w => decide (q.start + mtCycles w ≤ s.bun.t + 2) && !s.wordWaits w | none => true)

/-- The blocks of a size that the rows of a tstacc.g are written to, where a mirage window shows them in its shadow (R79, R180, R400);
hid lists the mirage windows, whose bounds are multiples of 64. -/
def tstaccIn (w : MtWord) (hid : List (Nat × Nat × Nat)) (size : Nat) : List Nat :=
  let len := 128 * mtWidth w.instr
  ((List.range 128).flatMap fun i =>
    let a := w.x.toNat + i * w.y.toNat
    if hid.isEmpty then [a / size, (a + len - 1) / size]
    else (List.range ((a + len - 1) / 64 - a / 64 + 1)).map fun k =>
      let va := 64 * (a / 64 + k)
      (hiddenAddress hid va).getD va / size).eraseDups

/-- Its 64 KiB pages, and its 4 KiB blocks, each of which lies in one stack (R214, R452). -/
def tstaccPages (w : MtWord) (hid : List (Nat × Nat × Nat)) : List Nat := tstaccIn w hid 65536
def tstaccBlocks (w : MtWord) (hid : List (Nat × Nat × Nat)) : List Nat := tstaccIn w hid 4096

/-- A checked word goes on with the translations of a tstacc.g captured, or traps (R157, R160, R180, R185, R376). A bounds
trap reports the base offset of the first stretch that fails, which may itself lie inside the grant, and a translation or
rights trap of tstacc.g the base address of the 64 KiB page (DESIGN CHOICE, log entry 32). -/
def State.mtCheck (s : State) (i : Instr) (frozen chained : Bool) (go : MtWord → State → State) : State :=
  let w := s.mtCapture i
  let accs := mtAccs w
  let grant := if w.crew = 0xFFFF then 0 else s.myCrew.accm
  let size := (s.allot w.core w.crew).2
  match s.mtDetail w frozen chained with
  | some d => s.trap 0x01 d
  | none =>
    let isG := match i with | .tstaccG .. => true | _ => false
    let hid := if isG then s.mirages s.me.space else []
    let pages := if isG then tstaccPages w hid else []
    let look := pages.map fun p => (p, if p * 65536 ≥ 2 ^ 56 ∨ isAperture (p * 65536) then Access.fault 0x03 (p * 65536 % 2 ^ 56)
      else s.lookup w.core s.me.space (p * 65536) false true false)
    let misses := look.filterMap fun p => match p.2 with | .miss sp va => some (sp, va) | _ => none
    let untrained := (if isG then tstaccBlocks w hid else []).filterMap fun b =>
      match s.lookup w.core s.me.space (b * 4096) false true false with
      | .fault 0x03 _ => some (0x03, b / 16 * 65536)
      | _ => none
    let faults := (look.filterMap fun p => match p.2 with
      | .fault c d => some (c, d)
      | .at_ pa _ _ => if isGlobal pa then none else some (0x03, p.1 * 65536)
      | _ => none) ++ untrained
    let attr (p : Nat) : Nat := 256 * bits (s.leafOf w.core s.me.space (p * 65536)) 5 3
    let rows := look.filterMap fun p => match p.2 with | .at_ pa key _ => some (p.1, pa, key + attr p.1) | _ => none
    let ext := mtExtents w
    if !misses.isEmpty then { s with bun := { s.bun with miss := s.bun.miss ++ misses } }
    else match faults.find? (fun p => p.1 == 3), faults.head? with
    | some f, _ => s.trap f.1 f.2
    | none, some f => s.trap f.1 f.2
    | none, none =>
      if isG && w.x.toNat % mtWidth i != 0 then s.trap 0x05 (w.x.toNat % 2 ^ 56)
      else match ext.find? (fun e => e.base % e.al != 0) with
      | some e => s.trap 0x05 e.base
      | none =>
        if w.crew = 0xFFFF then s.trap 0x06 0
        else match ext.find? (fun e => decide (size < e.base + e.len)) with
        | some e => s.trap 0x06 e.base
        | none =>
          if accs &&& grant ≠ accs then s.trap 0x06 (trailZeros 4 (accs ^^^ (accs &&& grant)))
          else
            let s := if mtResults w = 0 then s else s.reserve s.fmtn (mtResults w)
            let (late, s) := if isG then s.drawNat else (0, s)
            go { w with rows := rows, late := late } s

/-- A word issues in MT: it waits while the sequencer cannot accept it, and goes to it at commit (R165). -/
def State.mtIssue (s : State) (i : Instr) : Answer :=
  let q := (s.core s.bun.core).seqr
  .next (if !q.frozen && !s.seqAccepts then s.waitFor 6 0
    else s.mtCheck i q.frozen false fun w s => s.emit (.mt w))

def execTmm (g x y : Nat) (s : State) : Answer := s.mtIssue (.tmm g x y)
def execTmmt (g x y : Nat) (s : State) : Answer := s.mtIssue (.tmmt g x y)
def execTlx (g x y : Nat) (s : State) : Answer := s.mtIssue (.tlx g x y)
def execTlxT (g x y : Nat) (s : State) : Answer := s.mtIssue (.tlxT g x y)
def execTlxX (g x y : Nat) (s : State) : Answer := s.mtIssue (.tlxX g x y)
def execTlxTx (g x y : Nat) (s : State) : Answer := s.mtIssue (.tlxTx g x y)
def execTla (g x y : Nat) (s : State) : Answer := s.mtIssue (.tla g x y)
def execTlaT (g x y : Nat) (s : State) : Answer := s.mtIssue (.tlaT g x y)
def execTproj (g x y : Nat) (s : State) : Answer := s.mtIssue (.tproj g x y)
def execTlplE (g x y : Nat) (s : State) : Answer := s.mtIssue (.tlplE g x y)
def execTlplA (g x y : Nat) (s : State) : Answer := s.mtIssue (.tlplA g x y)
def execTlplEa (g x y : Nat) (s : State) : Answer := s.mtIssue (.tlplEa g x y)
def execTzero (m : Nat) (s : State) : Answer := s.mtIssue (.tzero m)
def execTldacc (f x y u : Nat) (s : State) : Answer := s.mtIssue (.tldacc f x y u)
def execTstacc (f x y u : Nat) (s : State) : Answer := s.mtIssue (.tstacc f x y u)
def execTstaccG (f x y u : Nat) (s : State) : Answer := s.mtIssue (.tstaccG f x y u)
def execTscale (x y m : Nat) (s : State) : Answer := s.mtIssue (.tscale x y m)

/-- twait: waits until the sequencer is idle, then nothing (R165). -/
def execTwait (s : State) : Answer :=
  let q := (s.core s.bun.core).seqr
  .next (if q.frozen then s.trap 0x01 0x22
    else if s.seqBusy then s.waitFor 6 0
    else s.unless (s.me.crew == 0xFFFF) 0x06 0 fun s => s.emit .twait)

def execNopM (s : State) : Answer := .next s

end Sys2Proof.Machine
end

