-- ==== Sys2Proof/Machine/Xform.lean ====
section
/-! DEFINITION. Twin-exponent operands in scratchpad (R39, R40, R158), and the transform units in its banks, with the order
of arrival at the shared port (R219, R220, R255 to R258). -/

namespace Sys2Proof.Machine

/-! ### Words read once (R166) -/

/-- A 4-byte word as a running word reads it: what it read before, else what stands there. -/
def State.wordVia (s : State) (seen : Tab Nat) (x : Nat) : Nat :=
  match seen.find? fun p => p.1 == x with
  | some p => p.2
  | none => s.readPa 0 (4 * x) 4

/-- n bytes that lie in at most three words, read so. -/
def State.readVia (s : State) (seen : Tab Nat) (pa n : Nat) : Nat :=
  bits (pack 32 ((List.range ((pa % 4 + n + 3) / 4)).map fun i => s.wordVia seen (pa / 4 + i))) (8 * (pa % 4)) (8 * n)

/-- Whether a range holds poison in a word not read before (R169, R211). -/
def State.poisonVia (s : State) (seen : Tab Nat) (pa n : Nat) : Bool :=
  if seen.isEmpty then s.poisonedAt pa n
  else s.padPoison.any fun x => decide (pa / 4 ≤ x ∧ x ≤ (pa + n - 1) / 4) && !thas seen x

/-! ### TE operands (R158) -/

/-- A TE operand: addresses of its planes and exponents, stored planes, k-blocks, planes read, words read before. -/
structure TeSrc where
  pb : Nat
  eb : Nat
  stored : Nat
  kb : Nat
  p : Nat
  seen : Tab Nat
  deriving DecidableEq, Repr

/-- Where plane k of block b of a row lies, and its exponent pair. -/
def TeSrc.planeAt (t : TeSrc) (row b k : Nat) : Nat :=
  t.pb + ((row / 128 * t.kb + b) * t.stored + k) * 512 + row % 128 * 4
def TeSrc.expsAt (t : TeSrc) (row b : Nat) : Nat := t.eb + (row / 128 * t.kb + b) * 256 + row % 128 * 2

/-- The words of block b of n rows. -/
def TeSrc.wordsOf (t : TeSrc) (row n b : Nat) : List Nat :=
  ((List.range (t.p + 2)).flatMap fun k => (List.range n).map (t.planeAt row b k / 4 + ·)) ++
    (List.range ((t.expsAt row b + 2 * n + 3) / 4 - t.expsAt row b / 4)).map (t.expsAt row b / 4 + ·)

/-- The words of the exponent pairs of block b of n rows that another block's pairs share. -/
def TeSrc.edgesOf (t : TeSrc) (row n b : Nat) : List Nat :=
  let lo := t.expsAt row b
  (if lo % 4 = 0 then [] else [lo / 4]) ++ (if (lo + 2 * n) % 4 = 0 then [] else [(lo + 2 * n) / 4])

/-- Block b of a row as the array reads it (R41). -/
def State.teBlock (s : State) (t : TeSrc) (row b : Nat) : TeBlock :=
  teOfPlanes t.p 32 ((List.range (t.p + 2)).map fun k => s.readVia t.seen (t.planeAt row b k) 4) (s.readVia t.seen (t.expsAt row b) 2)

/-- Whether block b of n rows holds poison (R211). -/
def State.tePoison (s : State) (t : TeSrc) (row n b : Nat) : Bool :=
  ((List.range (t.p + 2)).any fun k => s.poisonVia t.seen (t.planeAt row b k) (4 * n)) || s.poisonVia t.seen (t.expsAt row b) (2 * n)

/-- A write at the shared port of scratchpad. -/
def State.padPut (s : State) (pa n v : Nat) : State := (s.writePa 0 pa n v).wakeWriters pa n

/-- A block of class m written at its place (R158): its planes, and its exponent pair. -/
def State.putPlanes (s : State) (t : TeSrc) (row b m : Nat) (x : TeBlock) : State :=
  (List.range (m + 2)).foldl (fun s k => s.padPut (t.planeAt row b k) 4 (x.plane m k)) s
def State.putTe (s : State) (t : TeSrc) (row b m : Nat) (x : TeBlock) : State :=
  (s.putPlanes t row b m x).padPut (t.expsAt row b) 2 x.exps

/-! ### Transform commands (R220, R255 to R258) -/

/-- Elements of a format code: an MX kind, or a floating format (R255). -/
def xfKind (f : Nat) : Option MxKind :=
  match f with | 4 => some .e2m1 | 5 => some .e2m3 | 6 => some .e3m2 | 7 => some .e4m3 | 8 => some .e5m2 | _ => none
def xfFmt (f : Nat) : Fmt := match f with | 0 => bf16 | 1 => f16 | 2 => e4m3 | 3 => e5m2 | _ => f32

/-- The TE side of a split or a merge (R158, R256). -/
def xfTe (base z : Nat) : TeSrc := ⟨base, base + xfPlaneBytes z, szM z + 2, szK z / 32, szM z, []⟩

/-- The random value of a command's result j (R49, R258). -/
def Xform.random (x : Xform) (j : Nat) : Nat := if fmtRnd x.fmt.toNat = 4 then sr16 x.seed x.ctr j 0 else 0

/-- Address of block b of row i of element-major data (R256). -/
def xfBlockAt (base f z i b : Nat) : Nat := base + (i * szK z + 32 * b) * xfBits f / 8

def State.poisonTe (s : State) (t : TeSrc) (row b m : Nat) : State :=
  ((List.range (m + 2)).foldl (fun s k => s.poisonRange (t.planeAt row b k) 4) s).poisonRange (t.expsAt row b) 2

/-- split of block b of row i. -/
def State.xfSplit (s : State) (x : Xform) (f i b : Nat) : State :=
  let z := x.size.toNat
  let t := xfTe x.dst z
  let at_ := xfBlockAt x.src f z i b
  let n := 4 * xfBits f
  let sc := x.src + szQ z * szK z * xfBits f / 8 + i * (szK z / 32) + b
  let es := (split (xfBits f) 32 (s.readPa 0 at_ n)).zipIdx.map fun p => (p.1, x.random (i * szK z + 32 * b + p.2))
  let o := fmtR x.fmt.toNat
  let blk := match xfKind f with
    | some k => mxConvert k (szM z) o (s.readPa 0 sc 1) es
    | none => teConvert (szM z) o (es.map fun p => ((xfFmt f).decode p.1, p.2))
  let bad := s.poisonedAt at_ n || ((xfKind f).isSome && s.poisonedAt sc 1)
  let s := s.putTe t i b (szM z) blk
  if bad then s.poisonTe t i b (szM z) else s

/-- merge of block b of row i (R46). -/
def State.xfMerge (s : State) (x : Xform) (f i b : Nat) : State :=
  let z := x.size.toNat
  let t := xfTe x.src z
  let blk := s.teBlock t i b
  let g := xfFmt f
  let es := blk.el.zipIdx.map fun p =>
    g.convert (fmtR x.fmt.toNat) (x.random (i * szK z + 32 * b + p.2)) (blk.value (szM z) (szM z) p.1)
  let at_ := xfBlockAt x.dst f z i b
  let bad := s.tePoison t i 1 b
  let s := s.padPut at_ (4 * xfBits f) (pack (xfBits f) es)
  if bad then s.poisonRange at_ (4 * xfBits f) else s

/-- conv of element j: the conv rule of R141. -/
def State.xfConv (s : State) (x : Xform) (f g j : Nat) : State :=
  let a := x.src + j * xfBits f / 8
  let v := s.readPa 0 a (xfBits f / 8)
  let r := if f = g then v else (xfFmt g).convert (fmtR x.fmt.toNat) (x.random j) ((xfFmt f).decode v)
  let bad := s.poisonedAt a (xfBits f / 8)
  let d := x.dst + j * xfBits g / 8
  let s := s.padPut d (xfBits g / 8) r
  if bad then s.poisonRange d (xfBits g / 8) else s

/-- bpack of block j (R234, R257). -/
def State.xfBpack (s : State) (x : Xform) (j : Nat) : State :=
  let a := x.src + 4096 * j
  let d := x.dst + 4160 * j
  let l := baleEncode (s.readList 0 a 4096)
  let bad := s.poisonedAt a 4096
  let s := s.padPut d l.length (pack 8 l)
  if bad then s.poisonRange d l.length else s

/-- bunpack of slot j; a bad bale is a poisoned block. -/
def State.xfBunpack (s : State) (x : Xform) (j : Nat) : State :=
  let a := x.src + 4160 * j
  let d := x.dst + 4096 * j
  let z := baleSize (s.readPa 0 a 8)
  match (if s.poisonedAt a z then none else baleDecode (s.readList 0 a 4160)) with
  | some l => s.padPut d 4096 (pack 8 l)
  | none => (s.padPut d 4096 0).poisonRange d 4096

/-- The bytes that a command writes whole, poison and all: no piece of them is a partial write of the command (R211). -/
def Xform.covers (x : Xform) : Nat :=
  let z := x.size.toNat
  match x.instr with
  | .xformSplit .. => xfTeBytes z
  | .xformMerge _ _ _ f => xfRowsBytes f z
  | .xformConv _ _ _ _ g => z * xfBits g / 8
  | _ => 0

/-- What a transform command does, whole. -/
def State.xformRun (s : State) (x : Xform) : State :=
  let z := x.size.toNat
  let s := s.coverRange x.dst x.covers
  let blocks := (List.range (szQ z)).flatMap fun i => (List.range (szK z / 32)).map fun b => (i, b)
  match x.instr with
  | .xformSplit _ _ _ f => blocks.foldl (fun s p => s.xfSplit x f p.1 p.2) s
  | .xformMerge _ _ _ f => blocks.foldl (fun s p => s.xfMerge x f p.1 p.2) s
  | .xformConv _ _ _ f g => (List.range z).foldl (fun s j => s.xfConv x f g j) s
  | .xformZero .. => s.padPut x.dst z 0
  | .xformBpack .. => (List.range z).foldl (fun s j => s.xfBpack x j) s
  | .xformBunpack .. => (List.range z).foldl (fun s j => s.xfBunpack x j) s
  | _ => s

/-- A command performs and leaves its queue. -/
def State.xformPerform (s : State) (c : Nat) (x : Xform) : State :=
  (s.xformRun x).modCore c fun k => { k with xforms := k.xforms.filter fun y => y.id != x.id }

/-- A request arrives at the shared port of a core's scratchpad: every command that arrived before it performs first. -/
def State.flushXforms (s : State) (c : Nat) : State := (s.core c).xforms.foldl (fun s x => s.xformPerform c x) s

/-- The same for a request to a physical address, if it lies in a scratchpad. -/
def State.portArrival (s : State) (pa : Nat) : State := if isPad pa then s.flushXforms (padCore pa) else s

end Sys2Proof.Machine
end

