-- ==== Sys2Proof/Machine/MatrixRun.lean ====
section
/-! DEFINITION. The matrix sequencer at work: the sums of R51 to R53, the steps of R167 for every form, completion,
data errors (R169), and how words follow one another (R165, R184). -/

namespace Sys2Proof.Machine

/-! ### One block pair (R51, R52) and one element chain (R53) -/

/-- The sum over one selector class, as an exact value. -/
def classSum (xa xb : Bool) (a b : List TeElem) (e : Int) : FVal :=
  let i : Int := (a.zip b).foldl (fun n p =>
    if p.1.x == xa && p.2.x == xb then
      (if p.1.s == p.2.s then n + (p.1.m * p.2.m : Nat) else n - (p.1.m * p.2.m : Nat)) else n) 0
  .fin (decide (i < 0)) i.natAbs e

/-- Whether an element selects an exponent of 255 (R38). -/
def TeBlock.bad (b : TeBlock) : Bool := b.el.any fun t => (if t.x then b.e1 else b.e0) == 255

/-- One step of R51: blocks read with pa and pb planes; R52 for special values. -/
def step51 (pa pb : Nat) (a b : TeBlock) (acc : Nat) : Nat :=
  if a.bad || b.bad then 0x7FC00000
  else
    let e (xa xb : Bool) : Int :=
      (if xa then a.e1 else a.e0 : Nat) + (if xb then b.e1 else b.e0 : Nat) - 254 - ((pa : Int) - 1) - ((pb : Int) - 1)
    let t (xa xb : Bool) : FVal := classSum xa xb a.el b.el (e xa xb)
    let sum := FVal.add 0 (FVal.add 0 (t true true) (t true false)) (FVal.add 0 (t false true) (t false false))
    let sum := match sum with | .fin s m e => if m = 0 then FVal.fin false 0 0 else .fin s m e | w => w
    f32.arith ⟨0, false⟩ 0 (FVal.add 0 (f32.decode acc) sum)

/-- Element mode: one rounding per k into the accumulator format (R53); one that overflows gives an infinity whatever fmt.SAT holds
(DESIGN CHOICE, log entry 37). -/
def step53 (src dst : Fmt) (a b : List Nat) (acc : Nat) : Nat :=
  (a.zip b).foldl (fun acc p =>
    dst.arith ⟨0, false⟩ 0 (FVal.add 0 (dst.decode acc) (FVal.mul (src.decode p.1) (src.decode p.2)))) acc

/-! ### Operands in scratchpad (R158, R159) -/

/-- The operand that a geometry word names at an offset, as the running word reads it. -/
def State.teSrc (s : State) (w : MtWord) (g : Word) (off k p : Nat) : TeSrc :=
  let base := (s.allot w.core w.crew).1 + off
  ⟨base + opPbase g, base + opEbase g, opCls g + 2, k / 32, p, (s.core w.core).seqr.seen⟩

/-- Address of element (i, k) of an element operand, and its 32 elements of block b (R159). -/
def State.elemAt (s : State) (w : MtWord) (g : Word) (off i k : Nat) : Nat :=
  let z := if opEf g = 2 then 8 else 4
  (s.allot w.core w.crew).1 + off + opPbase g + (i / 128 * w.k + k) * 128 * z + i % 128 * z

def State.elemBlock (s : State) (w : MtWord) (g : Word) (off i b : Nat) : List Nat :=
  (List.range 32).map fun k => s.readVia (s.core w.core).seqr.seen (s.elemAt w g off i (32 * b + k)) (if opEf g = 2 then 8 else 4)

def State.elemPoison (s : State) (w : MtWord) (g : Word) (off i n b : Nat) : Bool :=
  let z := if opEf g = 2 then 8 else 4
  (List.range 32).any fun k => s.poisonVia (s.core w.core).seqr.seen (s.elemAt w g off i (32 * b + k)) (z * n)

/-- The words of block b of n rows of an operand in either form. -/
def State.operandWords (s : State) (w : MtWord) (g : Word) (off k p i n b : Nat) : List Nat :=
  if opEf g = 0 then (s.teSrc w g off k p).wordsOf i n b
  else
    let z := if opEf g = 2 then 2 else 1
    (List.range 32).flatMap fun e => (List.range (z * n)).map (s.elemAt w g off i (32 * b + e) / 4 + ·)

/-! ### Accumulators (R96) -/

/-- The 128 elements of a row of an accumulator, or of a pair. -/
def Core.accGet (k : Core) (pair : Bool) (u i : Nat) : List Nat :=
  let lo := Machine.split 32 128 (k.accRow u i)
  if pair then (lo.zip (Machine.split 32 128 (k.accRow (u + 1) i))).map fun p => p.1 + p.2 <<< 32 else lo

/-- A row written; the elements that the form writes are clean (R169). -/
def Core.setAccRow (k : Core) (u i v : Nat) (on : Nat → Bool) : Core :=
  { k with acc := tset k.acc (u * 128 + i) v, accPoison := k.accPoison.filter fun e => !(e / 128 == u * 128 + i && on (e % 128)) }

/-- A row of an accumulator or of a pair written, in the elements that on names. -/
def Core.accSetOn (k : Core) (pair : Bool) (u i : Nat) (on : Nat → Bool) (l : List Nat) : Core :=
  let k := k.setAccRow u i (pack 32 l) on
  if pair then k.setAccRow (u + 1) i (pack 32 (l.map (· >>> 32))) on else k

def Core.accSet (k : Core) (pair : Bool) (u i : Nat) (l : List Nat) : Core := k.accSetOn pair u i (fun _ => true) l

/-- Whether any of n elements of a row from element lo is poisoned. -/
def Core.accBadIn (k : Core) (pair : Bool) (u i lo n : Nat) : Bool :=
  k.accPoison.any fun e => (e / 128 == u * 128 + i || (pair && e / 128 == (u + 1) * 128 + i)) && decide (lo ≤ e % 128 ∧ e % 128 < lo + n)

def Core.accBadRow (k : Core) (pair : Bool) (u i : Nat) : Bool := k.accBadIn pair u i 0 128

/-! ### Products (R170, R171, R175, R176) -/

/-- A block packed for the scratch memory of the running word. -/
def TeBlock.packed (b : TeBlock) (cls : Nat) : Nat :=
  b.exps + (pack 32 ((List.range (cls + 2)).map (b.plane cls))) <<< 16
def teUnpack (cls x : Nat) : TeBlock := teOfPlanes cls 32 (split 32 (cls + 2) (x >>> 16)) (x % 65536)

/-- The rows of a step's group with the columns it covers there: first column and count (R167, R171). -/
def MtWord.regionOf (w : MtWord) (n : Nat) : List (Nat × Nat × Nat) :=
  match w.tri with
  | none => (List.range 128).map fun i => (128 * n + i, 0, 128)
  | some t => (((activeTiles t w.m).drop (16 * n)).take 16).flatMap fun p =>
      (List.range 32).map fun i => (32 * p.1 + i, 32 * p.2, 32)

/-- Accumulator of a row, and whether it is a pair (R162). -/
def MtWord.accOf (w : MtWord) (row : Nat) : Nat := shAcc w.g2 + row / 128 * (if fmtAcf w.fm then 2 else 1)

/-- Random value of a word's result number j (R49, R50). -/
def MtWord.random (w : MtWord) (ctr j : Nat) : Nat := if fmtRnd w.fm = 4 then sr16 w.seed ctr j 0 else 0

/-- Block b of W in an orientation of a slot, for row r of kb blocks a row (R173). -/
def State.projBlock (s : State) (w : MtWord) (orient kb r b : Nat) : TeBlock :=
  teUnpack (laMw w.g3) (nth 0 (tget [] (s.core w.core).projData (laSlot w.g3 * 2 + orient)) (r * kb + b))

/-- Whether that block is poisoned: a poisoned block stands 2^512 higher in the store (R227). -/
def State.projBad (s : State) (w : MtWord) (orient kb r b : Nat) : Bool :=
  decide (2 ^ 512 ≤ nth 0 (tget [] (s.core w.core).projData (laSlot w.g3 * 2 + orient)) (r * kb + b))

/-- The latent operand C of a tlx: every stored plane (R175). -/
def State.latentC (s : State) (w : MtWord) : TeSrc := s.teSrc w w.g1 w.y.toNat (laDc w.g3) (opCls w.g1)

/-- The expanded keys of token n and dh-block hb (R175). -/
def State.expandKey (s : State) (w : MtWord) (n hb : Nat) : TeBlock :=
  let c := s.latentC w
  let kb := laDc w.g3 / 32
  let cs := (List.range kb).map fun b => s.teBlock c n b
  let ks := (List.range 32).map fun e =>
    let h := 32 * hb + e
    let v := (cs.zipIdx).foldl (fun a p => step51 (opCls w.g1) (laMw w.g3) p.1 (s.projBlock w 0 kb h p.2) a) 0
    (v, w.random w.ctr (n * laDh w.g3 + h))
  teOfF32 (fmtMb w.fm) (fmtR w.fm) ks

/-- Expansion of a dh-block for all 128 tokens, kept in scratch, and written out under X (R167, R175). -/
def State.expandBlock (s : State) (w : MtWord) (hb : Nat) : State :=
  let bs := (List.range 128).map fun n => s.expandKey w n hb
  let s := s.modCore w.core fun k => { k with seqr := { k.seqr with
    scratch := bs.zipIdx.foldl (fun t p => tset t (hb * 128 + p.2) (p.1.packed (fmtMb w.fm))) k.seqr.scratch } }
  if mtX w.instr then
    let out := s.teSrc w w.h1 0 (laDh w.g3) (fmtMb w.fm)
    if out.eb % 4 ≠ 0 then bs.zipIdx.foldl (fun s p => s.putPlanes out p.2 hb (fmtMb w.fm) p.1) s
    else bs.zipIdx.foldl (fun s p => s.putTe out p.2 hb (fmtMb w.fm) p.1) (s.coverRange (out.expsAt 0 hb) 256)
  else s

/-- Exponent pairs whose words two blocks share are written as the word completes, so that a reader sees each word old or new
(R166). -/
def State.expandDone (s : State) (w : MtWord) : State :=
  let out := s.teSrc w w.h1 0 (laDh w.g3) (fmtMb w.fm)
  if !mtX w.instr || out.eb % 4 == 0 then s
  else
    let kb := laDh w.g3 / 32
    let t := (s.core w.core).seqr.scratch
    (List.range kb).foldl (fun s hb => (List.range 128).foldl (fun s n =>
      s.padPut (out.expsAt n hb) 2 (tget 0 t (hb * 128 + n) % 65536)) s) (s.coverRange out.eb (256 * kb))

/-- Whether the expansion of a dh-block reads poison, in C or in the projection store (R169). -/
def State.expandPoison (s : State) (w : MtWord) (hb : Nat) : Bool :=
  let kb := laDc w.g3 / 32
  (List.range kb).any fun b => s.tePoison (s.latentC w) 0 128 b || (List.range 32).any fun e => s.projBad w 0 kb (32 * hb + e) b

/-- k-blocks of a product: K / 32, or those of the head width under tlx. -/
def MtWord.kblocks (w : MtWord) : Nat := w.k / 32

/-- What product step n reads that is poisoned: A rows, B columns, accumulators (R169); a column or row of C of a triangular
group counts also where no active sub-tile uses it (DESIGN CHOICE, log entry 32). -/
def State.productPoison (s : State) (w : MtWord) (n : Nat) : Bool :=
  let b := n % w.kblocks
  let rows := w.regionOf (n / w.kblocks)
  let el := opEf w.g0 != 0
  let a := s.teSrc w w.g0 w.x.toNat w.k (fmtMa w.fm)
  let bad := rows.any fun r => if el then s.elemPoison w w.g0 w.x.toNat r.1 1 b else s.tePoison a r.1 1 b
  let badB := if el then s.elemPoison w w.g1 w.y.toNat 0 128 b
    else if mtOp w.instr = 3 then n < w.kblocks && s.expandPoison w b
    else s.tePoison (s.teSrc w w.g1 w.y.toNat w.k (fmtMb w.fm)) 0 128 b
  let badAcc := (shAccum w.g2 || b != 0) &&
    rows.any fun r => (s.core w.core).accBadIn (fmtAcf w.fm) (w.accOf r.1) (r.1 % 128) r.2.1 r.2.2
  bad || badB || badAcc

/-- Product step n: one group by one k-block (R167, R170, R171). -/
def State.productStep (s : State) (w : MtWord) (n : Nat) : State :=
  let b := n % w.kblocks
  let ma := fmtMa w.fm
  let mb := fmtMb w.fm
  let acf := fmtAcf w.fm
  let s := if mtOp w.instr = 3 ∧ n < w.kblocks then s.expandBlock w b else s
  let fresh := b == 0 && !shAccum w.g2
  let cols := List.range 128
  let src : Fmt := if opEf w.g0 = 2 then f64 else f32
  let dst : Fmt := if acf then f64 else f32
  let a := s.teSrc w w.g0 w.x.toNat w.k ma
  let newRow : Nat → Nat → Nat → List Nat → List Nat :=
    if opEf w.g0 ≠ 0 then
      let bs := cols.map fun j => s.elemBlock w w.g1 w.y.toNat j b
      fun row c0 cn old =>
        let as_ := s.elemBlock w w.g0 w.x.toNat row b
        (old.zip bs).zipIdx.map fun p =>
          if c0 ≤ p.2 ∧ p.2 < c0 + cn then step53 src dst as_ p.1.2 (if fresh then 0 else p.1.1) else p.1.1
    else
      let bs := if mtOp w.instr = 3 then cols.map fun j => teUnpack mb (tget 0 (s.core w.core).seqr.scratch (b * 128 + j))
        else let t := s.teSrc w w.g1 w.y.toNat w.k mb; cols.map fun j => s.teBlock t j b
      fun row c0 cn old =>
        let ab := s.teBlock a row b
        (old.zip bs).zipIdx.map fun p =>
          if c0 ≤ p.2 ∧ p.2 < c0 + cn then step51 ma mb ab p.1.2 (if fresh then 0 else p.1.1) else p.1.1
  (w.regionOf (n / w.kblocks)).foldl (fun s r =>
    let u := w.accOf r.1
    s.modCore w.core fun k => k.accSetOn acf u (r.1 % 128) (fun j => decide (r.2.1 ≤ j ∧ j < r.2.1 + r.2.2))
      (newRow r.1 r.2.1 r.2.2 (k.accGet acf u (r.1 % 128)))) s

/-- CONST in the accumulator format (R171). -/
def MtWord.constOf (w : MtWord) (t : Word) : Nat := if fmtAcf w.fm then f32.widen f64 (trConst t) else trConst t

/-- At completion every masked element becomes CONST (R171). -/
def State.maskRegion (s : State) (w : MtWord) (t : Word) : State :=
  let acf := fmtAcf w.fm
  (List.range w.m).foldl (fun s (row : Nat) =>
    let masked (j : Nat) : Bool := decide (0 < trShift t + (j : Int) - (row : Int))
    s.modCore w.core fun k => k.accSetOn acf (w.accOf row) (row % 128) masked
      (((k.accGet acf (w.accOf row) (row % 128)).zipIdx).map fun p => if masked p.2 then w.constOf t else p.1)) s

/-! ### tproj (R174) -/

/-- Row block, 128-column block and dh-block of step n. -/
def MtWord.projStep (w : MtWord) (n : Nat) : Nat × Nat × Nat :=
  let kb := laDh w.g3 / 32
  let cb := ceilDiv (laDc w.g3) 128
  (n / (kb * cb), n / kb % cb, n % kb)

def State.tprojStep (s : State) (w : MtWord) (n : Nat) : State :=
  let (r, cb, b) := w.projStep n
  let q := s.teSrc w w.g0 w.x.toNat w.k (fmtMa w.fm)
  let cols := min 128 (laDc w.g3 - 128 * cb)
  let ws := (List.range cols).map fun j => s.projBlock w 1 (laDh w.g3 / 32) (128 * cb + j) b
  let rows := (List.range 128).map fun i => (i, s.teBlock q (128 * r + i) b)
  s.modCore w.core fun k => { k with seqr := { k.seqr with
    scratch := rows.foldl (fun t p =>
      let key := (128 * r + p.1) * 8 + cb
      let old := split 32 cols (if b = 0 then 0 else tget 0 t key)
      tset t key (pack 32 ((old.zip ws).map fun x => step51 (fmtMa w.fm) (laMw w.g3) p.2 x.2 x.1))) k.seqr.scratch } }

/-- f[i][c] of a finished tproj. -/
def tprojSum (t : Tab Nat) (i c : Nat) : Nat := bits (tget 0 t (i * 8 + c / 128)) (32 * (c % 128)) 32

/-- At completion f is converted and written (R174). R166 lets a reader see each word old or new before that: it is old (DESIGN
CHOICE, log entry 32). -/
def State.tprojDone (s : State) (w : MtWord) : State :=
  let t := (s.core w.core).seqr.scratch
  let ma := fmtMa w.fm
  let out := s.teSrc w w.g1 w.y.toNat (laDc w.g3) ma
  let s := (List.range (w.m / 128)).foldl (fun s r => (List.range (laDc w.g3 / 32)).foldl (fun s cb =>
    s.coverRange (out.expsAt (128 * r) cb) 256) s) s
  (List.range w.m).foldl (fun s i => (List.range (laDc w.g3 / 32)).foldl (fun s cb =>
    s.putTe out i cb ma (teOfF32 ma (fmtR w.fm) ((List.range 32).map fun e =>
      (tprojSum t i (32 * cb + e), w.random w.ctr (i * laDc w.g3 + 32 * cb + e))))) s) s

/-! ### tlpl (R173) -/

/-- The blocks a tlpl reads: orientation, row, block, with the operand that holds them. -/
def State.tlplBlocks (s : State) (w : MtWord) : List (Nat × TeSrc × Nat × Nat) :=
  let mw := laMw w.g3
  let rowsOf (o : Nat) (t : TeSrc) (n : Nat) : List (Nat × TeSrc × Nat × Nat) :=
    (List.range (n * t.kb)).map fun i => (o, t, i / t.kb, i % t.kb)
  (if mtLoadsE w.instr then rowsOf 0 (s.teSrc w w.g1 w.y.toNat (laDc w.g3) mw) (laDh w.g3) else []) ++
    (if mtLoadsA w.instr then rowsOf 1 (s.teSrc w w.g0 w.x.toNat (laDh w.g3) mw) (laDc w.g3) else [])

/-- The blocks of step n, with their numbers: 256 bytes of source (R167). -/
def State.tlplOf (s : State) (w : MtWord) (n : Nat) : List ((Nat × TeSrc × Nat × Nat) × Nat) :=
  let bb := (laMw w.g3 + 2) * 4 + 2
  (s.tlplBlocks w).zipIdx.filter fun p => p.2 * bb / 256 == n

def State.tlplStep (s : State) (w : MtWord) (n : Nat) : State :=
  let rd := (s.tlplOf w n).map fun p => (p.2, (s.teBlock p.1.2.1 p.1.2.2.1 p.1.2.2.2).packed (laMw w.g3))
  s.modCore w.core fun k => { k with seqr := { k.seqr with
    scratch := rd.foldl (fun t p => tset t p.1 p.2) k.seqr.scratch } }

/-- The slot's new contents and descriptor (R172, R173). -/
def State.tlplDone (s : State) (w : MtWord) : State :=
  let ne := if mtLoadsE w.instr then laDh w.g3 * (laDc w.g3 / 32) else 0
  let na := if mtLoadsA w.instr then laDc w.g3 * (laDh w.g3 / 32) else 0
  let slot := laSlot w.g3
  s.modCore w.core fun k =>
    let get (lo n : Nat) : List Nat := (List.range n).map fun i => tget 0 k.seqr.scratch (lo + i)
    { k with
      proj := tset k.proj slot (projDesc w)
      projData := tset (tset k.projData (2 * slot) (get 0 ne)) (2 * slot + 1) (get ne na) }

/-! ### Accumulator forms (R178 to R182) -/

/-- Accumulators of a mask in ascending order, or the even ones of its pairs. -/
def maskAccs (m : Nat) (pair : Bool) : List Nat :=
  (List.range 4).filter fun u => bit m u && (!pair || u % 2 == 0)

/-- The accumulator and row of step n of a form that goes through a mask. -/
def MtWord.maskStep (w : MtWord) (n : Nat) : Nat × Nat :=
  (nth 0 (maskAccs (mtMask w.instr) (mtOp w.instr == 10 && fmtAcf w.fm)) (n / 128), n % 128)

def State.tzeroStep (s : State) (w : MtWord) (n : Nat) : State :=
  s.modCore w.core fun k => k.setAccRow (w.maskStep n).1 (w.maskStep n).2 0 fun _ => true

/-- Offset in the allotment of row i of an accumulator form. -/
def MtWord.rowOff (w : MtWord) (i : Nat) : Nat := w.x.toNat + i * w.y.toNat

def State.tldaccStep (s : State) (w : MtWord) (i : Nat) : State :=
  let z := mtWidth w.instr
  let l := (List.range 128).map fun j =>
    s.readVia (s.core w.core).seqr.seen ((s.allot w.core w.crew).1 + w.rowOff i + z * j) z
  let l := match mtSub w.instr with
    | 1 => l.map fun x => bf16.widen f32 x
    | 2 => l.map fun x => f16.widen f32 x
    | _ => l
  s.modCore w.core fun k => k.accSet (mtPair w.instr) (mtAcc w.instr) i l

/-- One element of tstacc (R180). -/
def tstaccElem (sub : Nat) (o : Rnd) (r x : Nat) : Nat :=
  match sub with
  | 1 => bf16.convert o r (f32.decode x)
  | 2 => f16.convert o r (f32.decode x)
  | 3 => e4m3.convert o r (f32.decode x)
  | 4 => e5m2.convert o r (f32.decode x)
  | 6 => f32.convert o r (f64.decode x)
  | _ => x

/-- The place of a virtual address in the translations that a tstacc.g captured. -/
def MtWord.placeOf (w : MtWord) (va : Nat) : Option (Nat × Nat) :=
  (w.rows.find? fun p => p.1 == va / 65536).map fun p => (p.2.1 + va % 65536, p.2.2)

/-- Where a byte run of a tstacc.g at a virtual address goes: physical address and key, plus 256 for a cellar page and
512 for one with bales, 1024 for one with HEAT, through the translations it captured (R79, R180); in a window that has flipped
since, through its new shadow's, if it may be written. -/
def State.tstaccPlace (s : State) (w : MtWord) (l : List (Nat × Nat × Nat)) (space va : Nat) : Option (Nat × Nat) :=
  match hiddenAddress l va with
  | some h =>
    match w.placeOf h with
    | some p => some p
    | none =>
      match s.walk space h with
      | some (e, lvl, _) =>
        let pa := leafPa e lvl h
        if bit e 3 && isGlobal pa && !s.retired.contains (pa / 65536) then some (pa, bits e 8 8 + 256 * bits e 5 3) else none
      | none => none
  | none => w.placeOf va

/-- Whether rows of an accumulator form begin inside a word, which two rows may share (R166). -/
def MtWord.rowsShare (w : MtWord) : Bool := w.x.toNat % 4 != 0 || w.y.toNat % 4 != 0

/-- One row of tstacc (R180); what tstacc.g writes is not left stale in its core's L1 (R270). -/
def State.tstaccStep (s : State) (w : MtWord) (i : Nat) : State :=
  let z := mtWidth w.instr
  let l := ((s.core w.core).accGet (mtPair w.instr) (mtAcc w.instr) i).zipIdx.map fun p =>
    tstaccElem (mtSub w.instr) (fmtR w.fm) (w.random w.ctr (i * 128 + p.2)) p.1
  match w.instr with
  | .tstaccG .. =>
    let space := (s.ctx w.core w.ctx).space
    let hid := s.mirages space
    l.zipIdx.foldl (fun s p =>
      let va := w.rowOff i + p.2 * z
      match s.tstaccPlace w hid space va with
      | some (pa, key) => (s.perform (s.ctx w.core w.ctx).uid 1 (32 * bits key 8 3) (key % 256) pa z p.1).dropLine w.core pa
      | none => s) s
  | _ =>
    if w.rowsShare then s.modCore w.core fun k => { k with seqr := { k.seqr with scratch := tset k.seqr.scratch i (pack (8 * z) l) } }
    else s.padPut ((s.allot w.core w.crew).1 + w.rowOff i) (128 * z) (pack (8 * z) l)

/-- Rows that share words are written as the word completes. -/
def State.tstaccDone (s : State) (w : MtWord) : State :=
  match w.instr with
  | .tstaccG .. => s
  | _ =>
    if !w.rowsShare then s
    else
      let t := (s.core w.core).seqr.scratch
      (List.range 128).foldl (fun s i =>
        s.padPut ((s.allot w.core w.crew).1 + w.rowOff i) (128 * mtWidth w.instr) (tget 0 t i)) s

/-- One row of tscale (R182): one fused operation, one rounding. -/
def State.tscaleStep (s : State) (w : MtWord) (n : Nat) : State :=
  let acf := fmtAcf w.fm
  let f : Fmt := if acf then f64 else f32
  let (u, i) := w.maskStep n
  let x := f.decode (if acf then w.x.toNat else w.x.toNat % 2 ^ 32)
  let y := f.decode (if acf then w.y.toNat else w.y.toNat % 2 ^ 32)
  let o := fmtR w.fm
  s.modCore w.core fun k => k.accSet acf u i (((k.accGet acf u i).zipIdx).map fun p =>
    f.arith o (w.random (w.ctr + 256 * (n / 128)) (i * 128 + p.2)) (FVal.add o.mode (FVal.mul (f.decode p.1) x) y))

/-! ### Steps, errors, completion -/

/-- Whether step n reads data with an uncorrectable error (R169). -/
def State.stepPoison (s : State) (w : MtWord) (n : Nat) : Bool :=
  let k := s.core w.core
  let z := mtWidth w.instr
  match mtOp w.instr with
  | 5 =>
    let (r, cb, b) := w.projStep n
    s.tePoison (s.teSrc w w.g0 w.x.toNat w.k (fmtMa w.fm)) (128 * r) 128 b ||
      (List.range (min 128 (laDc w.g3 - 128 * cb))).any fun j => s.projBad w 1 (laDh w.g3 / 32) (128 * cb + j) b
  | 6 => (s.tlplOf w n).any fun p => s.tePoison p.1.2.1 p.1.2.2.1 1 p.1.2.2.2
  | 7 => false
  | 8 => s.poisonVia k.seqr.seen ((s.allot w.core w.crew).1 + w.rowOff n) (128 * z)
  | 9 => k.accBadRow (mtPair w.instr) (mtAcc w.instr) n
  | 10 => k.accBadRow (fmtAcf w.fm) (w.maskStep n).1 (w.maskStep n).2
  | _ => s.productPoison w n

/-- What step n does (R167). -/
def State.stepEffect (s : State) (w : MtWord) (n : Nat) : State :=
  match mtOp w.instr with
  | 5 => s.tprojStep w n
  | 6 => s.tlplStep w n
  | 7 => s.tzeroStep w n
  | 8 => s.tldaccStep w n
  | 9 => s.tstaccStep w n
  | 10 => s.tscaleStep w n
  | _ => s.productStep w n

/-- The words of scratchpad that step n reads and a later step of the same word reads again (R166, R167). -/
def State.stepWords (s : State) (w : MtWord) (n : Nat) : List Nat :=
  let b := n % w.kblocks
  let edges (g : Word) (off k p row b : Nat) : List Nat :=
    if opEf g = 0 ∧ (off + opEbase g) % 4 ≠ 0 then (s.teSrc w g off k p).edgesOf row 128 b else []
  let edgesB := edges w.g1 w.y.toNat w.k (fmtMb w.fm) 0 b
  let rowsA : List Nat := if w.tri.isNone then edges w.g0 w.x.toNat w.k (fmtMa w.fm) (128 * (n / w.kblocks)) b
    else (w.regionOf (n / w.kblocks)).flatMap fun r => s.operandWords w w.g0 w.x.toNat w.k (fmtMa w.fm) r.1 1 b
  match mtOp w.instr with
  | 3 => rowsA ++ (if n < w.kblocks ∧ 1 < w.kblocks then
      (List.range (laDc w.g3 / 32)).flatMap fun k => (s.latentC w).wordsOf 0 128 k else [])
  | 5 =>
    let (r, _, b) := w.projStep n
    if laDc w.g3 ≤ 128 then edges w.g0 w.x.toNat w.k (fmtMa w.fm) (128 * r) b else (s.teSrc w w.g0 w.x.toNat w.k (fmtMa w.fm)).wordsOf (128 * r) 128 b
  | 1 => rowsA ++ (if productGroups w ≤ 1 then edgesB else s.operandWords w w.g1 w.y.toNat w.k (fmtMb w.fm) 0 128 b)
  | 2 => if productGroups w ≤ 1 then rowsA ++ edgesB else rowsA ++ s.operandWords w w.g1 w.y.toNat w.k (fmtMb w.fm) 0 128 b
  | 4 => if productGroups w ≤ 1 then rowsA ++ edgesB else rowsA ++ s.operandWords w w.g1 w.y.toNat w.k (fmtMb w.fm) 0 128 b
  | 6 => (s.tlplOf w n).map fun p => p.1.2.1.expsAt p.1.2.2.1 p.1.2.2.2 / 4
  | 8 =>
    let a := (s.allot w.core w.crew).1 + w.rowOff n
    (List.range ((a + 128 * mtWidth w.instr + 3) / 4 - a / 4)).map (a / 4 + ·)
  | _ => []

/-- Those words noted with the values read. -/
def State.noteWords (s : State) (w : MtWord) (n : Nat) : Tab Nat :=
  (s.stepWords w n).foldl (fun t x => if thas t x then t else tset t x (s.readPa 0 (4 * x) 4)) (s.core w.core).seqr.seen

/-- What completion does beside the last step. -/
def State.doneEffect (s : State) (w : MtWord) : State :=
  let s := if mtOp w.instr = 3 ∧ mtSteps w = 0 then
      (List.range w.kblocks).foldl (fun s hb => s.expandBlock w hb) s else s
  let s := match mtOp w.instr with
    | 3 => s.expandDone w
    | 5 => s.tprojDone w
    | 9 => s.tstaccDone w
    | 6 => s.tlplDone w
    | _ => s
  match w.tri with
  | some t => s.maskRegion w t
  | none => s

def State.modSeq (s : State) (c : Nat) (f : Sequencer → Sequencer) : State :=
  s.modCore c fun k => { k with seqr := f k.seqr }

/-- The word stops; its strand rolls back, or its next bundle raises data error with opcode and step (R169, R187). R169 does
not say what becomes of the words behind it: the waiting word and the chained words still run (DESIGN CHOICE, log entry
32). -/
def State.seqFail (s : State) (c : Nat) (w : MtWord) (n : Nat) : State :=
  let s := (s.countBusy c s.clk).modSeq c fun q => { q with run := none, scratch := [], seen := [], start := s.clk }
  if (s.ctx c w.ctx).phase.opened then s.consume c w.ctx
  else s.modCtx c w.ctx fun x => { x with owed := x.owed ++ [⟨0x0D, 2 ^ 55 + mtOp w.instr + n % 2 ^ 32 * 64, 0⟩] }

/-- The running word's next step, after the transform commands that arrived before it (R219) and the release store that its
word follows (R275); an error from outside stops it too (R169). -/
def State.seqStep (s : State) (c : Nat) (err : Bool) : State :=
  let q := (s.core c).seqr
  match q.run with
  | none => s
  | some w =>
    if q.frozen || decide (mtSteps w ≤ q.step) || s.wordWaits w then s
    else
      let s := (s.flushXforms c).modCore c Core.accAll
      if err || s.stepPoison w q.step then s.seqFail c w q.step
      else
        let s := if 1 ≤ mtOp w.instr ∧ mtOp w.instr ≤ 4 then s.perf c w.ctx 7 1 else s
        let seen := s.noteWords w q.step
        (s.stepEffect w q.step).modSeq c fun q => { q with step := q.step + 1, seen := seen }

/-- The running word completes at its cycle, its steps all done. A tlx whose sub-tiles are all skipped expands its keys only
here (R175). -/
def State.seqDone (s : State) (c : Nat) : State :=
  let q := (s.core c).seqr
  match q.run with
  | none => s
  | some w =>
    let s := (s.flushXforms c).modCore c Core.accAll
    if mtOp w.instr = 3 ∧ mtSteps w = 0 ∧ (List.range w.kblocks).any (s.expandPoison w) = true then s.seqFail c w 0
    else ((s.doneEffect w).countBusy c (q.start + mtCycles w)).modSeq c fun q =>
      { q with run := none, step := 0, scratch := [], seen := [], start := q.start + mtCycles w }

/-- A word starts to run at a cycle. -/
def Sequencer.runs (q : Sequencer) (w : MtWord) (t : Nat) : Sequencer :=
  { q with run := some w, step := 0, start := t, since := t, scratch := [], seen := [] }

/-- A word accepted at a cycle: it runs at once when nothing does, else it waits (R165). -/
def Sequencer.accept (q : Sequencer) (w : MtWord) (t : Nat) : Sequencer :=
  match q.run with
  | none => q.runs { w with accepted := t } (max q.start t)
  | some _ => { q with wait := some { w with accepted := t } }

/-- The waiting word starts when nothing runs: as it is accepted or as the word before it completes, the later. -/
def Sequencer.begin (q : Sequencer) : Sequencer :=
  match q.run, q.wait with
  | none, some w => { q.runs w (max q.start w.accepted) with wait := none }
  | _, _ => q

/-- The oldest chained word is accepted when no word waits (R184); behind tells of a strand whose release store is pending then,
after which the word reads (R275). -/
def Sequencer.takeChained (q : Sequencer) (t : Nat) (behind : Nat → Bool) : Sequencer :=
  match q.wait, q.chained with
  | none, w :: l => { q.accept { w with behind := behind w.ctx } t with chained := l }
  | _, _ => q

/-- One word on its way to cycle t: what runs and is due by t completes, what waits starts. -/
def State.seqTurn (s : State) (c t : Nat) : State :=
  let q := (s.core c).seqr
  if q.frozen then s
  else
    match q.run with
    | none =>
      if q.wait.isSome then s.modSeq c Sequencer.begin else s.modSeq c fun q => q.takeChained s.clk (s.relWrites c)
    | some w =>
      if q.start + mtCycles w ≤ t ∧ s.wordWaits w = false then
        let s := (List.range (mtSteps w - q.step)).foldl (fun s _ => s.seqStep c false) s
        let s := s.seqDone c
        let done := (s.core c).seqr.start
        s.modSeq c fun q => let q := q.begin; q.takeChained done (s.relWrites c)
      else if q.wait.isNone then s.modSeq c fun q => q.takeChained s.clk (s.relWrites c)
      else s

/-- The sequencer of a core brought to cycle t; at most six words are ever in it. -/
def State.seqAdvance (s : State) (c t : Nat) : State := (List.range 8).foldl (fun s _ => s.seqTurn c t) s

end Sys2Proof.Machine
end

