-- ==== Sys2Proof/Machine/CopyIssue.lean ====
section
/-! DEFINITION. The C map as its words issue (R321 to R349): descriptors, the checks of R329 in order, room (R304). -/

namespace Sys2Proof.Machine

/-! ### Endpoints (R322) -/

def epKind (e : Nat) : Nat := bits e 62 2
def epVa (e : Nat) : Nat := bits e 0 56
def epOff (e : Nat) : Nat := bits e 0 23
def epCore (e : Nat) : Nat := bits e 48 2
def epQ (e : Nat) : Bool := bit e 61
def epQn (e : Nat) : Nat := bits e 58 3
def epKey (e : Nat) : Nat := bits e 27 32
def epWin (e : Nat) : Nat := bits e 15 12
def epDev (e : Nat) : Nat := bits e 0 15
/-- FORM of KIND 3, MASK of FORM 0, SET of FORM 1. -/
def epForm (e : Nat) : Bool := bit e 61
def epMask (e : Nat) : Nat := bits e 55 4
def epSet (e : Nat) : Nat := bits e 15 12

/-- A reserved field of an endpoint is not zero. -/
def epReserved (e : Nat) : Bool :=
  match epKind e with
  | 0 => bits e 56 6 != 0
  | 1 => bits e 50 8 != 0 || bits e 23 25 != 0 || (!epQ e && epQn e != 0)
  | 2 => bits e 59 3 != 0
  | _ => bits e 59 2 != 0 || (if epForm e then bits e 0 15 != 0 else bits e 23 32 != 0 || epMask e == 0)

/-- The base of an endpoint: its VA or OFF plus an operand, or the operand alone (R322). -/
def epBase (e x : Nat) : Nat :=
  match epKind e with
  | 0 => epVa e + x
  | 1 => epOff e + x
  | 2 => x
  | _ => if epForm e then x else epOff e + x

/-! ### Shape, flags (R323, R324, R327) -/

def shapeRows (h : Nat) : Nat := bits h 20 12 + 1
def shapeLen (h : Nat) : Nat := 4 * bits h 0 20
def shapeSstr (h : Nat) : Nat := 4 * bits h 32 16
def shapeDstr (h : Nat) : Nat := 4 * bits h 48 16
/-- Bytes of the whole copy. -/
def shapeTotal (h : Nat) : Nat := shapeRows h * shapeLen h
/-- Bytes from the first to the last that rows at a stride reach. -/
def shapeSpan (h str : Nat) : Nat := (shapeRows h - 1) * str + shapeLen h

/-- The flag byte of a form (R327): 0 P, 1 BAR, 2 HND, 3 CHN, 4 MIR, 5 BL. -/
def copyFlags : Instr → Nat
  | .cpy _ _ _ _ f => f
  | .cpym _ _ _ _ m f => m * 16 + f
  | .rdx _ _ _ _ m f => m * 16 + f
  | .unstash _ _ _ _ f => f
  | _ => 0

def flagP (i : Instr) : Bool := bit (copyFlags i) 0
def flagBar (i : Instr) : Bool := bit (copyFlags i) 1
def flagHnd (i : Instr) : Bool := bit (copyFlags i) 2
def flagChn (i : Instr) : Bool := bit (copyFlags i) 3
def flagMir (i : Instr) : Bool := bit (copyFlags i) 4
def flagBl (i : Instr) : Bool := bit (copyFlags i) 5

/-- The major opcode of a form (R326). -/
def copyMo : Instr → Nat
  | .cpy .. => 1 | .cpym .. => 2 | .rdx .. => 3 | .drain .. => 4 | .qpush .. => 5 | .stash .. => 6 | .unstash .. => 7
  | .sdrop .. => 8 | .chsend .. => 9 | .chack .. => 10 | .glean .. => 11 | _ => 0

/-- Registers g × 4 to g × 4 + 7 of the copy geometry: the descriptor and its handler extension. -/
def State.descriptor (s : State) (g : Nat) : List Word := (List.range 8).map fun k => tget 0 s.mb.cg (4 * g + k)

/-! ### The tables that values are checked against -/

/-- Tensor-channel entry e as one 256-bit number (R316, R358). -/
def State.tch (s : State) (e : Nat) : Nat := s.sm (0x1800 + 32 * e) 32
def tcEn (e : Nat) : Bool := bit e 255
def tcPdev (e : Nat) : Nat := bits e 240 15
def tcPch (e : Nat) : Nat := bits e 232 8
def tcWin (e : Nat) : Nat := bits e 224 8 + 1
def tcSeq (e : Nat) : Nat := bits e 96 32
def tcAcked (e : Nat) : Nat := bits e 64 32
def tcRseq (e : Nat) : Nat := bits e 32 32
def tcRfree (e : Nat) : Nat := bits e 0 32

/-! ### Room (R304, R306) -/

/-- Tracks of an engine that a bundle issuing now finds taken: those that copies hold, and those freed no earlier than in its
cycle (R306). -/
def State.tracksBusy (s : State) (core engine : Nat) : List Nat :=
  (s.copies.filter fun p => p.2.core == core && p.2.engine == engine).map (fun p => p.2.track) ++
    ((s.core core).freed.filter fun f => f.1 == engine && decide (s.bun.t ≤ f.2.2)).map (·.2.1)

/-- A free track, or the strict trap or the lenient hold (detail 1, counters engst0 and engst1). -/
def State.trackRoom (s : State) (ch : Nat) (go : State → State) : State :=
  if (s.tracksBusy s.bun.core (ch % 2)).length < 8 then go s
  else if s.cr 0x007 = 0 then s.trap 0x07 1 else s.waitFor 1 (0x010 + ch % 2)

/-- Window credit for n blocks (R317): detail 3, counter tchst. -/
def State.creditRoom (s : State) (e n : Nat) (go : State → State) : State :=
  let c := s.tch e
  if (tcSeq c + n + 2 ^ 32 - tcAcked c) % 2 ^ 32 ≤ tcWin c then go s
  else if s.cr 0x007 = 0 then s.trap 0x07 3 else s.waitFor 1 0x021

/-! ### The checks of R328 and R329 -/

/-- What a check answers: cause and detail. -/
abbrev Check := Bool × Nat × Nat

/-- The first check that fails traps; else go on. -/
def State.checks (s : State) (l : List Check) (go : State → State) : State :=
  match l.find? (·.1) with
  | some c => s.trap c.2.1 c.2.2
  | none => go s

/-- Endpoint kinds and the limits of the flags (R328). -/
def kindsGood (i : Instr) (src dst core : Nat) : Bool :=
  let k := epKind src
  let d := epKind dst
  let local_ (e : Nat) : Bool := epKind e == 0 || (epKind e == 1 && !epQ e)
  (match copyMo i with
   | 1 => k != 3 && !(k == 1 && epQ src) && d != 3 && !(k == 2 && d == 2)
   | 2 => local_ src && d == 3
   | 3 => k == 2 && (d == 2 || (d == 3 && epForm dst))
   | 6 => local_ src && dst == 0
   | 9 => local_ src && dst == 0
   | _ => local_ src && local_ dst) &&
  (!flagChn i || (d == 1 && !epQ dst && epCore dst == core % 4)) &&
  (!flagMir i || d == 2 || (d == 3 && epForm dst)) &&
  (!flagHnd i || (d == 1 && !epQ dst) || (d == 3 && !epForm dst) || d == 2)

/-- Whether source rows share a byte with destination rows of m bytes at a stride (R337). -/
def rowsMeet (h sb db m dstr : Nat) : Bool :=
  (List.range (shapeRows h)).any fun i => (List.range (shapeRows h)).any fun j =>
    decide (sb + i * shapeSstr h < db + j * dstr + m ∧ db + j * dstr < sb + i * shapeSstr h + shapeLen h)

/-- Formats of a glean's control word, and bytes of an element (R349). -/
def glFmt (k : Nat) : Fmt := match k with | 1 => bf16 | 2 => f16 | _ => f32
def glBytes (k : Nat) : Nat := if k = 0 then 4 else 2

/-- Bytes of a destination row: a glean's holds its elements in the output format (R349). -/
def rowBytes (mo h y : Nat) : Nat :=
  if mo = 11 then shapeLen h / glBytes (bits y 0 2) * glBytes (bits y 2 2) else shapeLen h

/-- The value checks of the form's own word, step 1 of R329. -/
def State.wordBad (s : State) (i : Instr) (h y : Nat) : Bool :=
  match copyMo i with
  | 6 => bits y 8 24 != 0 || decide (4 < bits y 4 3)
  | 7 => bits y 9 23 != 0 || bits y 4 3 != 0
  | 8 => bits y 8 24 != 0 || bits y 4 3 != 0
  | 9 =>
    let e := s.tch (bits y 0 8)
    bits y 15 17 != 0 || !tcEn e || shapeTotal h % 4096 != 0 || decide (tcWin e * 4096 < shapeTotal h)
  | 10 => y >>> 24 != 0
  | 11 => y >>> 16 != 0 || decide (3 < bits y 4 3) || bits y 2 2 == 3 || bits y 0 2 == 3 || shapeRows h != 1
  | _ => false

/-- A base is beyond the virtual addresses. -/
def baseFault (e b : Nat) : Check := (epKind e == 0 && decide (2 ^ 56 ≤ b), 0x03, b % 2 ^ 56)

/-- The checks of a copy of descriptor g before its commit, in the order of R329: what fails, cause, detail. -/
def State.copyChecks (s : State) (i : Instr) (g x y : Nat) : List Check :=
  let ds := s.descriptor g
  let d (k : Nat) : Nat := (nth 0 ds k).toNat
  let src := d 0
  let dst := d 1
  let h := d 2
  let aux := d 3
  let mo := copyMo i
  let xv := s.rsn x
  let yv := s.rsn y
  let size := (s.allot s.bun.core s.me.crew).2
  let sBase := if mo = 7 then epBase src 0 else epBase src xv
  let dBase := if mo = 7 then epBase dst xv else if mo = 1 ∨ mo = 2 ∨ mo = 3 then epBase dst yv else epBase dst 0
  let q := epKind dst == 1 && epQ dst
  let qw := s.queue (epQn dst)
  let sr := epKind src == 1
  let dr := (epKind dst == 1 && !q && mo != 6 && mo != 9) || (epKind dst == 3 && !epForm dst)
  let detached := s.me.crew == 0xFFFF
  let barLocal := flagBar i && (epKind dst == 0 || epKind dst == 1 || (epKind dst == 3 && !epForm dst))
  let sMis := if mo = 7 then sBase % 8 != 0 else sBase % 4 != 0
  let bl := flagBl i && (sBase % 4096 != 0 || dBase % 4096 != 0 || bits h 0 20 % 1024 != 0 ||
    (shapeRows h != 1 && (shapeSstr h % 4096 != 0 || shapeDstr h % 4096 != 0)))
  [ (epReserved src || (mo != 6 && mo != 9 && epReserved dst) || !kindsGood i src dst s.bun.core, 0x01, 0),
    (bits aux 23 9 != 0 || (!flagChn i && bits aux 32 32 != 0) || (!flagBar i && bits aux 0 23 != 0), 0x01, 0),
    (flagHnd i && (bits (d 4) 48 16 != 0 || bits (d 4) 0 5 != 0 || d 7 != 0), 0x01, 0),
    (s.wordBad i h yv, 0x01, 0),
    (q && (epOff dst != 0 || epCore dst != s.bun.core % 4 || !qEn qw), 0x01, 0),
    (bits h 0 20 == 0 || (shapeRows h != 1 && decide (shapeDstr h < shapeLen h)), 0x01, 0),
    (sr && dr && epKind dst == 1 && epCore src == epCore dst && mo != 7 && rowsMeet h sBase dBase (rowBytes mo h yv) (shapeDstr h),
      0x01, 0),
    (sr && q && epCore src == s.bun.core % 4 && detached == false &&
      rowsMeet h sBase (qBase qw + qTail qw * qEsz qw + yv) (shapeLen h) (shapeDstr h), 0x01, 0),
    baseFault src sBase, baseFault dst dBase,
    (sMis, 0x05, sBase % 2 ^ 56), (dBase % 4 != 0, 0x05, dBase % 2 ^ 56),
    (flagBar i && bits aux 0 23 % 16 != 0, 0x05, bits aux 0 23),
    (bl, 0x05, (if sBase % 4096 != 0 then sBase else dBase) % 2 ^ 56),
    (detached && (sr || dr || q || flagBar i), 0x06, 0),
    (sr && decide (size < sBase + (if mo = 7 then 8 else shapeSpan h (shapeSstr h))), 0x06, sBase),
    (dr && decide (size < dBase + (shapeRows h - 1) * shapeDstr h + rowBytes mo h yv), 0x06, dBase),
    (q && decide (qEsz qw < yv + shapeTotal h), 0x06, yv),
    (q && decide (size < qBase qw + qTail qw * qEsz qw + yv + shapeSpan h (shapeDstr h)), 0x06, qBase qw + qTail qw * qEsz qw + yv),
    (barLocal && decide (size < bits aux 0 23 + 16), 0x06, bits aux 0 23) ]

/-- Room beside the track: an element of the queue that a copy enters, or credit of its channel. -/
def State.copyRoom2 (s : State) (i : Instr) (g y : Nat) (fin : State → State) : State :=
  let dst := (nth 0 (s.descriptor g) 1).toNat
  let h := (nth 0 (s.descriptor g) 2).toNat
  if epKind dst == 1 && epQ dst then s.qRoom (epQn dst) fin
  else if copyMo i = 9 then s.creditRoom (bits (s.rsn y) 0 8) (shapeTotal h / 4096) fin
  else fin s

/-- Room for a copy: a track, then the rest (R304, R306); a lenient hold counts in each resource that is full. -/
def State.copyRoom (s : State) (i : Instr) (ch g y : Nat) (fin : State → State) : State :=
  if (s.tracksBusy s.bun.core (ch % 2)).length < 8 then s.copyRoom2 i g y fin
  else if s.cr 0x007 = 0 then s.trap 0x07 1
  else (s.waitFor 1 (0x010 + ch % 2)).copyRoom2 i g y fun s => s

/-- A copy of descriptor g: every check before commit; then the chained word, the log, room. -/
def State.copyIssue (s : State) (i : Instr) (ch g x y : Nat) : Answer :=
  .next (s.memGate fun s => s.checks (s.copyChecks i g x y) fun s =>
    let ds := s.descriptor g
    let go (mt : Option MtWord) (s : State) : State :=
      s.unless (flagP i && s.me.phase.opened && decide (16 ≤ s.me.phase.log.length)) 0x17 0 fun s =>
        s.copyRoom i ch g y fun s => s.emit (.copy i ds (s.rs x) (s.rs y) mt)
    if flagChn i then
      match decodeM (bits (nth 0 ds 3).toNat 32 32) with
      | none => s.illegal
      | some w =>
        if mtOp w = 0 then go none s
        else s.mtCheck w (s.core s.bun.core).seqr.frozen true fun m s => go (some m) s
    else go none s)

/-- A form without a descriptor: its word is checked, then room. -/
def State.wordIssue (s : State) (i : Instr) (ch y : Nat) : Answer :=
  .next (s.checks [(s.wordBad i 0 (s.rsn y), 0x01, 0)] fun s =>
    s.trackRoom ch fun s => s.emit (.copy i [] 0 (s.rs y) none))

def execCpy (c g x y f : Nat) (s : State) : Answer := s.copyIssue (.cpy c g x y f) c g x y
def execCpym (c g x y m f : Nat) (s : State) : Answer := s.copyIssue (.cpym c g x y m f) c g x y
def execRdx (c g x y m f : Nat) (s : State) : Answer := s.copyIssue (.rdx c g x y m f) c g x y
def execStash (c g x y : Nat) (s : State) : Answer := s.copyIssue (.stash c g x y) c g x y
def execUnstash (c g x y f : Nat) (s : State) : Answer := s.copyIssue (.unstash c g x y f) c g x y
def execSdrop (c y : Nat) (s : State) : Answer := s.wordIssue (.sdrop c y) c y
def execChsend (c g x y : Nat) (s : State) : Answer := s.copyIssue (.chsend c g x y) c g x y
def execChack (c y : Nat) (s : State) : Answer := s.wordIssue (.chack c y) c y
def execGlean (c g x y : Nat) (s : State) : Answer := s.copyIssue (.glean c g x y) c g x y

/-- 1 ms from the bundle in hand (R25). -/
def State.wakeAt (s : State) : Nat := s.bun.t + s.cyclesOf 1000

/-- drain (R282, R339): it waits for every copy of the core on the channel, then reports the oldest fault of the
context's own. -/
def execDrain (c : Nat) (s : State) : Answer :=
  .next (
    if s.copies.any fun p => p.2.core == s.bun.core && p.2.ch == c then s.parkFor (.drain c s.wakeAt)
    else
      match s.me.cfaults.find? (fun f => f.1 == c) with
      | some f =>
        let first := s.bun.trap.isNone
        let s := s.trap f.2.1 f.2.2
        if first then { s with bun := { s.bun with clearCh := some c } } else s
      | none => s.emit (.drain c))

/-- qpush (R342): the queue enabled, its element inside the grant (R376), room. -/
def execQpush (k x y : Nat) (s : State) : Answer :=
  .next (s.unless (!qEn (s.queue k)) 0x01 0 fun s =>
    s.unless (s.me.crew == 0xFFFF) 0x06 0 fun s =>
      s.qRoom k fun s => s.emit (.qpush k (s.rs x) (s.rs y) (qEsz (s.queue k))))

/-- nop of CP (R65). -/
def execNopC (s : State) : Answer := .next s

end Sys2Proof.Machine
end

