-- ==== Sys2Proof/Machine/SchedIsa.lean ====
section
/-! DEFINITION. The scheduling, barrier and remote-region forms as they issue (R354, R356, R377 to R387, R423 to R425):
their checks; what they do at commit is in Commit. -/

namespace Sys2Proof.Machine

/-! ### Ready-queue room (R304, R313) -/

def Cluster.ringSize (c : Cluster) : Nat := if c.rsize = 0 then 0 else 2 ^ c.rsize

/-- Entries that pushes can still take, after the refills of the cycle and those pushed in it. -/
def Cluster.free (c : Cluster) : Nat := 32 - c.queue.length + (c.ringSize - c.rcnt) - c.pushes.length

/-- Room reserved in a cluster's queue: suspends that wait to take effect, launches that wait for zeroing. -/
def State.reservedRoom (s : State) (cl : Nat) : Nat :=
  (List.range 4).foldl (fun n c => n + ((s.core (4 * cl + c)).ctxs.filter fun p =>
    match p.2.wait, p.2.after with | .suspend .., _ => true | _, .suspend .. => true | _, _ => false).length) 0 +
    (s.cluster cl).waiting.foldl (fun n l => n + l.records.length) 0

/-- Room for n records, or the strict trap or the lenient hold (detail 2; counter rqst). -/
def State.readyRoom (s : State) (n : Nat) (go : State → State) : State :=
  let cl := s.bun.core / 4
  if n + s.reservedRoom cl ≤ (s.cluster cl).free then go s
  else if s.cr 0x007 = 0 then s.trap 0x07 2 else s.waitFor 2 0x020

/-- Whether a write of the strand is still to perform: a pending release. Transform commands count only under fwait
(R275). -/
def State.relPending (s : State) : Bool := s.me.rel.isSome

/-- A form that acts as a release, or reads or writes memory in its place in program order, waits at issue until the strand's
earlier writes have performed (R247, R273, R279). -/
def State.relGate (s : State) (go : State → State) : State := if s.relPending then s.waitFor 7 0 else go s

/-! ### Strands (R377 to R379) -/

/-- spawn (R377): n is the count less one. -/
def execSpawn (d a n : Nat) (s : State) : Answer :=
  .next (s.relGate fun s => s.unless (s.me.crew == 0xFFFF) 0x01 0 fun s =>
    s.access (s.locatePad (s.rsn a) (64 * (n + 1)) 64) fun pa _ _ =>
      s.readyRoom (n + 1) fun s => s.emit (.sched (.spawn d a n) [wd pa]))

/-- suspend (R378): in handler state a trap, which is a double trap (R193). -/
def execSuspend (p i f : Nat) (s : State) : Answer :=
  .next (s.unless (s.me.crew == 0xFFFF || s.me.phase.opened || s.me.region.opened || s.me.handler) 0x01 0 fun s =>
    s.readyRoom 1 fun s => s.emit (.sched (.suspend p i f) []))

/-- exit (R379). -/
def execExit (s : State) : Answer :=
  .next (s.unless s.me.region.opened 0x01 0 fun s => s.emit (.endStrand none))

/-! ### Crews (R380) -/

/-- The live entry of the issuing core's cluster that an id names (R373). -/
def State.liveCrew (s : State) (id : Nat) : Option Crew :=
  let e := s.crewOf s.bun.core id
  if bits id 11 5 = s.bun.core / 4 ∧ e.live ∧ e.gen = bits id 6 5 then some e else none

/-- Whether copies that the strand issued are still under way. -/
def State.strandCopies (s : State) : Bool :=
  s.copies.any fun p => p.2.core == s.bun.core && p.2.uid == s.me.uid && p.2.reply.isNone

/-- join and leave wait until the sequencer is idle and the strand's copies have completed, and, because the crew they
leave may come to zero and release its writes (R373), until the strand's writes have performed. -/
def State.crewGate (s : State) (go : State → State) : State :=
  if s.seqBusy || s.strandCopies || s.relPending then s.waitFor 6 0
  else s.unless (s.me.phase.opened || s.me.region.opened) 0x01 0 go

def execCrewJoin (d a : Nat) (s : State) : Answer :=
  .next (s.crewGate fun s =>
    let v := s.rsn a
    match s.liveCrew v with
    | none => s.result d 2 1
    | some e =>
      if v ≥ 65536 then s.result d 2 1
      else if v = s.me.crew then s.result d 2 0
      else if e.memb = 65535 then s.result d 2 2
      else (s.result d 2 0).emit (.sched (.crewJoin d a) [wd v]))

def execCrewLeave (s : State) : Answer := .next (s.crewGate fun s => s.emit (.sched .crewLeave []))

def execCrewInfo (d a : Nat) (s : State) : Answer :=
  .next (s.result d 2 (match s.liveCrew (s.rsn a % 65536) with
    | none => 0
    | some e => wd (e.memb * 2 ^ 48 + e.accm * 2 ^ 44 + e.sqBase * 2 ^ 35 + e.sqCnt * 2 ^ 26)))

/-! ### Dormant slots (R381) -/

def execDormArm (d a : Nat) (s : State) : Answer :=
  .next (s.unless (s.rsn a >>> 4 != 0 || s.me.crew == 0xFFFF) 0x01 0 fun s =>
    s.emit (.sched (.dormArm d a) [s.rs a]))

def execDormDisarm (d a : Nat) (s : State) : Answer :=
  .next (s.unless (s.rsn a >>> 3 != 0 || s.me.crew == 0xFFFF) 0x01 0 fun s =>
    s.emit (.sched (.dormDisarm d a) [s.rs a]))

def execDormCount (d : Nat) (s : State) : Answer :=
  .next (s.unless (s.me.crew == 0xFFFF) 0x01 0 fun s =>
    s.result d 2 (wd ((s.core s.bun.core).ctxs.filter fun p => p.2.st == .dormant && !p.2.due && p.2.crew == s.me.crew).length))

/-! ### The Silo (R385 to R387) -/

/-- Silo set k as one 1024-bit number. -/
def State.silo (s : State) (k : Nat) : Nat := s.sm (0x3800 + 128 * k) 128
def siloEn (e : Nat) : Bool := bit e 1023
def siloMulti (e : Nat) : Bool := bit e 1022
def siloBufs (e : Nat) : Nat := bits e 1019 3 + 1
def siloOwner (e : Nat) : Nat := bits e 1014 5
/-- Fields of buffer i, buffer 0 in the lowest bits of each group (DESIGN CHOICE, log entry 37). -/
def siloBst (e i : Nat) : Nat := bits e (848 + 2 * i) 2
def siloVnum (e i : Nat) : Nat := bits e (592 + 32 * i) 32
def siloPins (e i : Nat) : Nat := bits e (464 + 16 * i) 16
def siloAddr (e i : Nat) : Nat := bits e 904 56 + i * bits e 864 40

/-- The staged buffer of a set. -/
def siloStaged (e : Nat) : Option Nat := (List.range (siloBufs e)).find? fun i => siloBst e i == 1

/-- Whether wvnew.stage has room (R387). -/
def siloRoom (e : Nat) : Bool :=
  !siloEn e || (if siloMulti e then (siloStaged e).isSome || (List.range (siloBufs e)).any fun i => siloBst e i == 0
    else (List.range 8).all fun i => siloPins e i == 0)

/-- A wv form: the set's number is checked, then the owner of a wvnew, also where the set is disabled (R387; DESIGN CHOICE, log
entry 37). -/
def State.wvIssue (s : State) (i : Instr) (a : Nat) (tag : Nat) (isNew : Bool) (go : State → (State → State) → State) : Answer :=
  let k := s.rsn a
  .next (s.unless (decide (64 ≤ k) || (isNew && siloOwner (s.silo k) != s.bun.core / 4)) 0x01 0 fun s =>
    go s fun s => s.emit (.sched i [wd k, wd tag]))

def execWvpin (d a : Nat) (s : State) : Answer := s.wvIssue (.wvpin d a) a s.me.tag false fun s k => k s
def execWvpinT (d a b : Nat) (s : State) : Answer := s.wvIssue (.wvpinT d a b) a (s.rsn b % 2 ^ 32) false fun s k => k s
def execWvget (d a : Nat) (s : State) : Answer := s.wvIssue (.wvget d a) a s.me.tag false fun s k => k s
def execWvgetT (d a b : Nat) (s : State) : Answer := s.wvIssue (.wvgetT d a b) a (s.rsn b % 2 ^ 32) false fun s k => k s
def execWvrel (d a : Nat) (s : State) : Answer := s.wvIssue (.wvrel d a) a s.me.tag false fun s k => k s
def execWvrelT (d a b : Nat) (s : State) : Answer := s.wvIssue (.wvrelT d a b) a (s.rsn b % 2 ^ 32) false fun s k => k s
def execWvnewStage (d a : Nat) (s : State) : Answer :=
  s.wvIssue (.wvnewStage d a) a 0 true fun s k =>
    if siloRoom (s.silo (s.rsn a)) then k s
    else if s.cr 0x007 = 0 then s.trap 0x07 4 else s.waitFor 2 0x022
def execWvnewPub (a : Nat) (s : State) : Answer := s.wvIssue (.wvnewPub a) a 0 true fun s k => s.relGate k

/-! ### arrive, gtrig, mwait (R382 to R384) -/

def execArrive (d a b : Nat) (s : State) : Answer :=
  .next (s.relGate fun s => s.unless (bits (s.rsn a) 0 26 != 0 || s.rsn b >>> 6 != 0) 0x01 0 fun s =>
    s.emit (.sched (.arrive d a b) [s.rs a, s.rs b]))

def execGtrig (d a b : Nat) (s : State) : Answer :=
  .next (s.relGate fun s => s.unless (s.rsn a >>> 4 != 0) 0x01 0 fun s =>
    s.unless (s.rsn b % 256 != 0) 0x05 (s.rsn b) fun s => s.emit (.sched (.gtrig d a b) [s.rs a, s.rs b]))

/-- mwait: classed, checked and faulted as an ld address. -/
def State.mwait (s : State) (i : Instr) (a b n : Nat) : Answer :=
  .next (s.relGate fun s => s.access (s.locate (s.rsn a) n n true false) fun pa key g =>
    s.emit (.sched i [wd pa, s.rs a, wd key, wd (b2n g), s.rs b, wd n]))

def execMwaitN32 (d a b : Nat) (s : State) : Answer := s.mwait (.mwaitN32 d a b) a b 4
def execMwaitN64 (d a b : Nat) (s : State) : Answer := s.mwait (.mwaitN64 d a b) a b 8

/-! ### Barriers (R418, R420, R423 to R425) -/

def barGen (w : Nat) : Nat := bits w 0 32
def barPbytes (w : Nat) : Nat := bits w 32 32
def barParr (w : Nat) : Nat := bits w 64 16
def barEarr (w : Nat) : Nat := bits w 80 16
def barArmed (w : Nat) : Bool := bit w 96
def barPoison (w : Nat) : Bool := bit w 97

/-- Generation g has passed (R420). -/
def barPassed (w g : Nat) : Bool :=
  let d := (barGen w + 2 ^ 32 - g % 2 ^ 32) % 2 ^ 32
  decide (1 ≤ d ∧ d ≤ 2 ^ 31)

/-- The generation passes when nothing is pending after a decrement (R420). -/
def barPass (w : Nat) : Nat :=
  if barArmed w ∧ !barPoison w ∧ barParr w = 0 ∧ barPbytes w = 0 then
    setBits (setBits w 0 32 (barGen w + 1)) 64 16 (barEarr w)
  else w

/-- The barrier word at s[a] with its address and its offset in the allotment: translation, alignment, bounds. A form that reads
the word waits for the strand's release (R273); one that only changes it orders nothing (R424). -/
def State.barrier (s : State) (a : Nat) (reads bad : Bool) (go : Nat → Nat → State → State) : Answer :=
  let gate (go : State → State) : State := if reads then s.relGate go else go s
  .next (gate fun s => s.unless bad 0x01 0 fun s =>
    s.access (s.locatePad (s.rsn a) 16 16) fun pa _ _ => go pa (s.readPa 0 pa 16) s)

/-- Offset of an aperture address. -/
def State.padOffset (s : State) (a : Nat) : Nat := bits (s.rsn a) 0 40

def execBarInit (a b : Nat) (s : State) : Answer :=
  s.barrier a false (bits (s.rsn b) 16 16 != 0) fun pa _ s => s.emit (.sched (.barInit a b) [wd pa, s.rs b])

def execBarExpect (a b : Nat) (s : State) : Answer :=
  s.barrier a false false fun pa w s =>
    s.unless (!barArmed w || decide (2 ^ 32 ≤ s.rsn b + barPbytes w)) 0x09 (s.padOffset a) fun s =>
      s.emit (.sched (.barExpect a b) [wd pa, s.rs b])

def execBarArrive (d a b : Nat) (s : State) : Answer :=
  s.barrier a false false fun pa w s =>
    s.unless (!barArmed w || barParr w == 0 || decide (2 ^ 32 ≤ s.rsn b + barPbytes w)) 0x09 (s.padOffset a) fun s =>
      s.emit (.sched (.barArrive d a b) [wd pa, s.rs b])

def execBarWait (d a b : Nat) (s : State) : Answer :=
  s.barrier a true (s.rsn b >>> 32 != 0) fun pa w s =>
    if barPoison w then s.trap 0x0A (s.padOffset a)
    else if barPassed w (s.rsn b) then s.emit (.sched (.barWait d a b) [wd (barGen w)])
    else s.parkFor (.bar pa s.wakeAt)

def execBarTest (d a b : Nat) (s : State) : Answer :=
  s.barrier a true (s.rsn b >>> 32 != 0) fun _ w s =>
    let p := barPassed w (s.rsn b)
    s.emit (.sched (.barTest d a b) [wd (b2n (barPoison w) * 2 ^ 63 + b2n p * 2 ^ 32 + barGen w), wd (b2n p)])

/-! ### Remote regions (R354, R356) -/

def execRbeg (l : Nat) (s : State) : Answer :=
  .next (s.unless s.me.region.opened 0x01 0 fun s => s.emit (.sched (.rbeg l) []))

/-- Rollbacks since rbeg, saturating. -/
def rstatAtt (r : Nat) : Nat := bits r 56 6

/-- Whether a remote operation of the strand's region is still out, a publish that its release still holds among them
(R285, R355). -/
def State.regionBusy (s : State) : Bool :=
  (s.remotes.any fun p => p.2.region && p.2.uid == s.me.uid) || (s.copies.any fun p => p.2.region && p.2.uid == s.me.uid) ||
    match s.me.rel with
    | some ⟨_, .publish _ r⟩ => r
    | some ⟨_, .phase _ r⟩ => r
    | _ => false

/-- Whether a packet that the strand began in its region lacks words (R356). -/
def State.regionPart (s : State) : Bool :=
  (s.core s.bun.core).lf.any fun p => !p.2.part.isEmpty && p.2.partRegion && p.2.partOwner == s.me.uid

/-- rcom: it waits for the region's operations; then success, a rollback, or a precise trap when the limit is reached. -/
def execRcom (s : State) : Answer :=
  .next (
    let r := (s.cr 0x00A).toNat
    let g := s.me.region
    if !g.opened then s.illegal
    else if s.regionPart then s.illegal
    else if s.regionBusy then s.waitFor 10 0
    else if !bit r 62 then s.emit (.sched .rcom [0])
    else if g.limit = 0 ∨ rstatAtt r + 1 < g.limit then s.emit (.sched .rcom [1])
    else
      let first := s.bun.trap.isNone
      let s := s.trap 0x0F (bits r 0 56)
      if first then { s with bun := { s.bun with clearCh := some 8 } } else s)

end Sys2Proof.Machine
end

