-- ==== Sys2Proof/Machine/Store.lean ====
section
/-! DEFINITION. Accesses at the point of coherence (R221, R242, R249, R269): loads through L1, stores, atomics;
barrier counts (R421); CRC-32C. -/

namespace Sys2Proof.Machine

/-! ### Stores and loads -/

/-- L1's copy of a line takes a store that finds it (R221). -/
def Core.l1Store (k : Core) (pa n v : Nat) : Core :=
  let line := (tget [] k.l1 (pa / 128)).zipIdx.map fun p =>
    if pa % 128 ≤ p.2 ∧ p.2 < pa % 128 + n then bits v (8 * (p.2 - pa % 128)) 8 else p.1
  if thas k.l1 (pa / 128) then { k with l1 := tset k.l1 (pa / 128) line } else k

/-- A scalar store (R242). -/
def State.storeAt (s : State) (core uid size pa va key : Nat) (w : Nat) (global : Bool) : State :=
  let space := s.me.space
  let s := s.perform uid 0 (if global then s.leafOf core space va else 0) key pa size (w % 2 ^ (8 * size))
  if global then s.modCore core fun k => k.l1Store pa size w else s

/-- L1 is emptied (R221). -/
def State.dropL1 (s : State) (core : Nat) : State := s.modCore core fun k => { k with l1 := [] }

/-- Lines that L1 holds under a split (R4, R216): code k gives L1 512 (k + 1) KiB. -/
def l1Lines (split : Nat) : Nat := (split + 1) * 4096

/-- A line comes into L1; a full one gives up its first line for it. -/
def Core.l1Add (k : Core) (line : Nat) (l : List Nat) : Core :=
  let old := tdel k.l1 line
  { k with l1 := tset (if l1Lines k.split ≤ old.length then old.drop 1 else old) line l }

/-- Whether a load finds its line in L1: it is there, and has not been replaced since, a free choice (log entry 15). -/
def State.l1Hit (s : State) (core pa : Nat) : Bool := thas (s.core core).l1 (pa / 128) && s.drawNat.1 % 2 == 0

/-- A global load: from L1, else from the point of coherence, where the line takes the place of what L1 held of it, unless some of
it is poisoned; value and poison mark (R221, R241, R270). -/
def State.loadGlobal (s : State) (core pa key n : Nat) : (Nat × Nat) × State :=
  let k := s.core core
  let line := pa / 128
  let s' := if thas k.l1 line then s.drawNat.2 else s
  if s.l1Hit core pa then ((pack 8 (((tget [] k.l1 line).drop (pa % 128)).take n), 0), s')
  else
    ((s.readPa key pa n, b2n (s.poisonedAt pa n)),
      s'.modCore core fun k =>
        if s.poisonedAt (128 * line) 128 then { k with l1 := tdel k.l1 line }
        else k.l1Add line (s.readList key (128 * line) 128))

/-- The register value of a load by type code (R240). -/
def loadValue (ty x : Nat) : Word :=
  let w := 8 * typeBytes ty
  if ty % 2 = 1 ∧ w < 64 then wi (sext w x) else wd (x % 2 ^ w)

/-! ### Atomics (R248 to R250) -/

/-- The new value of a location; none where cas does not match. -/
def Rmw.new (r : Rmw) (old : Nat) : Option Nat :=
  let w := 8 * r.size
  let b := r.src.toNat % 2 ^ w
  match r.op with
  | 0 => some ((old + b) % 2 ^ w)
  | 1 => some (old &&& b)
  | 2 => some (old ||| b)
  | 3 => some (old ^^^ b)
  | 4 => some (if sext w b < sext w old then b else old)
  | 5 => some (if sext w old < sext w b then b else old)
  | 6 => some (min old b)
  | 7 => some (max old b)
  | 8 => some b
  | 9 => let f : Fmt := if w = 64 then f64 else f32
         some (f.arith ⟨0, false⟩ 0 (FVal.add 0 (f.decode old) (f.decode b)))
  | _ => if old = r.expect.toNat % 2 ^ w then some b else none

/-- An atomic performs at its point of coherence: old value, poison mark, whether it could not perform (R207, R249,
R250). -/
def State.performRmw (s : State) (uid leaf : Nat) (r : Rmw) (pa key : Nat) : (Nat × Nat × Bool) × State :=
  let old := s.readPa key pa r.size
  if s.poisonedAt pa r.size then ((old, 1, false), (s.downAccess pa).l2Fills leaf pa r.size)
  else
    match r.new old with
    | some v =>
      if s.writeFails.contains (pa / 64) then
        ((old, 1, true), { s.poisonRange pa r.size with writeFails := s.writeFails.filter (· != pa / 64) })
      else ((old, 0, false), s.perform uid 0 leaf key pa r.size v)
    | none => ((old, 0, false), s.l2Fills leaf pa r.size)

/-! ### Barrier counts (R420, R421) -/

def State.putBarrier (s : State) (pa w : Nat) : State := (s.writePa 0 pa 16 w).wakeWriters pa 16

/-- An arrival at a barrier word is counted (R424). -/
def State.countArrival (s : State) (pa n : Nat) : State :=
  let b := s.readPa 0 pa 16
  s.putBarrier pa (barPass (setBits (setBits b 32 32 (barPbytes b + n)) 64 16 (barParr b - 1)))

/-- The release of a context has performed; the arrivals at barriers that came after it count now (R424). -/
def State.relDone (s : State) (c j : Nat) : State :=
  (s.ctx c j).arrives.foldl (fun s a => s.countArrival a.1 a.2) (s.modCtx c j fun x => { x with rel := none, arrives := [] })

/-- An engine count of n bytes at a barrier word (R421). -/
def State.countBarrier (s : State) (pa n : Nat) : State :=
  let w := s.readPa 0 pa 16
  if n = 0 ∨ barPoison w then s
  else if !barArmed w then (s.putBarrier pa (setBits w 97 1 1)).bumpCounter (padCore pa) 0x02A 1
  else if n ≤ barPbytes w then s.putBarrier pa (barPass (setBits w 32 32 (barPbytes w - n)))
  else (s.putBarrier pa (setBits w 97 2 3)).bumpCounter (padCore pa) 0x02B 1

end Sys2Proof.Machine
end

