-- ==== Sys2Proof/Machine/Granary.lean ====
section
/-! DEFINITION. The global copy engines' tracks (R307), errors in what the MBS reads (R226), and the Granary (R345 to R348,
R389 to R394): its directory, pools, placement, demotion, prefetch, and what it does with a request. -/

namespace Sys2Proof.Machine

/-- Stable insertion sort. -/
def insertBy (le : α → α → Bool) (x : α) : List α → List α
  | [] => [x]
  | y :: l => if le x y then x :: y :: l else y :: insertBy le x l
def sortBy (le : α → α → Bool) (l : List α) : List α := l.foldr (insertBy le) []

/-! ### Tracks of the global engines (R307) -/

/-- Whether one of the 64 engines' 512 tracks is free. -/
def State.globalFree (s : State) : Bool := decide (s.gtracks.length < 512)

/-- Work takes the lowest free track; work is twice the copy of a glean or a Granary request, 1 for a page move, or 3 more than
twice the directory index of a prefetch. -/
def State.takeGlobal (s : State) (work : Nat) : State :=
  match (List.range 512).find? fun t => !thas s.gtracks t with
  | some t => { s with gtracks := tset s.gtracks t work }
  | none => s

def State.freeGlobal (s : State) (work : Nat) : State := { s with gtracks := s.gtracks.filter fun p => p.2 != work }

/-! ### Errors in what the MBS reads (R226) -/

/-- A poisoned read by the MBS ends the running replay and stops further picks. -/
def State.mbsError (s : State) (pa n : Nat) : State :=
  { s with
    damaged := (((List.range ((n + 7) / 8)).map (8 * · + pa)).filter (s.poisonedAt · 1)).foldl (fun l a => l.insert a) s.damaged
    replay := s.replay.map fun r => { r with dataError := true } }

/-- Note an uncorrectable error in n bytes of scheduler memory that the MBS reads. -/
def State.mbsRead (s : State) (off n : Nat) : State :=
  if s.poisonedAt (schedBase + off) n then s.mbsError (schedBase + off) n else s

/-- Whether picks are stopped: until the supervisor has rewritten what was damaged in scheduler memory, or whoever writes the
ring has rewritten it. -/
def State.noPick (s : State) : Bool := s.damaged.any fun a => isSched a || s.poisonedAt a 1

/-! ### Data with poison marks -/

/-- The 4 KiB blocks of a list of bytes; the last may be short. -/
def blocksOf (l : List Nat) : List (List Nat) :=
  (List.range (ceilDiv l.length 4096)).map fun i => (l.drop (4096 * i)).take 4096

def plainBytes (l : List Nat) : List Nat := l.map (· % 256)

/-- Bytes with their poison, by 64-byte granule. -/
def State.readMarked (s : State) (key pa n : Nat) : List Nat :=
  (s.readList key pa n).zipIdx.map fun p => if s.poisonedAt (pa + p.2) 1 then p.1 + 256 else p.1

def State.writeMarked (s : State) (key pa : Nat) (l : List Nat) : State :=
  let s := s.writeList key pa (plainBytes l)
  (l.zipIdx.filter fun p => decide (256 ≤ p.1)).foldl (fun s p => s.poisonRange (pa + p.2) 1) s

/-! ### The directory (R390) -/

/-- Directory entry i as one 256-bit number. -/
def State.gdir (s : State) (i : Nat) : Nat := s.sm (0x10000 + 32 * i) 32
def State.gdirPut (s : State) (i v : Nat) : State := s.smPut (0x10000 + 32 * i) 32 v
def gV (e : Nat) : Bool := bit e 255
def gStage (e : Nat) : Nat := bits e 249 6
def gSlot (e : Nat) : Nat := bits e 245 4
def gState (e : Nat) : Nat := bits e 242 3
def gPol (e : Nat) : Nat := bits e 240 2
def gPst (e : Nat) : Nat := bits e 237 3
def gSize (e : Nat) : Nat := bits e 210 27
def gLoc (e : Nat) : Nat := bits e 152 44
def gTag (e : Nat) : Nat := bits e 96 32
def gStored (e : Nat) : Nat := bits e 64 32

/-- The state its data is stored under: PSTATE while it is prefetching. -/
def gHome (e : Nat) : Nat := if gState e = 5 then gPst e else gState e

/-- The pool an entry's data lies in: 0 resident, 1 HBM, 2 CXL. -/
def gPool (e : Nat) : Option Nat :=
  match gHome e with | 0 => some 0 | 1 => some 0 | 2 => some 1 | 3 => some 2 | _ => none

def State.gentries (s : State) : List (Nat × Nat) :=
  ((List.range 4096).map fun i => (i, s.gdir i)).filter fun p => gV p.2

/-- The entry of a name. -/
def State.gfind (s : State) (stage tag slot : Nat) : Option (Nat × Nat) :=
  s.gentries.find? fun p => gStage p.2 == stage && gTag p.2 == tag && gSlot p.2 == slot

/-! ### Pools (R389) -/

def chunks (n : Nat) : Nat := ceilDiv n 65536

/-- Base and chunks of a pool. -/
def State.pool (s : State) (p : Nat) : Nat × Nat := tget (0, 0) s.pools p

/-- Runs of chunks that entries hold in a pool. -/
def State.runs (s : State) (p : Nat) : List (Nat × Nat) :=
  (s.gentries.filter fun e => gPool e.2 == some p).map fun e => ((gLoc e.2 - (s.pool p).1) / 65536, chunks (gStored e.2))

/-- First fit: the lowest chunk from which n chunks are free. -/
def firstFit (size n : Nat) (used : List (Nat × Nat)) : Option Nat :=
  (List.range (size + 1 - n)).find? fun c => used.all fun r => decide (c + n ≤ r.1 ∨ r.1 + r.2 ≤ c)

/-- Where a pool has room for so many bytes. -/
def State.granRoom (s : State) (p bytes : Nat) : Option Nat :=
  if (s.pool p).2 = 0 then none
  else (firstFit (s.pool p).2 (chunks bytes) (s.runs p)).map fun c => (s.pool p).1 + 65536 * c

/-! ### Stored data -/

/-- Which blocks of data a compressed entry stores as bales, and the bytes it takes. -/
def granForms (pol : Nat) (l : List Nat) : List Bool :=
  (blocksOf l).map fun b => pol == 1 && baleStores (plainBytes b) && b.all (fun x => decide (x < 256))
def granBytes (forms : List Bool) (l : List Nat) : Nat :=
  ((blocksOf l).zip forms).foldl (fun n p => n + if p.2 then baleSize (baleMask (plainBytes p.1)) else p.1.length) 0
def granStream (forms : List Bool) (l : List Nat) : List Nat :=
  ((blocksOf l).zip forms).flatMap fun p => if p.2 then baleEncode (plainBytes p.1) else p.1

/-- The data behind a stored stream; a bad bale is a poisoned block (R234). -/
def granExpand (forms : List Bool) (size : Nat) : List Nat → List Nat
  | l =>
    (forms.foldl (fun a f =>
      let left := l.drop a.2
      let n := min 4096 (size - a.1.length)
      if f then
        let z := baleSize (ofBytes (plainBytes (left.take 8)))
        let b := left.take z
        (a.1 ++ (if b.all (fun x => decide (x < 256)) then
          (match baleDecode b with | some d => d | none => List.replicate 4096 256)
          else List.replicate 4096 256), a.2 + z)
      else (a.1 ++ left.take n, a.2 + n)) (([] : List Nat), 0)).1

/-- The bytes of an entry, in whatever state it is (R392). -/
def State.granData (s : State) (i : Nat) : List Nat :=
  let e := s.gdir i
  match gState e, gPool e with
  | 5, _ =>
    if thas s.hidden i then (tget [] s.hidden i).drop 1
    else granExpand (tget [] s.granForm i) (gSize e) (s.readMarked 0 (gLoc e) (gStored e))
  | _, some 0 => tget [] s.resident i
  | _, some _ => granExpand (tget [] s.granForm i) (gSize e) (s.readMarked 0 (gLoc e) (gStored e))
  | _, none => []

/-- An entry's data goes to a pool at a place: the directory's state and location, and the bytes. -/
def State.granStore (s : State) (i pool loc : Nat) (l : List Nat) : State :=
  let e := s.gdir i
  let f := tget [] s.granForm i
  let st := if pool = 0 then b2n (gPol e == 1) else pool + 1
  let s := s.gdirPut i (setBits (setBits e 242 3 st) 152 44 loc)
  if pool = 0 then
    let lo := (loc - (s.pool 0).1) / 65536
    let hi := lo + chunks (gStored e)
    { s with
      resident := tset s.resident i l
      hidden := s.hidden.filter fun p => decide (hi ≤ p.2.headD 0 ∨ p.2.headD 0 + chunks (gStored (s.gdir p.1)) ≤ lo) }
  else { (s.writeMarked 0 loc (granStream f l)) with resident := tdel s.resident i }

/-- An entry leaves the directory (R392). -/
def State.granRemove (s : State) (i : Nat) : State :=
  { ((s.gdirPut i 0).freeGlobal (2 * i + 3)) with
    resident := tdel s.resident i, hidden := tdel s.hidden i, granForm := tdel s.granForm i
    prefetch := s.prefetch.filter (· != i), prefetchWait := s.prefetchWait.filter (· != i) }

/-! ### Demotion (R391) -/

/-- Entries of a stage in a pool that can be demoted, highest tag first. -/
def State.demotable (s : State) (stage pool : Nat) : List (Nat × Nat) :=
  sortBy (fun a b => decide (gTag b.2 ≤ gTag a.2))
    (s.gentries.filter fun e => gStage e.2 == stage && gState e.2 != 5 && gPool e.2 == some pool)

/-- The next demotion out of a pool, resident to HBM or HBM to CXL: of the entry with the highest tag of the first n that has room
there. -/
def State.demoteFrom (s : State) (stage pool n : Nat) : Option State :=
  ((s.demotable stage pool).take n).findSome? fun e =>
    (s.granRoom (pool + 1) (gStored e.2)).map fun loc => s.granStore e.1 (pool + 1) loc (s.granData e.1)

/-- Demote until a pool has room; none where no demotion gives it. Where the HBM pool lacks room for the entry with the highest tag that
leaves the resident one, its own entries move on first; lower tags come after that. -/
def State.makeRoom (s : State) (stage pool bytes : Nat) : Nat → Option (Nat × State)
  | 0 => none
  | n + 1 =>
    match s.granRoom pool bytes with
    | some loc => some (loc, s)
    | none =>
      let next : Option State :=
        if pool = 0 then ((s.demoteFrom stage 0 1).orElse fun _ => s.demoteFrom stage 1 4096).orElse fun _ => s.demoteFrom stage 0 4096
        else s.demoteFrom stage pool 4096
      match next with
      | some s => s.makeRoom stage pool bytes n
      | none => none

/-- The place a policy gives a new entry: pool, location, and the state after what was demoted. -/
def State.granTarget (s : State) (stage pol bytes : Nat) : Option (Nat × Nat × State) :=
  match pol with
  | 3 => none
  | 2 =>
    match s.granRoom 1 bytes, s.granRoom 2 bytes with
    | some l, _ => some (1, l, s)
    | none, some l => some (2, l, s)
    | none, none => (s.makeRoom stage 1 bytes 8193).map fun p => (1, p.1, p.2)
  | _ => (s.makeRoom stage 0 bytes 8193).map fun p => (0, p.1, p.2)

/-! ### Prefetch (R393) -/

/-- A prefetch ends without effect: the hidden copy goes, STATE := PSTATE. -/
def State.cancelPrefetch (s : State) (i : Nat) : State :=
  let e := s.gdir i
  if gState e = 5 then
    { ((s.gdirPut i (setBits (setBits e 242 3 (gPst e)) 237 3 0)).freeGlobal (2 * i + 3)) with
      hidden := tdel s.hidden i, prefetch := s.prefetch.filter (· != i), prefetchWait := s.prefetchWait.filter (· != i) }
  else s

/-- Prefetches that wait for room enter the queue, behind the program requests that wait too; those there take their tracks while no
program request waits (R307, R319). -/
def State.feedPrefetch (s : State) : State :=
  let n := 1024 - (s.granaryQ.length + s.prefetch.length)
  let s := { s with prefetch := s.prefetch ++ s.prefetchWait.take n, prefetchWait := s.prefetchWait.drop n }
  if !s.granaryQ.isEmpty then s
  else s.prefetch.foldl (fun s i =>
    if s.globalFree && !s.gtracks.any (fun p => p.2 == 2 * i + 3) then s.takeGlobal (2 * i + 3) else s) s

/-- A stage's PREDB changes: the entries of the tag before are cancelled, unless that B was launched; those of the new
tag that lie in a spill pool are prefetched. -/
def State.predicted (s : State) (stage old new : Nat) (launched : Bool) : State :=
  if old = new then s
  else
    let mine (t : Nat) := fun (p : Nat × Nat) => gStage p.2 == stage && gTag p.2 == t
    let s := if launched then s else (s.gentries.filter (mine old)).foldl (fun s p => s.cancelPrefetch p.1) s
    State.feedPrefetch ((s.gentries.filter fun p => mine new p && (gState p.2 == 2 || gState p.2 == 3)).foldl (fun s p =>
      { (s.gdirPut p.1 (setBits (setBits p.2 237 3 (gState p.2)) 242 3 5)) with prefetchWait := s.prefetchWait ++ [p.1] }) s)

/-- A hidden copy is made where the resident pool has room beside every copy there; it never demotes. -/
def State.prefetchDone (s : State) (i : Nat) : State :=
  let e := s.gdir i
  let hid := s.hidden.map fun p => (p.2.headD 0, chunks (gStored (s.gdir p.1)))
  let s' := State.feedPrefetch { (s.freeGlobal (2 * i + 3)) with prefetch := s.prefetch.filter (· != i) }
  if gState e = 5 then
    match (if (s.pool 0).2 = 0 then none else firstFit (s.pool 0).2 (chunks (gStored e)) (s.runs 0 ++ hid)) with
    | some c => { s' with hidden := tset s.hidden i (c :: s.granData i) }
    | none => s'
  else s'

/-! ### Requests (R346 to R348) -/

/-- An entry for data under a policy: what there was under the name is replaced; none where the directory is full. -/
def State.granStash (s : State) (stage tag slot pol : Nat) (l : List Nat) : Option State :=
  let s := match s.gfind stage tag slot with
    | some e => s.granRemove e.1
    | none => s
  match (List.range 4096).find? fun i => !gV (s.gdir i) with
  | none => none
  | some i =>
    let f := granForms pol l
    let n := granBytes f l
    let e := 2 ^ 255 + stage * 2 ^ 249 + slot * 2 ^ 245 + pol * 2 ^ 240 + l.length * 2 ^ 210 + tag * 2 ^ 96
    match s.granTarget stage pol n with
    | some (p, loc, s) =>
      let s := { (s.gdirPut i (e + n * 2 ^ 64)) with granForm := tset s.granForm i f }
      some (s.granStore i p loc l)
    | none => some { (s.gdirPut i (e + 4 * 2 ^ 242)) with granDrops := s.granDrops + b2n (pol != 3) }

/-- Entries of a stage go at the start of its graph's replay (R368, R392). -/
def State.granClear (s : State) (stage : Nat) : State :=
  (s.gentries.filter fun p => gStage p.2 == stage).foldl (fun s p => s.granRemove p.1) s

end Sys2Proof.Machine
end

