-- ==== Sys2Proof/Machine/Mbs.lean ====
section
/-! DEFINITION. The microbatch scheduler (chapter 14, R11 to R16, R218, R312 to R315): ready queues, triggers and
snapshots, arrivals, decisions, launches, crews at zero, replay end. -/

namespace Sys2Proof.Machine

/-! ### Continuation records (R374) -/

def recW (r : List Word) (k : Nat) : Nat := (nth 0 r k).toNat
def recCrew (r : List Word) : Nat := bits (recW r 0) 48 16
def recResume (r : List Word) : Nat := bits (recW r 0) 5 43 * 32
def recTag (r : List Word) : Nat := bits (recW r 1) 0 32
def recAff (r : List Word) : Nat := bits (recW r 1) 32 16
def recKind (r : List Word) : Nat := bits (recW r 1) 48 2
def recPri (r : List Word) : Nat := bits (recW r 1) 50 3
def recPre (r : List Word) : Bool := bit (recW r 1) 53
/-- QMODE, SCB and SPIN as bits 2:0. -/
def recModes (r : List Word) : Nat := bits (recW r 1) 54 3

/-- A record of its fields; modes holds QMODE, SCB, SPIN. -/
def mkRecord (crew resume state tag aff kind pri : Nat) (pre : Bool) (modes : Nat) (args : List Word) : List Word :=
  wd (crew % 65536 * 2 ^ 48 + resume % 2 ^ 48 / 32 * 32 + state) ::
    wd (tag % 2 ^ 32 + aff * 2 ^ 32 + kind * 2 ^ 48 + pri * 2 ^ 50 + b2n pre * 2 ^ 53 + modes * 2 ^ 54) :: args.take 6

/-- Whether an affinity admits a core (R374). -/
def affAdmits (aff core : Nat) : Bool := aff == 0xFFFF || aff == core || aff == 0x4000 + core / 4

/-- An affinity is one of the three forms and admits a core of a cluster. -/
def affValid (aff cl : Nat) : Bool :=
  aff == 0xFFFF || (decide (aff < 96) && aff / 4 == cl) || aff == 0x4000 + cl

/-! ### Ready queues (R313) -/

def setRecState (r : List Word) (n : Nat) : List Word :=
  match r with | w :: l => wd (setBits w.toNat 0 5 n) :: l | [] => []

/-- Refill, while hardware has a free entry and the ring holds one. -/
def State.refill (s : State) (cl : Nat) : Nat → State
  | 0 => s
  | n + 1 =>
    let c := s.cluster cl
    if c.queue.length < 32 ∧ 0 < c.rcnt then
      let pa := c.rbase + 64 * c.rhead
      let v := s.readPa 0 pa 64
      let s := if s.poisonedAt pa 64 then s.mbsError pa 64 else s
      let s := s.modCluster cl fun c => { c with
        queue := c.queue ++ [((split 64 8 v).map wd, 0)], rhead := (c.rhead + 1) % c.ringSize
        rcnt := c.rcnt - 1, refills := (c.refills + 1) % 2 ^ 64 }
      s.refill cl n
    else s

/-- A record enters its queue: refills first, then hardware while the ring is empty, else the ring. -/
def State.place (s : State) (cl : Nat) (r : List Word) : State :=
  let s := s.refill cl 32
  let c := s.cluster cl
  if c.rcnt = 0 ∧ c.queue.length < 32 then s.modCluster cl fun c => { c with queue := c.queue ++ [(r, 0)] }
  else if c.rcnt < c.ringSize then
    let s := s.writePa 0 (c.rbase + 64 * c.rtail) 64 (pack 64 (r.map (·.toNat)))
    s.modCluster cl fun c => { c with
      rtail := (c.rtail + 1) % c.ringSize, rcnt := c.rcnt + 1, spills := (c.spills + 1) % 2 ^ 64
      rhigh := max c.rhigh (c.rcnt + 1) }
  else s

/-- A push: its record enters at the end of the cycle, whose refills come first. -/
def State.push (s : State) (cl : Nat) (r : List Word) : State := s.modCluster cl fun c => { c with pushes := c.pushes ++ [r] }

/-! ### Tables (R360, R361, R363, R370) -/

/-- Graph header g. -/
def State.graph (s : State) (g : Nat) : Nat := s.sm (64 * g) 64
def ghEn (e : Nat) : Bool := bit e 511
def ghNodes (e : Nat) : Nat := bits e 480 13
def ghFirst (e : Nat) : Nat := bits e 464 16
def ghCrec (e : Nat) : Nat := bits e 404 44

/-- A node of the pool, and word k of it. -/
def State.node (s : State) (i : Nat) : Nat := s.sm (0x100000 + 128 * i) 128
def ndW (e k : Nat) : Nat := bits e (64 * k) 64
def ndV (e : Nat) : Bool := bit e 0
def ndClset (e c : Nat) : Bool := bit e (40 + c)
def ndIcp (e : Nat) : Nat := bits e 37 3
def ndPri (e : Nat) : Nat := bits e 34 3
def ndGpol (e : Nat) : Nat := bits e 32 2
def ndMemb (e : Nat) : Nat := bits e 16 16
def ndStage (e : Nat) : Nat := bits e 10 6
def ndKind (e : Nat) : Nat := bits e 8 2
/-- QMODE, SCB and SPIN in the order of a record. -/
def ndModes (e : Nat) : Nat := bits e 7 1 + 2 * bits e 6 1 + 4 * bits e 5 1
def ndEntry (e : Nat) : Nat := bits (ndW e 1) 5 43 * 32
def ndAcc (e : Nat) : Nat := bits (ndW e 2) 48 3
def ndSquares (e : Nat) : Nat := ceilDiv (bits (ndW e 2) 0 32 + 4 * bits (ndW e 2) 32 16) 16384
/-- The valid predecessors. -/
def ndPreds (e : Nat) : List Nat :=
  ((List.range 4).filter fun k => bit (ndW e 3) (16 * k + 15)).map fun k => bits (ndW e 3) (16 * k) 12
/-- What is zero in a node: the reserved bits of words 0 and 1, the reserved bytes. -/
def ndReserved (e : Nat) : Bool :=
  bits e 1 4 != 0 || bits (ndW e 1) 48 16 != 0 || bits (ndW e 1) 0 5 != 0 || e >>> 768 != 0

/-- Stage instance st. -/
def State.stageEntry (s : State) (st : Nat) : Nat := s.sm (0x400 + 64 * st) 64
/-- A field of n bits from lo is written, with the bytes that hold it and no others. -/
def State.putStage (s : State) (st lo n v : Nat) : State :=
  let o := lo / 8
  let m := (lo + n + 7) / 8 - o
  s.smPut (0x400 + 64 * st + o) m (bits (setBits (s.stageEntry st) lo n v) (8 * o) (8 * m))
def stEn (e : Nat) : Bool := bit e 511
def stGraph (e : Nat) : Nat := bits e 507 4
def stNode (e k : Nat) : Nat := bits e (495 - 12 * k) 12
def stWarm (e : Nat) : Nat := bits e 463 8
def stState (e : Nat) : Nat := bits e 442 6
def stInfl (e : Nat) : Nat := bits e 410 32
def stPass (e k : Nat) : Nat := bits e (354 + 14 * k) 14
def stPredb (e : Nat) : Nat := bits e 322 32
def stStall (e : Nat) : Nat := bits e 256 64
def stAcnt (e k : Nat) : Nat := bits e (64 * k) 64

/-- Parameter word k of node n in a snapshot (R358). -/
def State.param (s : State) (snap n k : Nat) : Nat := s.sm (0x300000 + 262144 * snap + 64 * n + 8 * k) 8

/-! ### Triggers (R364 to R367) -/

/-- The instance count of a node on a snapshot; 0 is not well formed. -/
def State.instances (s : State) (snap n e : Nat) : Nat := if ndKind e = 3 then 1 else s.param snap n (ndIcp e)

/-- Squares of the smallest scratchpad of a cluster under its splits (R216). -/
def State.padSquares (s : State) (cl : Nat) : Nat :=
  (List.range 4).foldl (fun m k => min m (padBytes (s.core (4 * cl + k)).split / 16384)) 352

/-- R362 for one valid node of graph g. -/
def State.nodeGood (s : State) (g h snap n : Nat) : Bool :=
  let e := s.node (ghFirst h + n)
  let st := s.stageEntry (ndStage e)
  let k := ndKind e
  !ndV e || (stEn st && stGraph st == g && (k == 3 || (stNode st k == n && (ndPreds e).isEmpty)) &&
    (ndPreds e).all (fun p => decide (p < ghNodes h) && ndV (s.node (ghFirst h + p))) &&
    decide (1 ≤ ndMemb e) && decide (bits (ndW e 2) 51 13 ≤ 1952) &&
    (List.range 24).any (fun c => ndClset e c && decide (ndSquares e ≤ s.padSquares c)) &&
    decide (ndAcc e ≤ 4) && !ndReserved e &&
    decide (1 ≤ s.instances snap n e ∧ s.instances snap n e ≤ 2 ^ 32))

def State.wellFormedGraph (s : State) (g snap : Nat) : Bool :=
  let h := s.graph g
  ghEn h && bits h 493 18 == 0 && bits h 448 16 == 0 && bits h 0 404 == 0 &&
    decide (1 ≤ ghNodes h ∧ ghNodes h ≤ 4096 ∧ ghFirst h + ghNodes h ≤ 16384) &&
    (List.range (ghNodes h)).all (s.nodeGood g h snap)

/-- The entries of a patch list (R366): node, word, value; none where it is bad or cannot be read. -/
def patches (rd : Nat → Nat → Option Nat) (nodes : Nat) : Option (List (Nat × Nat × Nat)) :=
  match rd 0 8 with
  | none => none
  | some h =>
    if h > 4096 then none
    else (List.range h).mapM fun i =>
      match rd (8 + 16 * i) 8, rd (16 + 16 * i) 8 with
      | some e, some v => if e >>> 15 != 0 || decide (nodes ≤ bits e 0 12) then none else some (bits e 0 12, bits e 12 3, v)
      | _, _ => none

/-- The free snapshot. -/
def State.freeSnap (s : State) : Nat :=
  let used := ((s.replay.map (·.snap)).toList ++ s.triggers.map (·.snap))
  ((List.range 3).find? fun k => !used.contains k).getD 0

/-- Steps 2 and 3 of R367: a patched snapshot of every node of the graph, or a refusal. A poisoned parameter is poisoned in
the snapshot. -/
def State.takeSnapshot (s : State) (g snap : Nat) (rd : Option (Nat → Nat → Option Nat)) : Option State :=
  let h := s.graph g
  let ps := match rd with | some f => patches f (ghNodes h) | none => some []
  match ps with
  | none => none
  | some ps =>
    let s := (s.mbsRead (64 * g) 64).mbsRead (0x100000 + 128 * ghFirst h) (128 * min (ghNodes h) 4096)
    let s := (List.range (min (ghNodes h) 4096)).foldl (fun s n =>
      let from_ := schedBase + 0x100000 + 128 * (ghFirst h + n) + 32
      let to_ := 0x300000 + 262144 * snap + 64 * n
      let s' := s.smPut to_ 64 (bits (s.node (ghFirst h + n)) 256 512)
      ((List.range 8).filter fun k => s.poisonedAt (from_ + 8 * k) 8).foldl (fun s k => s.poisonRange (schedBase + to_ + 8 * k) 8) s') s
    let s := ps.foldl (fun s p => s.smPut (0x300000 + 262144 * snap + 64 * p.1 + 8 * p.2.1) 8 p.2.2) s
    if s.wellFormedGraph g snap then some s else none

/-! ### Arrivals (R315, R368) -/

/-- An arrival record. -/
def arrival (tag kind slot src : Nat) : Nat :=
  tag % 2 ^ 32 * 2 ^ 32 + kind % 4 * 2 ^ 30 + slot % 16 * 2 ^ 26 + src % 1024 * 2 ^ 16
def arTag (r : Nat) : Nat := bits r 32 32
def arKind (r : Nat) : Nat := bits r 30 2
def arSrc (r : Nat) : Nat := bits r 16 10

/-- Head and count of an arrival queue. -/
def State.arq (s : State) (st k : Nat) : Nat × Nat := tget (0, 0) s.aq (4 * st + k)
def aqOff (st k i : Nat) : Nat := 0x80000 + ((st * 4 + k) * 256 + i % 256) * 8

/-- The instances of the node a stage names for F, B or W; 0 where it names none. -/
def State.stageCount (s : State) (r : Replay) (st k : Nat) : Nat :=
  let n := stNode (s.stageEntry st) k
  let e := s.node (ghFirst (s.graph r.graph) + n)
  if n < ghNodes (s.graph r.graph) ∧ ndV e ∧ ndKind e = k ∧ ndStage e = st then s.instances r.snap n e else 0

/-- Whether an arrival can be posted now; one for a stage whose entry is damaged waits. -/
def State.postable (s : State) (st rec : Nat) : Bool :=
  let e := s.stageEntry st
  let k := arKind rec
  match s.replay with
  | none => false
  | some r =>
    !s.poisonedAt (schedBase + 0x400 + 64 * st) 64 && stEn e && stGraph e == r.graph && (k == 3 || decide (stAcnt e k < s.stageCount r st k)) &&
      decide ((s.arq st k).2 < 256)

/-- The result of the strand whose arrive posts. -/
def State.fillLoad (s : State) (c j id : Nat) (w : Word) : State :=
  s.modCtx c j fun x => { x with loads := x.loads.map fun l => if l.id = id then { l with done := some (w, 0) } else l }

/-- A record enters its queue: ACNT, and a decision point. -/
def State.enqueueArrival (s : State) (st rec : Nat) (who : Option (Nat × Nat × Nat)) : State :=
  let k := arKind rec
  let q := s.arq st k
  let s := s.smPut (aqOff st k (q.1 + q.2)) 8 rec
  let s := s.putStage st (64 * k) 64 (stAcnt (s.stageEntry st) k + 1)
  let s := { s with aq := tset s.aq (4 * st + k) (q.1, q.2 + 1), deciding := true }
  match who with
  | some (c, j, id) => s.fillLoad c j id 0
  | none => s

/-- An arrival is posted, or waits at its source, behind those that wait there, and counts once in ASTALL. -/
def State.post (s : State) (a : Held) : State :=
  let s := s.mbsRead (0x400 + 64 * a.stage) 64
  if s.postable a.stage a.record &&
      !(s.held.any fun h => h.stage == a.stage && arKind h.record == arKind a.record && arSrc h.record == arSrc a.record) then
    s.enqueueArrival a.stage a.record a.who
  else
    let s := if a.counted then s else s.putStage a.stage 256 64 (stStall (s.stageEntry a.stage) + 1)
    { s with held := s.held ++ [{ a with counted := true }] }

/-- An arrival reaches the MBS: it is posted with the others of its cycle. -/
def State.arriveAt (s : State) (st rec : Nat) (who : Option (Nat × Nat × Nat)) : State :=
  { s with inbox := s.inbox ++ [⟨st, rec, who, false⟩] }

/-- The arrivals of a cycle, those that waited at their sources among them, enter in ascending SRC order, and in order at one
source (R315). -/
def State.postInbox (s : State) : State :=
  (sortBy (fun a b => decide (arSrc a.record ≤ arSrc b.record)) (s.held ++ s.inbox)).foldl State.post { s with inbox := [], held := [] }

/-- Whether an arrival that waited at its source can now be posted. -/
def State.heldReady (s : State) : Bool := s.held.any fun h => s.postable h.stage h.record

/-! ### Launches (R372, R375) -/

/-- Ranges of squares and accumulators that live crews and waiting launches hold in a cluster. -/
def Cluster.holders (c : Cluster) : List Crew :=
  (c.crews.filter fun p => p.2.live).map (·.2) ++ c.waiting.map (·.crew)

/-- The crew entry, first square and accumulator mask that a launch would take in a cluster. -/
def State.fits (s : State) (cl e : Nat) : Option (Nat × Nat × Nat) :=
  let c := s.cluster cl
  let hs := c.holders
  let n := ndSquares e
  let accs := (List.range 4).filter fun u => hs.all fun h => !bit h.accm u
  match (List.range 64).find? (fun k => !(tget .free c.crews k).live && c.waiting.all (·.entry != k)),
    firstFit (s.padSquares cl) n ((hs.filter fun h => h.sqCnt != 0).map fun h => (h.sqBase, h.sqCnt)) with
  | some k, some b =>
    if ndAcc e ≤ accs.length ∧ ndMemb e + s.reservedRoom cl ≤ c.free then
      some (k, b, ((accs.take (ndAcc e)).map (2 ^ ·)).sum)
    else none
  | _, _ => none

/-- Accumulators of a mask hold zero: of what R96 lets a new grant show, what no strand of the crew has written yet. -/
def Core.zeroAccs (k : Core) (mask : Nat) : Core :=
  let k := k.accAll
  let mine (u : Nat) : Bool := bit mask (u % 4)
  { k with acc := k.acc.filter fun p => !mine (p.1 / 128), accPoison := k.accPoison.filter fun e => !mine (e / 16384) }

/-- A launch whose squares are all zeroed fills its crew entry and pushes its member records (R372); its accumulators hold
zero on every core of the cluster (R17, R96). -/
def State.startLaunch (s : State) (cl : Nat) (l : Launch) : State :=
  let s := s.modCluster cl fun c => { c with crews := tset c.crews l.entry l.crew }
  let s := (List.range 4).foldl (fun s k => s.modCore (4 * cl + k) (·.zeroAccs l.crew.accm)) s
  l.records.foldl (fun s r => s.push cl r) s

/-- Whether squares of a launch are still being zeroed (R218). -/
def Cluster.zeroingFor (c : Cluster) (l : Launch) : Bool :=
  c.zeroing.any fun z => decide (z.1 < l.crew.sqBase + l.crew.sqCnt ∧ l.crew.sqBase < z.1 + z.2)

/-- Launches that wait for no square proceed. -/
def State.launchWaiting (s : State) (cl : Nat) : State :=
  (s.cluster cl).waiting.foldl (fun s l =>
    if (s.cluster cl).zeroingFor l then s
    else (s.modCluster cl fun c => { c with waiting := c.waiting.filter (·.entry != l.entry) }).startLaunch cl l) s

/-- launch (R372): none where no cluster qualifies. -/
def State.launch (s : State) (r : Replay) (st n rec : Nat) (pre : Bool) : Option State :=
  let e := s.node (ghFirst (s.graph r.graph) + n)
  let cls := if s.stage < 5 then [0] else List.range 24
  cls.findSome? fun cl =>
    if !ndClset e cl || s.dieHeld.contains (cl / 6) then none
    else
      match s.fits cl e with
      | none => none
      | some (k, b, accm) =>
        let gen := (tget .free (s.cluster cl).crews k).gen
        let id := cl * 2048 + gen * 64 + k
        let crew : Crew := { live := true, gen := gen, memb := ndMemb e, sqBase := b, sqCnt := ndSquares e, accm := accm
                             stage := st, node := n, replay := r.number, tag := arTag rec, killed := false }
        let args (i : Nat) : List Word :=
          [wd rec, wd (i + ndMemb e * 2 ^ 32)] ++ (List.range 4).map fun p => wd (s.param r.snap n p)
        let records := (List.range (ndMemb e)).map fun i =>
          mkRecord id (ndEntry e) 1 (arTag rec) 0xFFFF (ndKind e) (ndPri e) pre (ndModes e) (args i)
        let s := s.modCluster cl fun c => { c with waiting := c.waiting ++ [⟨k, crew, records⟩] }
        let s := { s with replay := some { r with
          launched := tset r.launched n (tget 0 r.launched n + 1), nodes := r.nodes + 1 } }
        some (s.launchWaiting cl)

/-! ### Decisions (R371) -/

/-- A policy row. -/
def State.policy (s : State) (r : Nat) : Nat := s.sm (0x1400 + 16 * r) 16

def relHolds (rel infl lim : Nat) : Bool :=
  match rel with
  | 0 => true | 1 => decide (infl < lim) | 2 => decide (infl ≤ lim) | 3 => infl == lim
  | 4 => decide (lim ≤ infl) | 5 => decide (lim < infl) | _ => false

/-- Whether a row matches a stage whose non-empty queues are ne. -/
def rowMatches (row e ne : Nat) : Bool :=
  bit row 127 && (bit row 126 || bits row 120 6 == stState e) && (ne &&& bits row 116 4) == (bits row 112 4 &&& bits row 116 4) &&
    bit ne (bits row 98 2) && relHolds (bits row 109 3) (stInfl e) (if bit row 108 then stWarm e else bits row 100 8)

/-- The oldest record of a queue leaves it. -/
def State.dropArrival (s : State) (st k : Nat) : State :=
  let q := s.arq st k
  { s with aq := tset s.aq (4 * st + k) ((q.1 + 1) % 256, q.2 - 1) }

/-- The kind picked for a stage: aging first, then the first matching row (R371). -/
def State.pickOf (s : State) (st ne : Nat) : Option (Nat × Option Nat) :=
  let e := s.stageEntry st
  match (List.range 4).find? fun k => bit ne k && decide (256 ≤ stPass e k) with
  | some k => some (k, none)
  | none =>
    match (List.range 64).find? fun r => rowMatches (s.policy r) e ne with
    | some r => some (bits (s.policy r) 98 2, some r)
    | none => none

/-- What a launch by a row changes in its stage (R371). -/
def State.afterLaunch (s : State) (st kind rec ne : Nat) (row : Option Nat) : State :=
  let s := s.dropArrival st kind
  let e := s.stageEntry st
  let s := (List.range 4).foldl (fun s k =>
    s.putStage st (354 + 14 * k) 14 (if k = kind then 0 else if bit ne k then min (stPass e k + 1) 256 else stPass e k)) s
  let s := match row with | some r => s.putStage st 442 6 (bits (s.policy r) 92 6) | none => s
  let infl := if kind = 0 then stInfl e + 1 else if kind = 1 then stInfl e - 1 else stInfl e
  let s := s.putStage st 410 32 infl
  let s := if kind = 1 then { s with predB := tset s.predB st (arTag rec) } else s
  let q : Nat × Nat := s.arq st 1
  let pb : Nat := if q.2 ≠ 0 then arTag (s.sm (aqOff st 1 q.1) 8)
    else if thas s.predB st then (tget 0 s.predB st + 1) % 2 ^ 32 else stPredb e
  ((s.putStage st 322 32 pb).mbsRead 0x10000 131072).predicted st (stPredb e) pb (kind == 1 && arTag rec == stPredb e)

/-- One stage instance at a decision point. -/
def State.decideStage (s : State) (st : Nat) : State :=
  match s.replay with
  | none => s
  | some r =>
    let s := (s.mbsRead (0x400 + 64 * st) 64).mbsRead (64 * r.graph) 64
    let e := s.stageEntry st
    if !stEn e || stGraph e != r.graph || s.noPick then s
    else
      let ne := (List.range 4).foldl (fun m k => if (s.arq st k).2 ≠ 0 then m + 2 ^ k else m) 0
      if ne = 0 then s
      else
        let s := s.mbsRead 0x1400 1024
        if s.noPick then s
        else
          match s.pickOf st ne with
          | none => s
          | some (kind, row) =>
            let off := aqOff st kind (s.arq st kind).1
            let s := (s.mbsRead off 8).mbsRead (aqOff st 1 (s.arq st 1).1) (8 * min 1 (s.arq st 1).2)
            let rec_ := s.sm off 8
            let n := if kind = 3 then arTag rec_ else stNode e kind
            let h := s.graph r.graph
            let nd := s.node (ghFirst h + n)
            let s := if n < ghNodes h then (s.mbsRead (0x100000 + 128 * (ghFirst h + n)) 128).mbsRead
              (0x300000 + 262144 * r.snap + 64 * n) 64 else s
            if s.noPick then s
            else if kind = 3 ∧ (!decide (n < ghNodes h) ∨ !ndV nd ∨ ndKind nd ≠ 3 ∨ tget 0 r.launched n ≠ 0) then
              let s := s.dropArrival st 3
              { s with
                deciding := true
                replay := some { r with
                  fcount := min (r.fcount + 1) (2 ^ 32 - 1), ffirst := if r.fcount = 0 then 0x44 else r.ffirst } }
            else if !decide (n < ghNodes h) ∨ !ndV nd then s
            else
              match s.launch r st n rec_ (match row with | some k => bit (s.policy k) 91 | none => false) with
              | none => s
              | some s => s.afterLaunch st kind rec_ ne row

/-- Decision points until none is owed (R14): each evaluates the stages in ascending order. What waits at its source for the room
that one makes is posted in the next cycle. -/
def State.decideAll (s : State) : Nat → State
  | 0 => s
  | n + 1 =>
    if s.deciding then
      State.decideAll ((List.range 64).foldl State.decideStage { s with deciding := false }) n
    else s

/-! ### Replay start and end (R21, R368, R369) -/

def Replay.new (g number snap : Nat) : Replay := ⟨g, number, snap, 0, [], [], [], 0, 0, 0, false, 0, false⟩

/-- A node has completed: every instance launched, and every crew at zero. -/
def State.nodeDone (s : State) (r : Replay) (n : Nat) : Bool :=
  let e := s.node (ghFirst (s.graph r.graph) + n)
  decide (s.instances r.snap n e ≤ tget 0 r.launched n) && tget 0 r.ended n == tget 0 r.launched n

/-- The valid nodes of a replay's graph. -/
def State.replayNodes (s : State) (r : Replay) : List Nat :=
  (List.range (ghNodes (s.graph r.graph))).filter fun n => ndV (s.node (ghFirst (s.graph r.graph) + n))

/-- X nodes whose predecessors have all completed get their arrivals, with those of the cycle (R315, R368). -/
def State.postX (s : State) : State :=
  match s.replay with
  | none => s
  | some r =>
    let due := (s.replayNodes r).filter fun n =>
      let e := s.node (ghFirst (s.graph r.graph) + n)
      ndKind e == 3 && !r.posted.contains n && (ndPreds e).all (s.nodeDone r)
    due.foldl (fun s n =>
      s.arriveAt (ndStage (s.node (ghFirst (s.graph r.graph) + n))) (arrival n 3 0 0x3FF) none)
      { s with replay := some { r with posted := r.posted ++ due } }

/-- A replay starts (R368); the graph's stage instances are those bound to it, enabled or not. -/
def State.startReplay (s : State) (r : Replay) : State :=
  let s := (State.mbsRead { s with replay := some { r with tstart := s.ns } } (64 * r.graph) 64).mbsRead 0x400 4096
  let sts := (List.range 64).filter fun st => stGraph (s.stageEntry st) == r.graph
  let s := sts.foldl (fun s st =>
    let s := { s with aq := (List.range 4).foldl (fun t k => tdel t (4 * st + k)) s.aq }
    let s := ((s.putStage st 442 6 0).putStage st 410 32 0).putStage st 354 56 0
    (s.putStage st 0 256 0).granClear st) s
  { s.postX with deciding := true }

/-- The completion record of a replay (R369). -/
def completionRecord (r : Replay) (tend : Nat) : Nat :=
  let st := if r.dataError then 2 else if r.fcount ≠ 0 then 1 else 0
  let body := toBytes 4 st ++ toBytes 4 r.fcount ++ toBytes 2 r.ffirst ++ toBytes 2 r.graph ++ toBytes 4 r.number ++
    toBytes 8 r.tstart ++ toBytes 8 tend ++ toBytes 4 r.nodes ++ List.replicate 20 0
  ofBytes (body ++ toBytes 4 (crc32c body) ++ [0, 0, 0, 0])

/-- The running replay ends: record, completion signal, then the next trigger (R21, R441). TEND is the time of the last
completion; of a replay that a data error ends before any completion, a free value (log entry 3). -/
def State.endReplay (s : State) (r : Replay) : State :=
  let d := s.drawNat
  let none_ := r.dataError && r.ended.isEmpty
  let tend := if !r.dataError then s.ns else if none_ then d.1 else r.tlast
  let s := (if none_ then d.2 else s).perform 0 0 0 0 (ghCrec (s.graph r.graph)) 64 (completionRecord r tend)
  let s := { (s.raise 0) with cmpCnt := (s.cmpCnt + 1) % 2 ^ 64, replay := none }
  match s.triggers with
  | [] => s
  | t :: l => State.startReplay { s with triggers := l } t

/-- A cycle's arrivals, decisions, and the end of every replay that has nothing left to do. -/
def State.settle (s : State) : Nat → State
  | 0 => s
  | n + 1 =>
    let s := s.postInbox
    let s := s.decideAll (8 + s.aq.foldl (fun m p => m + p.2.2) 0)
    match s.replay with
    | none => s
    | some r =>
      if r.dataError || (s.replayNodes r).all (s.nodeDone r) then
        (s.endReplay r).settle n
      else s

/-- A scheduler data error found outside a decision ends the replay at once (R226). -/
def State.errorEnds (s : State) : State :=
  match s.replay with
  | some r => if r.dataError then s.endReplay r else s
  | none => s

/-- The records pushed in the cycle enter their queues, each cluster's in order (R313). -/
def State.placeAll (s : State) : State :=
  s.clusters.foldl (fun s p =>
    if p.2.pushes.isEmpty then s
    else State.errorEnds (p.2.pushes.foldl (fun s r => s.place p.1 r) (s.modCluster p.1 fun c => { c with pushes := [] }))) s

/-- Whether the cycle in hand has arrivals to post, a decision point, records to place or a halving of heat. -/
def State.owesMbs (s : State) : Bool := !s.inbox.isEmpty || s.deciding || s.heldReady
def State.owesCycle (s : State) : Bool := s.owesMbs || s.heatDue || s.clusters.any fun p => !p.2.pushes.isEmpty

/-- A cycle ends: its arrivals are all posted, then comes its decision point (R28, R315), at most the running replay and two
that wait ending; what was pushed enters its queue, and a decay follows the cycle's increments. -/
def State.endCycle (s : State) : State :=
  let s := State.placeAll (if s.owesMbs then s.settle 4 else s)
  if s.heatDue then s.heatHalve else s

/-- Cycle after cycle ends, while one has something to do; then time passes to cycle t. -/
def State.cyclesTo (s : State) (t : Nat) : Nat → State
  | 0 => s.passTo t
  | n + 1 => if s.owesCycle then (s.endCycle.passTo (s.clk + 1)).cyclesTo t n else s.passTo t

/-- Time passes to cycle t, the cycles before it ending first. -/
def State.timeTo (s : State) (t : Nat) : State := s.cyclesTo t (t - s.clk)

/-- A trigger that is not well formed is refused (R365). -/
def State.badTrigger (s : State) : State := { s with tflags := setBits s.tflags 7 1 1 }

/-- The replay that a trigger makes, with its number and its snapshot (R367). -/
def State.newReplay (s : State) (g : Nat) (rd : Option (Nat → Nat → Option Nat)) : Option (Replay × State) :=
  (s.takeSnapshot g s.freeSnap rd).map fun t =>
    let r := Replay.new g ((s.replayNo + 1) % 2 ^ 32) s.freeSnap
    (r, { t with replayNo := r.number })

/-- A trigger (R367): 0 started, 1 waiting, 2 refused for want of room, 3 refused as a bad graph. -/
def State.trigger (s : State) (g : Nat) (rd : Option (Nat → Nat → Option Nat)) : Nat × State :=
  if 2 ≤ s.triggers.length then (2, { s with tflags := setBits s.tflags 8 1 1 })
  else
    match s.newReplay g rd with
    | none => (3, s.badTrigger)
    | some (r, s) =>
      match s.replay with
      | none => (0, s.startReplay r)
      | some _ => (1, { s with triggers := s.triggers ++ [r] })

/-! ### Crews at zero (R373, R404) -/

/-- The next value of the key generator: never the old key. -/
def nextKey (old draw : Nat) : Nat := let d := draw % (2 ^ 32 - 1); if d < old then d else d + 1

/-- Every window of a killed crew gets a new key. -/
def State.rotateKeys (s : State) (id : Nat) : State :=
  (List.range 4096).foldl (fun s w =>
    let e := s.window w
    if bits e 483 16 = id ∧ !s.retired.contains (s.windowPa w / 65536) then
      let d := s.drawNat
      d.2.writePa 0 (s.windowPa w) 64 (setBits e 451 32 (nextKey (bits e 451 32) d.1))
    else s) s

/-- Context slots still dormant for a crew become free; its projection slots empty (R172, R381); what its strands left in
banks is no later crew's, whatever its id (R17). -/
def Core.releaseCrew (k : Core) (id : Nat) : Core :=
  { k with
    banks := k.banks.map fun p => if p.2.crew = id then (p.1, { p.2 with crew := 0xFFFF }) else p
    ctxs := k.ctxs.map fun p => if p.2.st == .dormant && p.2.crew == id then (p.1, Ctx.empty) else p
    proj := k.proj.filter fun p => bits p.2.toNat 48 16 != id }

/-- A crew's member count reaches zero (R373); the other fields of its entry become 0 (DESIGN CHOICE, log entry 37). -/
def State.crewZero (s : State) (cl e : Nat) : State :=
  let c := tget .free (s.cluster cl).crews e
  let id := cl * 2048 + c.gen * 64 + e
  let s := (List.range 4).foldl (fun s k => s.modCore (4 * cl + k) fun k => k.releaseCrew id) s
  let s := if c.killed then s.rotateKeys id else s
  let s := s.modCluster cl fun q => { q with
    crews := tset q.crews e { Crew.free with gen := (c.gen + 1) % 32 }
    zeroing := if c.sqCnt = 0 then q.zeroing else q.zeroing ++ [(c.sqBase, c.sqCnt)] }
  let s := match s.replay with
    | some r =>
      if r.number = c.replay then
        { s with replay := some { r with ended := tset r.ended c.node (tget 0 r.ended c.node + 1), tlast := s.ns } }
      else s
    | none => s
  { s.postX with deciding := true }

/-- A member of a crew goes: exit, leave, or kill. -/
def State.dropMember (s : State) (id : Nat) (killed : Bool) : State :=
  let cl := id / 2048
  let e := id % 64
  let c := tget .free (s.cluster cl).crews e
  if id = 0xFFFF ∨ !c.live ∨ c.gen ≠ bits id 6 5 then s
  else
    let s := s.modCluster cl fun q =>
      { q with crews := tset q.crews e { c with memb := c.memb - 1, killed := c.killed || killed } }
    if c.memb ≤ 1 then s.crewZero cl e else s

/-- A member joins: join, spawn, or a started handler. -/
def State.addMember (s : State) (id : Nat) : State :=
  s.modCluster (id / 2048) fun q => { q with
    crews := tmod .free q.crews (id % 64) fun c => { c with memb := c.memb + 1 } }

/-- The address space of a crew: that of its graph (R397). -/
def State.crewSpace (s : State) (id : Nat) : Nat :=
  stGraph (s.stageEntry (tget .free (s.cluster (id / 2048)).crews (id % 64)).stage)

end Sys2Proof.Machine
end

