-- ==== Sys2Proof/Machine/Fabric.lean ====
section
/-! DEFINITION. Packets and remote operations (R232, R233, R284, R318, R350 to R356, R402 to R411): what a device
sends, what it does as an owner, what an answer does at the requester. -/

namespace Sys2Proof.Machine

/-! ### Packets -/

def Packet.blank : Packet := ⟨0, 0, 0, 0, 0, 0, 0, false, 0, 0, 0, 0, 0, 0, 0, 0, 0, [], [], 0, 0, [], [], 0⟩

/-- A packet enters the fabric at this device, as a request (class 0) or a reply (class 1). -/
def State.send (s : State) (p : Packet) : State :=
  { s with
    packets := tset s.packets s.nextId { p with src := s.dev, cls := b2n (p.kind == 6), hops := 0, nm := false, born := s.ns }
    nextId := s.nextId + 1 }

/-- A remote operation of a strand and the packet that carries it; it gives up after 8 ms (R351). -/
def State.ask (s : State) (r : Remote) (p : Packet) : State :=
  let id := s.nextId
  let s := { s with remotes := tset s.remotes id { r with deadline := s.ns + 8000000, dev := p.dst, win := p.win }, nextId := id + 1 }
  s.send { p with kind := r.kind, req := s.dev, who := id }

/-- The answer to a request, to the device on whose behalf it came (R351); it names the device and window concerned. -/
def State.reply (s : State) (p : Packet) (status party : Nat) (words data : List Nat) : State :=
  s.send { Packet.blank with
           kind := 6, dst := p.req, req := s.dev, who := p.who, win := p.win, status := status, party := party
           words := words, data := data }

/-- The data of a window read goes to its requester, with the blocks that travel as bales. -/
def State.replyData (s : State) (p : Packet) (status : Nat) (data bales : List Nat) : State :=
  s.send { Packet.blank with
           kind := 6, dst := p.req, req := s.dev, who := p.who, win := p.win, status := status, data := data, bales := bales }

def State.dropPacket (s : State) (k : Nat) : State := { s with packets := tdel s.packets k }
def State.dropRemote (s : State) (k : Nat) : State := { s with remotes := tdel s.remotes k }

/-! ### The strand's side -/

/-- The context that a strand runs in still holds it. -/
def State.holds (s : State) (c j uid : Nat) : Bool := (s.ctx c j).uid == uid && (s.ctx c j).st != .free

/-- A failure in a region: rstat's fields and FAIL; no trap (R353, R355). -/
def State.regionFail (s : State) (c j : Nat) (w : Nat) : State :=
  s.modBank c j fun b =>
    { b with cr := tset b.cr 0x00A (wd (setBits (setBits (tget 0 b.cr 0x00A).toNat 0 48 w) 62 1 1)) }

/-- A failure that the next bundle of the strand reports (R352, R254), or rstat inside a region. -/
def State.remoteFailed (s : State) (c j uid : Nat) (region : Bool) (cause w : Nat) : State :=
  if !s.holds c j uid then s
  else if region then s.regionFail c j w
  else s.modCtx c j fun x => { x with owed := x.owed ++ [⟨cause, w, 0⟩] }

/-! ### Link FIFOs (R350, R351) -/

/-- Data words of the reply to a packet: a load's elements, one for amo and cas. -/
def replyWords (h : Nat) : Nat := match bits h 60 4 with | 0 => bits h 48 4 + 1 | 1 => 0 | _ => 1

/-- A word is pushed; the last word of a packet sends it (R350). A fence of the same bundle covers it (R278). -/
def State.lfPush (s : State) (k : Nat) (w : Word) : State :=
  let c := s.bun.core
  let l := s.lf k
  let part := l.part ++ [w]
  let h := (part.headD 0).toNat
  let region := s.me.region.opened
  if part.length < packetLen h then
    let first := l.part.isEmpty
    s.modLf c k fun l => { l with
      part := part, partOwner := if first then s.me.uid else l.partOwner, partRegion := if first then region else l.partRegion }
  else
    let fenced := s.bun.effs.any fun e => match e with | .fence .. => true | _ => false
    let s := s.modLf c k fun l => { l with part := [], outq := l.outq ++ part, rqn := l.rqn + 1 }
    s.ask { kind := 0, core := c, ctx := s.bun.ctx, uid := s.me.uid, lf := k, rqn := l.rqn, op := h, words := replyWords h
            copy := 0, region := region, dev := 0, win := 0, deadline := 0, off := (nth 0 part 1).toNat % 2 ^ 56
            seq := s.me.fence - b2n fenced, wins := [], lost := false }
      { Packet.blank with dst := bits l.bind.toNat 31 15, win := bits h 36 12, key := bits h 0 32, hdr := h
                          off := (nth 0 part 1).toNat, port := c * 8 + k, words := (part.drop 2).map (·.toNat) }

/-- The words of a packet leave the outbound FIFO as the fabric takes it. -/
def State.lfTaken (s : State) (p : Packet) : State :=
  if p.kind = 0 ∧ p.src = s.dev ∧ p.hops = 0 then
    s.modLf (p.port / 8) (p.port % 8) fun l => { l with outq := l.outq.drop (packetLen p.hdr) }
  else s

/-- The header word of a reply (R351). -/
def replyHeader (h status rqn : Nat) : Word := wd (bits h 60 4 * 2 ^ 60 + status * 2 ^ 40 + rqn % 65536)

/-- A reply enters the inbound FIFO whole (R351); a failed one has zeros for data. Inside an open phase the news of poisoned data
rolls the phase back (R211). -/
def State.lfReply (s : State) (r : Remote) (status party : Nat) (words : List Nat) : State :=
  let w := rstatWord status party 0 r.dev r.win (0x20 + r.lf)
  let data := (List.range r.words).map fun i => if status = 0 then wd (words.getD i 0) else 0
  let own := if r.region then r.uid else 0
  let es : List InWord := ⟨replyHeader r.op status r.rqn, r.words, r.region, w, r.off, own⟩ :: data.map fun d => ⟨d, 0, r.region, 0, 0, own⟩
  let s := if status ≠ 0 ∧ r.region then (if s.holds r.core r.ctx r.uid then s.regionFail r.core r.ctx w else s) else s
  let s := if bit r.op 54 && s.holds r.core r.ctx r.uid then s.dropL1 r.core else s
  let s := if status = 7 ∧ s.holds r.core r.ctx r.uid ∧ (s.ctx r.core r.ctx).phase.opened then s.consume r.core r.ctx else s
  s.modLf r.core r.lf fun l => { l with inq := l.inq ++ es }

/-- Whether an inbound FIFO has room for a reply. -/
def State.lfRoom (s : State) (r : Remote) : Bool := decide (((s.core r.core).lfOf r.lf).inq.length + r.words + 1 ≤ 32)

/-- A link-FIFO operation ends: a store answers to the hardware only, anything else into the FIFO (R351, R352). -/
def State.endLf (s : State) (k : Nat) (r : Remote) (status party : Nat) (words : List Nat) : State :=
  let s := s.dropRemote k
  if bits r.op 60 4 = 1 then
    if status = 0 then s
    else s.remoteFailed r.core r.ctx r.uid r.region (if status = 8 then 0x10 else 0x0F)
      (rstatWord status party 0 r.dev r.win (0x20 + r.lf))
  else s.lfReply r status party words

/-- Whether an operation's end puts words into the inbound FIFO: of a load, amo or cas (R351). -/
def Remote.replies (r : Remote) : Bool := r.kind == 0 && bits r.op 60 4 != 1

/-- Whether a reply stands at the link for an inbound FIFO, before packet k of those that stand there (R318). -/
def State.lfWaiting (s : State) (r : Remote) (k : Nat) : Bool :=
  s.packets.any fun p => p.2.kind == 6 && p.2.dst == s.dev && decide (p.1 < k) &&
    (match s.remotes.find? fun q => q.1 == p.2.who with
      | some (_, q) => q.replies && q.core == r.core && q.lf == r.lf
      | none => false)

/-- A status that arises here ends a link-FIFO operation; as a reply it comes after those that wait at the link, and waits for
room as they do: the operation then ends at a later look at its deadline (R318, R408). -/
def State.failLf (s : State) (id : Nat) (r : Remote) (status party : Nat) : State :=
  if r.replies && (!s.lfRoom r || s.lfWaiting r s.nextId) then { s with remotes := tset s.remotes id { r with deadline := s.ns } }
  else s.endLf id r status party []

/-- Rebinding of a link FIFO (R411): both FIFOs emptied, with the packets that the fabric has not taken; RQN zero; operations
of the old binding see status 9. -/
def State.rebind (s : State) (c k : Nat) (v : Word) : State :=
  let mine (p : Nat × Remote) : Bool := p.2.kind == 0 && p.2.core == c && p.2.lf == k
  let s : State := { (s.modLf c k fun l => { l with inq := [], outq := [], part := [], rqn := 0, bind := v &&& 0xFFFFFFFF80000000#64 }) with
    packets := s.packets.filter fun p =>
      !(p.2.kind == 0 && p.2.src == s.dev && p.2.hops == 0 && p.2.port == c * 8 + k) &&
        !(p.2.kind == 6 && p.2.dst == s.dev && (s.remotes.filter mine).any fun q => q.1 == p.2.who) }
  let s := { s with remotes := s.remotes.map fun p => if mine p then (p.1, { p.2 with lost := true }) else p }
  (s.remotes.filter mine).foldl (fun s p => s.failLf p.1 p.2 9 2) s

/-! ### The owner's side (R232, R233) -/

def winMir (e : Nat) : Bool := bit e 510
def winCrew (e : Nat) : Nat := bits e 483 16
def winSize (e : Nat) : Nat := bits e 269 40

/-- The buffer that reads, or writes, of a window use (R233). -/
def winBase (e : Nat) (hidden : Bool) : Nat :=
  if winMir e && bit e 509 != hidden then bits e 309 56 else bits e 365 56

/-- Whether a scratchpad range lies in an allotment that a live crew holds there (R218). -/
def State.inAllotment (s : State) (crew pa n : Nat) : Bool :=
  let c := padCore pa
  let e := s.crewOf c crew
  let (base, size) := s.allot c crew
  crew != 0xFFFF && e.live && e.gen == bits crew 6 5 && bits crew 11 5 == c / 4 && decide (base ≤ pa ∧ pa + n ≤ base + size)

/-- A byte address translated in the owner's tables with rights: physical address and key (R232 check 6, R400, R413). -/
def State.ownerPa (s : State) (space va : Nat) (r w : Bool) : Option (Nat × Nat × Nat) :=
  if 2 ^ 56 ≤ va then none
  else
    match s.walk space va with
    | none => none
    | some (e, lvl, _) =>
      let pa := leafPa e lvl va
      if (r && !bit e 2) || (w && !bit e 3) || s.retired.contains (pa / 65536) || !(isGlobal pa || isPad pa) ||
          !s.populated pa then none
      else some (pa, bits e 8 8, e)

/-- The starts of the 4 KiB pieces of a range: each lies in one page and one stack (R214). -/
def pieces (va n : Nat) : List Nat :=
  if n = 0 then []
  else va :: (List.range ((va + n - 1) / 4096 - va / 4096)).map fun i => (va / 4096 + i + 1) * 4096

/-- Whether rows at a base all translate; deposits into scratchpad stay inside the crew's allotment. -/
def State.rowsGood (s : State) (e base rows len stride : Nat) (r w : Bool) : Bool :=
  (List.range rows).all fun i =>
    let va := base + i * stride
    (pieces va len).all fun p =>
      match s.ownerPa (bits e 499 4) p r w with
      | none => false
      | some (pa, _, _) => !isPad pa || !w || s.inAllotment (winCrew e) pa (min (va + len - p) (4096 - p % 4096))

/-- Bytes from a virtual address of a space, with poison. -/
def State.readVa (s : State) (space va n : Nat) : List Nat :=
  (pieces va n).flatMap fun p =>
    match s.ownerPa space p true false with
    | some (pa, key, _) => s.readMarked key pa (min (va + n - p) (4096 - p % 4096))
    | none => []

/-- Checks 1 to 5 of R232, several rights in their place, and with them that the window is a mirage window where a copy
asks for one (R334). -/
def State.ownerCheck (s : State) (p : Packet) (rights : List Nat) (span : Nat) (mir : Bool) : Nat :=
  match (rights.map (s.windowCheck p.win p.key p.req)).find? (· != 0) with
  | some st => st
  | none => if mir && !winMir (s.window p.win) then 4 else if winSize (s.window p.win) < p.off + span then 5 else 0

/-- A read of a range of a window's memory arrives at every scratchpad and every controller it reaches (R219, R433, R443). -/
def State.rangeArrival (s : State) (space va n : Nat) : State :=
  (pieces va n).foldl (fun s p => match s.ownerPa space p false false with
    | some (pa, _, e) => ((s.portArrival pa).downAccess pa).heatUp e pa
    | none => s) s

/-- A read of a mirage window chose its buffer in this cycle (R283). -/
def State.noteRead (s : State) (w : Nat) : State :=
  if winMir (s.window w) then { s with readAt := tset s.readAt w (s.clk + 1) } else s

/-- A window read: status, data of the visible buffer; 7 says that some of it is poisoned (R232, R287). -/
def State.windowRead (s : State) (p : Packet) : Nat × List Nat :=
  let e := s.window p.win
  let base := winBase e false + p.off
  let st := s.ownerCheck p [3] ((p.rows - 1) * p.stride + p.len) false
  if st ≠ 0 then (st, [])
  else if !s.rowsGood e base p.rows p.len p.stride true false then (6, [])
  else
    let d := (List.range p.rows).flatMap fun i => s.readVa (bits e 499 4) (base + i * p.stride) p.len
    (if d.any (fun x => decide (256 ≤ x)) then 7 else 0, d)

/-- Where in the data of a window read blocks begin that are bales: whole 4 KiB blocks of global memory (R235). Rows without a
gap are one range. -/
def State.readBales (s : State) (p : Packet) : List Nat :=
  let e := s.window p.win
  let base := winBase e false + p.off
  let rows := if p.stride = p.len then 1 else p.rows
  let len := if p.stride = p.len then p.rows * p.len else p.len
  (List.range rows).flatMap fun i =>
    let va := base + i * p.stride
    ((pieces va len).filter fun q => q % 4096 == 0 && decide (q + 4096 ≤ va + len) &&
      (match s.ownerPa (bits e 499 4) q true false with
        | some (pa, _, _) => isGlobal pa && s.isBale (pa / 4096)
        | none => false)).map fun q => i * len + (q - va)

/-- Where in that data blocks begin that BL asks to pack: plain whole 4 KiB source blocks that a bale can hold (R334). -/
def State.packBales (s : State) (p : Packet) (data : List Nat) : List Nat :=
  let base := winBase (s.window p.win) false + p.off
  let rows := if p.stride = p.len then 1 else p.rows
  let len := if p.stride = p.len then p.rows * p.len else p.len
  (List.range rows).flatMap fun i =>
    let va := base + i * p.stride
    ((pieces va len).map fun q => (q, i * len + (q - va))).filterMap fun q =>
      let l := (data.drop q.2).take 4096
      if q.1 % 4096 = 0 ∧ q.1 + 4096 ≤ va + len ∧ l.all (· < 256) ∧ baleStores l then some q.2 else none

/-- A window read arrives at the scratchpads it reaches. -/
def State.readArrival (s : State) (p : Packet) : State :=
  let e := s.window p.win
  (List.range p.rows).foldl (fun s i => s.rangeArrival (bits e 499 4) (winBase e false + p.off + i * p.stride) p.len) s

/-- The barrier word of a window deposit: it must lie in a scratchpad alias, in an allotment of the window's crew
(R332), under the write right that the deposit needs (R400). -/
def State.windowBar (s : State) (e boff : Nat) : Option Nat :=
  match s.ownerPa (bits e 499 4) (bits e 365 56 + boff) false true with
  | none => none
  | some (pa, _, _) => if isPad pa && s.inAllotment (winCrew e) pa 16 then some pa else none

/-- The rights a window write needs (R334, R286): deposit for the members of a set; write for a window, and deposit with BAR
or HND, and for an rdx. In hdr bit 8 says deposit, bit 9 that the destination of an rdx is a window (KIND 2). -/
def writeRights (hdr : Nat) : List Nat :=
  if bit hdr 9 then [2, 1] else if bit hdr 8 then [1] else if bit hdr 1 || bit hdr 2 then [2, 1] else [2]

/-- A stale key's late write is counted at the core whose scratchpad it was for (R206). -/
def State.countStale (s : State) (p : Packet) : State :=
  let e := s.window p.win
  match s.ownerPa (bits e 499 4) (winBase e true + p.off) false true with
  | some (pa, _, _) => if isPad pa then s.bumpCounter (padCore pa) 0x02C 1 else s
  | none => s

/-- The strand and the channel on whose behalf a request of this device comes; of another device's, none (R277). -/
def State.requester (s : State) (p : Packet) : Nat × Nat :=
  if p.req = s.dev then
    match s.remotes.find? fun q => q.1 == p.who with
    | some q => (q.2.uid, ((s.copies.find? fun c => c.1 == q.2.copy).map (·.2.ch)).getD 0)
    | none => (0, 0)
  else (0, 0)

/-- A window write at its owner: refused with a status, or a landing that COPY_SEGMENT moves (R232, R332). -/
def State.windowWrite (s : State) (p : Packet) : State :=
  let e := s.window p.win
  let base := winBase e true + p.off
  let st := s.ownerCheck p (writeRights p.hdr) ((p.rows - 1) * p.stride + p.len) (bit p.hdr 4)
  let bar := if bit p.hdr 1 then s.windowBar e (nth 0 p.words 0) else some 0
  let st := if st ≠ 0 then st
    else if !s.rowsGood e base p.rows p.len p.stride false true || bar.isNone then 6 else 0
  if st ≠ 0 then
    let s := if st = 2 then s.countStale p else s
    { (s.reply p st (if bit p.hdr 8 then 1 else 0) [] []) with rejected := s.rejected + 1 }
  else
    let by_ := s.requester p
    let c : Copy := { core := 96, engine := 0, track := 2 * p.win + b2n (bit p.hdr 8), ctx := 0, uid := by_.1, crew := winCrew e
                      space := bits e 499 4, ch := by_.2
                      instr := .nopC, g := [], x := 0, y := 0, mt := none, phase := false, region := false
                      rows := p.rows, len := p.len, sstr := p.len, dstr := p.stride, src := .none
                      dsts := [.virt (bits e 499 4) base]
                      bars := [if bit p.hdr 1 then bar.getD 0 + 1 else 0]
                      handler := if bit p.hdr 2 then some (nth 0 p.words 1, wd (nth 0 p.words 2), wd (nth 0 p.words 3)) else none
                      stage := 2, row := 0, off := 0, flight := [], awaits := 0, buf := p.data, bales := p.bales, fault := none
                      status := none, elem := none, reply := some (p.req, p.who), seq := s.nextId, behind := false
                      bale := false, held := [], noLeaf := none, cut := false }
    { s with copies := tset s.copies s.nextId c, nextId := s.nextId + 1 }

/-- Element i of a link-FIFO operation at its owner: address, key, leaf. -/
def State.lfPlace (s : State) (p : Packet) (i : Nat) : Option (Nat × Nat × Nat) :=
  let e := s.window p.win
  let z := if bit p.hdr 53 then 8 else 4
  let op := bits p.hdr 60 4
  s.ownerPa (bits e 499 4) (winBase e (op != 0) + p.off + i * z) (op != 1) (op != 0)

/-- A link-FIFO request at its owner (R350, R351): status, data words, state after. A write to scratchpad stays in an
allotment of the window's crew (R218). -/
def State.lfServe (s : State) (p : Packet) : Nat × List Nat × State :=
  let z := if bit p.hdr 53 then 8 else 4
  let op := bits p.hdr 60 4
  let n := if op ≤ 1 then bits p.hdr 48 4 + 1 else 1
  let st := s.ownerCheck p [if op = 0 then 3 else if op = 1 then 2 else 0] (n * z) false
  let at_ := (List.range n).map (s.lfPlace p)
  let granted (a : Nat × Nat × Nat) : Bool := op == 0 || !isPad a.1 || s.inAllotment (winCrew (s.window p.win)) a.1 z
  if st ≠ 0 then (st, [], if st = 2 ∧ op ≠ 0 then s.countStale p else s)
  else if at_.any (fun a => match a with | some a => !granted a | none => true) then (6, [], s)
  else
    let at_ := at_.filterMap id
    let s := at_.foldl (fun s a =>
      let s := s.portArrival a.1
      if op = 0 then (s.downAccess a.1).l2Fills a.2.2 a.1 z else s) s
    let uid := (s.requester p).1
    match op with
    | 0 =>
      if at_.any (fun a => s.poisonedAt (a.1 / 64 * 64) 64) then (7, [], s)
      else (0, at_.map fun a => s.readPa a.2.1 a.1 z, s)
    | 1 => (0, [], (at_.zip p.words).foldl (fun s a =>
        s.perform uid 0 a.1.2.2 a.1.2.1 a.1.1 z (a.2 % 2 ^ (8 * z))) s)
    | _ =>
      let a := at_.headD (0, 0, 0)
      let r : Rmw := if op = 2 then ⟨bits p.hdr 56 4, z, wd (nth 0 p.words 0), 0⟩
        else ⟨10, z, wd (nth 0 p.words 1), wd (nth 0 p.words 0)⟩
      let o := s.performRmw uid a.2.2 r a.1 a.2.1
      if o.1.2.2 then (8, [], o.2) else if o.1.2.1 = 1 then (7, [], o.2) else (0, [o.1.1], o.2)

/-- The 64-byte granules of cellar pages that a link-FIFO store or atomic reaches. -/
def State.lfCellar (s : State) (p : Packet) : List Nat :=
  let n := if bits p.hdr 60 4 = 1 then bits p.hdr 48 4 + 1 else 1
  ((List.range n).filterMap (s.lfPlace p)).flatMap fun a => if bit a.2.2 5 then granulesOf a.1 (if bit p.hdr 53 then 8 else 4) else []

/-- The answer to another device's store or atomic goes once what it wrote to cellar pages is durable there (R269): a landing
with nothing left to land. -/
def State.replyDurable (s : State) (p : Packet) (party : Nat) (words data : List Nat) : State :=
  let c : Copy := { core := 96, engine := 0, track := 2 * p.win + party, ctx := 0, uid := 0, crew := 0xFFFF, space := 0, ch := 0
                    instr := .nopC, g := words.map wd, x := 0, y := 0, mt := none, phase := false, region := false
                    rows := 0, len := 0, sstr := 0, dstr := 0, src := .none, dsts := [], bars := [], handler := none
                    stage := 3, row := 0, off := 0, flight := [], awaits := 0, buf := data, bales := [], fault := none
                    status := none, elem := none, reply := some (p.req, p.who), seq := s.nextId, behind := false
                    bale := false, held := [], noLeaf := none, cut := false }
  { s with copies := tset s.copies s.nextId c, nextId := s.nextId + 1 }

/-- Whether what a landing wrote to cellar pages has reached its persistence point, so that its answer can go (R269). -/
def State.durableHere (s : State) (k : Nat) (c : Copy) : Bool :=
  c.reply.isNone || !((s.cellarOpen.any fun p => p.copy / 8 == k && !p.done) || c.g.any fun x => s.cellarLines.contains x.toNat)

/-- A third-party read at the owner (R286, R287): data goes to each recipient, in bales where they are ones or BL asks for them (R334),
and the requester hears how the read went. -/
def State.thirdParty (s : State) (p : Packet) : State :=
  let r := s.windowRead p
  if r.1 ≠ 0 ∧ r.1 ≠ 7 then s.reply p r.1 0 [] []
  else
    let bales := if bit p.hdr 5 then s.packBales p r.2 else s.readBales p
    let s := p.third.foldl (fun s d =>
      s.send { p with kind := 2, dst := d.1, win := d.2.1, key := d.2.2.1, off := d.2.2.2, stride := p.port, data := r.2, bales := bales, third := [] }) s
    s.reply p r.1 0 [] []

/-- An owner serves request k (R232). -/
def State.serve (s : State) (k : Nat) (p : Packet) : State :=
  let s := (s.lfTaken p).dropPacket k
  match p.kind with
  | 0 =>
    let late := if bits p.hdr 60 4 = 0 ∨ p.req = s.dev then [] else s.lfCellar p
    let o := s.lfServe p
    let s := if bits p.hdr 60 4 = 0 then o.2.2.noteRead p.win else o.2.2
    if o.1 = 0 ∧ !late.isEmpty then s.replyDurable p 0 late o.2.1 else s.reply p o.1 0 o.2.1 []
  | 1 =>
    let s := s.readArrival p
    let r := s.windowRead p
    (s.noteRead p.win).replyData p r.1 r.2 (if r.1 = 0 ∨ r.1 = 7 then s.readBales p else [])
  | 2 => s.windowWrite p
  | 7 => ((s.readArrival p).noteRead p.win).thirdParty p
  | _ => s

/-! ### Publishes (R253) -/

/-- VIS of a window flips. -/
def State.flip (s : State) (w : Nat) : State :=
  let e := s.window w
  s.writePa 0 (s.windowPa w) 64 (setBits e 509 1 (bits e 509 1 + 1))

/-- Whether a committed release store or atomic, whose buffer was chosen as it issued, has yet to perform in the hidden buffer of
a mirage window (R233). -/
def State.pendingIn (s : State) (e : Nat) : Bool :=
  let inside (space va : Nat) : Bool :=
    winMir e && space == bits e 499 4 && decide (winBase e true ≤ va ∧ va < winBase e true + winSize e)
  s.cores.any fun k => k.2.ctxs.any fun x =>
    match x.2.rel with
    | some ⟨_, .store _ _ va _ _ _⟩ => inside x.2.space va
    | some ⟨_, .rmw n⟩ => x.2.loads.any fun l => l.id == n && inside x.2.space l.va
    | _ => false

/-- A publish flips no window in which an accepted write is still landing or pending (R233), nor in a cycle in which the window
was read (R283). -/
def State.flipReady (s : State) (p : Packet) : Bool :=
  p.words.all fun h =>
    !(s.copies.any fun c => c.2.core == 96 && c.2.reply.isSome && c.2.stage == 2 && c.2.track / 2 == handleWin h) &&
      !s.pendingIn (s.window (handleWin h)) && tget 0 s.readAt (handleWin h) != s.clk + 1

/-- The owner's part of a publish of handles: one event; a status for each (R253, R262). -/
def State.publishAt (s : State) (p : Packet) : State :=
  let sts := p.words.map fun h => s.publishCheck h p.req
  let s := ((p.words.zip sts).filter fun q => q.2 == 0).foldl (fun s q => s.flip (handleWin q.1)) s
  s.reply p 0 0 sts (p.words.map handleWin)

/-- The owners that handles name, each once. -/
def ownersOf (l : List Word) : List Nat := (l.map fun h => handleDev h.toNat).eraseDups

/-- The publish of handles goes to each owner (R262); region says that it was committed in a remote region (R254). -/
def State.askPublish (s : State) (c j : Nat) (hs : List Word) (region : Bool) : State :=
  let x := s.ctx c j
  (ownersOf hs).foldl (fun s d =>
    let mine := (hs.filter fun h => handleDev h.toNat == d).map (·.toNat)
    s.ask { kind := 3, core := c, ctx := j, uid := x.uid, lf := 0, rqn := 0, op := 0x1C, words := 0, copy := 0
            region := region, dev := d, win := 0, deadline := 0, off := 0, seq := 0, wins := mine.map handleWin, lost := false }
      { Packet.blank with dst := d, win := handleWin (mine.headD 0), words := mine }) s

/-- The phase of a context closes: pstat's OPEN clears, shadows go (R262); a copy of it that is still under way belongs to no
phase. What a discarded shadow of a window holds R233 leaves unspecified: its bytes as they were written (DESIGN CHOICE, log
entry 33). -/
def State.closePhase (s : State) (c j : Nat) : State :=
  let uid := (s.ctx c j).uid
  let s : State := { s with copies := s.copies.map fun (p : Nat × Copy) =>
    (p.1, if p.2.core = c ∧ p.2.uid = uid then { p.2 with phase := false } else p.2) }
  (s.modCtx c j fun x => { x with phase := .closed }).modBank c j fun b =>
    { b with cr := tset b.cr 0x00B (wd (setBits (tget 0 b.cr 0x00B).toNat 63 1 0)) }

/-- Once every owner has answered, the release that asked is done. -/
def State.publishDone (s : State) (c j uid : Nat) : State :=
  if s.remotes.any (fun p => p.2.kind == 3 && p.2.uid == uid) then s
  else
    match (s.ctx c j).rel with
    | some ⟨_, .sent ph⟩ =>
      let s := s.relDone c j
      if ph then s.closePhase c j else s
    | _ => s

/-- The statuses of a publish return, each with its window (R254, R262). -/
def State.endPublish (s : State) (k : Nat) (r : Remote) (sts : List Nat) (party : Nat) : State :=
  let s := s.dropRemote k
  let s := (sts.zipIdx.filter fun p => p.1 != 0).foldl (fun s p =>
    s.remoteFailed r.core r.ctx r.uid r.region 0x0F (rstatWord p.1 party 0 r.dev (r.wins.getD p.2 r.win) 0x1C)) s
  if s.holds r.core r.ctx r.uid then s.publishDone r.core r.ctx r.uid else s

end Sys2Proof.Machine
end

