-- ==== Sys2Proof/Machine/Engine.lean ====
section
/-! DEFINITION. The copy engines (R184, R218, R229, R230, R306, R310, R330 to R349, R421): a copy as it starts, its
64-byte segments, what follows its last byte, its completion. -/

namespace Sys2Proof.Machine

/-! ### Forms -/

/-- The channel of a form. -/
def copyChannel : Instr → Nat
  | .cpy c .. => c | .cpym c .. => c | .rdx c .. => c | .stash c .. => c | .unstash c .. => c | .sdrop c .. => c
  | .chsend c .. => c | .chack c .. => c | .glean c .. => c | _ => 0

def Copy.mo (c : Copy) : Nat := copyMo c.instr
def Copy.total (c : Copy) : Nat := c.rows * c.len

/-- A remote operation in the sense of R355. -/
def remoteForm (i : Instr) (src dst : Nat) : Bool :=
  copyMo i == 9 || copyMo i == 11 || copyMo i == 3 || (copyMo i == 1 && (epKind src == 2 || epKind dst == 2)) ||
    (copyMo i == 2 && epForm dst)

/-- Whether its whole data is gathered before it goes on: to windows, the Granary, a channel, a ring. -/
def Copy.gathers (c : Copy) : Bool :=
  c.src != .none && (c.mo == 6 || c.mo == 9 || c.mo == 11 ||
    ((c.mo == 1 || c.mo == 2) && c.dsts.any fun d => match d with | .win .. => true | _ => false))

/-- Whether its pieces come from the data it holds. -/
def Copy.fromBuf (c : Copy) : Bool := c.mo == 7 || (match c.src with | .none => true | .win .. => true | _ => false)

/-! ### Starting (R306, R330) -/

/-- The place an endpoint names from a core: its base, and for KIND 1 the allotment of the strand's crew there. -/
def State.epPlace (s : State) (e base : Nat) : Place :=
  let core := s.bun.core / 4 * 4 + epCore e
  match epKind e with
  | 0 => .virt s.me.space base
  | 1 => .pad core ((s.allot core s.me.crew).1 + base)
  | 2 => .win (epDev e) (epWin e) (epKey e) base
  | _ => .none

/-- Members of a multicast set: window and device; none for an invalid set, or one that cannot be read (R410, R413). -/
def State.setMembers (s : State) (n : Nat) : Option (List (Nat × Nat)) :=
  let e := (s.tableAt (bits s.mcBase.toNat 16 28 * 65536 + 16 * n) 16).getD 0
  if bit e 127 then
    (List.range (bits e 118 9 + 1)).mapM fun i => (s.tableAt (bits e 4 40 * 16 + 4 * i) 4).map fun m => (bits m 15 12, bits m 0 15)
  else none

/-- Members that can be sent to, and those refused with status 9: of another torus, or repeated (R410). -/
def State.splitMembers (s : State) (l : List (Nat × Nat)) : List (Nat × Nat) × List (Nat × Nat) :=
  l.foldl (fun a m =>
    if m.2 / 512 ≠ s.dev / 512 ∨ a.1.contains m then (a.1, a.2 ++ [m]) else (a.1 ++ [m], a.2)) ([], [])

/-- The first refusal to reach a copy is the one recorded for its context; in a region each goes to rstat (R336, R339, R355). -/
def State.refuseCopy (s : State) (k : Nat) (c : Copy) (w : Nat) : State :=
  let s := { s with copies := tset s.copies k { c with status := some (c.status.getD w) } }
  if !s.holds c.core c.ctx c.uid then s
  else if c.region then s.regionFail c.core c.ctx w
  else if c.status.isSome then s
  else s.modCtx c.core c.ctx fun x => { x with cfaults := x.cfaults ++ [(c.ch, 0x0F, w)] }

/-- The tag a slot or send word names, put into the word (R343, R345). -/
def State.tagged (s : State) (t y : Nat) : Nat := if bit y t then y else setBits (setBits y 32 32 s.me.tag) t 1 1

/-- The request queue of a form: 0 none, 1 Granary, 2 Gleaner (R319). -/
def Copy.queue (c : Copy) : Nat := match c.mo with | 6 => 1 | 7 => 1 | 8 => 1 | 11 => 2 | _ => 0

/-- A request enters its queue where there is room, which prefetches take too (R319); its track waits otherwise, counted
once. -/
def State.request (s : State) (k : Nat) (c : Copy) (first : Bool) : State :=
  let go (s : State) : State := { s with copies := tset s.copies k { c with stage := if c.mo = 7 ∨ c.mo = 8 then 1 else 2 } }
  if c.queue = 1 ∧ s.granaryQ.length + s.prefetch.length < 1024 then { (go s) with granaryQ := s.granaryQ ++ [k] }
  else if c.queue = 2 ∧ s.gleanQ.length < 64 then { (go s) with gleanQ := s.gleanQ ++ [k] }
  else if first then s.bumpCounter c.core (0x010 + c.engine) 1 else s

/-- Room in a queue lets the oldest request that waits for it in. -/
def State.admitRequest (s : State) (q : Nat) : State :=
  match s.copies.find? fun p => p.2.stage == 0 && p.2.queue == q with
  | some p => s.request p.1 p.2 false
  | none => s

def Remote.ofCopy (c : Copy) (k kind words : Nat) : Remote :=
  { kind := kind, core := c.core, ctx := c.ctx, uid := c.uid, lf := 0, rqn := 0, op := c.mo, words := words, copy := k
    region := c.region, dev := 0, win := 0, deadline := 0, off := 0, seq := 0, wins := [], lost := false }

/-- What a window packet of a copy carries beside its data: flags, BOFF, handler (R327). -/
def Copy.packet (c : Copy) (deposit : Bool) : Packet :=
  let h := c.handler.getD (0, 0, 0)
  { Packet.blank with
    rows := c.rows, len := c.len
    hdr := bits (copyFlags c.instr) 0 8 + (if deposit then 256 else 0) + (if c.mo = 3 ∧ epKind (nth 0 c.g 1).toNat = 2 then 512 else 0)
    words := [bits (nth 0 c.g 3).toNat 0 23, h.1, h.2.1.toNat, h.2.2.toNat] }

/-- The recipients of an rdx, or the destination windows of a copy. -/
def Copy.windows (c : Copy) : List (Nat × Nat × Nat × Nat) :=
  c.dsts.filterMap fun d => match d with | .win dev w key off => some (dev, w, key, off) | _ => none

/-- A copy takes the lowest free track of its engine and starts (R306). -/
def State.startCopy (s : State) (i : Instr) (g : List Word) (x y : Word) (mt : Option MtWord) : State :=
  let core := s.bun.core
  let me := s.me
  let mo := copyMo i
  let ch := copyChannel i
  let d (k : Nat) : Nat := (nth 0 g k).toNat
  let src := d 0
  let dst := d 1
  let h := d 2
  let xv := x.toNat
  let yv := y.toNat
  let base := if mo = 1 ∨ mo = 2 ∨ mo = 3 then epBase dst yv else if mo = 7 then epBase dst xv else epBase dst 0
  let busy := s.tracksBusy core (ch % 2)
  let q := epKind dst == 1 && epQ dst && mo == 1
  let qn := epQn dst
  let qw := s.queue qn
  let set := epKind dst == 3 && epForm dst
  let members := if set then s.setMembers (epSet dst) else some []
  let parted := s.splitMembers (members.getD [])
  let pads := if epKind dst = 3 ∧ !set then (List.range 4).filter (bit (epMask dst)) else []
  let padAt (k : Nat) : Place := .pad (core / 4 * 4 + k) ((s.allot (core / 4 * 4 + k) me.crew).1 + base)
  let dsts : List Place :=
    if mo = 6 ∨ mo = 8 ∨ mo = 9 ∨ mo = 10 then []
    else if set then parted.1.map fun m => .win m.2 m.1 (epKey dst) base
    else if epKind dst = 3 then pads.map padAt
    else if q then [.pad core ((s.allot core me.crew).1 + qBase qw + s.qNext qn * qEsz qw + yv)]
    else [s.epPlace dst base]
  let boff := bits (d 3) 0 23
  let barAt (k : Nat) : Nat := if flagBar i then (s.allot k me.crew).1 + boff + 1 else 0
  let bars := dsts.map fun p => match p with | .pad k _ => barAt k | .virt .. => barAt core | _ => 0
  let n := shapeTotal h / 4096
  let yw := if mo = 6 ∨ mo = 7 ∨ mo = 8 then s.tagged 7 yv else if mo = 9 then s.tagged 14 yv else yv
  let word := mo == 8 || mo == 10
  let behind := match me.rel with
    | some ⟨_, .store ..⟩ => true
    | some ⟨_, .rmw _⟩ => true
    | _ => false
  let c : Copy := {
    core := core, engine := ch % 2, track := ((List.range 8).find? fun t => !busy.contains t).getD 0, ctx := s.bun.ctx, uid := me.uid
    crew := me.crew, space := me.space, ch := ch, instr := i, g := g, x := x, y := wd yw, mt := mt, phase := me.phase.opened
    region := me.region.opened && remoteForm i src dst, rows := if word then 0 else shapeRows h, len := if word then 0 else shapeLen h
    sstr := shapeSstr h, dstr := shapeDstr h
    src := if word then .none else s.epPlace src (if mo = 7 then epBase src 0 else epBase src xv)
    dsts := dsts, bars := bars
    handler := if flagHnd i then some (d 4, nth 0 g 5, nth 0 g 6) else none
    stage := if mo = 6 ∨ mo = 7 ∨ mo = 8 ∨ mo = 11 then 0 else if mo = 3 ∨ (set && parted.1.isEmpty) then 3 else if epKind src = 2 then 1 else 2
    row := 0, off := 0, flight := [], awaits := 0, buf := [], bales := [], fault := none, status := none
    elem := if q then some (qn, s.qNext qn) else none, reply := none, seq := if mo = 9 then tcSeq (s.tch (bits yv 0 8)) else 0
    behind := behind, bale := flagBl i, held := [], noLeaf := none, cut := false }
  let s := if mo = 9 then (s.mbsRead (0x1800 + 32 * bits yv 0 8) 32).errorEnds else s
  let k := s.nextId
  let s := { s with copies := tset s.copies k c, nextId := k + 1 }
  let s := if q then s.schedule 2 (.qtail qn) (.move false) false else s
  let s := if mo = 9 then s.smPut (0x1800 + 32 * bits yv 0 8 + 12) 4 ((tcSeq (s.tch (bits yv 0 8)) + n) % 2 ^ 32) else s
  let s := if flagP i && me.phase.opened then s.modMe fun m =>
      { m with phase := { m.phase with log := m.phase.log ++ [(i, g, x, wd yw, mt)] } } else s
  let s := match members with
    | none =>
      let s := s.refuseCopy k { c with stage := 3 } (rstatWord 1 1 ch s.dev (epSet dst) mo)
      s
    | some _ => parted.2.foldl (fun s m =>
        s.refuseCopy k (tget c s.copies k) (rstatWord 9 2 ch m.2 m.1 mo)) s
  let c := tget c s.copies k
  if members.isNone then s
  else if c.stage = 0 then s.request k c true
  else if mo = 3 then
    let ws := c.windows
    match c.src with
    | .win dev w key off =>
      if ws.isEmpty then s
      else State.ask { s with copies := tset s.copies k { c with awaits := ws.length + 1 } } (Remote.ofCopy c k 7 (ws.length + 1))
        { (c.packet true) with dst := dev, win := w, key := key, off := off, stride := c.sstr, port := c.dstr, third := ws }
    | _ => s
  else
    match c.src with
    | .win dev w key off =>
      s.ask (Remote.ofCopy c k 1 0) { (c.packet false) with dst := dev, win := w, key := key, off := off, stride := c.sstr }
    | _ => s

/-! ### Translation after commit (R228 to R230) -/

/-- Why a piece of a copy cannot be done: a fault kind of R340 at a virtual address, or a page whose walk is under way or whose
writes are held for a move. -/
inductive PieceStop where
  | kind (n va : Nat)
  | held
  deriving DecidableEq, Repr

/-- What a step of a copy's piece comes to: its result, the copy, the state. -/
abbrev Piece (α : Type) := Except PieceStop α × Copy × State

/-- The translations that a row of a copy holds. -/
def Copy.holdsIn (c : Copy) (row : Nat) : List Tlb := (c.held.filter (·.1 == row)).map (·.2)

/-- A page of row i of a copy: one the row holds already (R229), from the cluster TLB, or by a walk that it joins. A landing has
the owner's tables walked. -/
def State.copyLeaf (s : State) (k : Nat) (c : Copy) (i space va : Nat) : Piece Nat :=
  let keep (e : Tlb) : Copy := { c with held := (i, e) :: c.held }
  match tlbFind (c.holdsIn i) space va with
  | some e => (.ok e.leaf.toNat, c, s)
  | none =>
    if 96 ≤ c.core then
      match s.walk space va with
      | some (e, lvl, _) => (.ok e, keep ⟨space, va >>> pageLog lvl, pageLog lvl, wd e⟩, s)
      | none => (.error (.kind 0 va), c, s)
    else
      match tlbFind (s.cluster (c.core / 4)).tlb space va with
      | some e => (.ok e.leaf.toNat, keep e, s)
      | none => if c.noLeaf = some (space, va >>> 16) then (.error (.kind 0 va), c, s) else (.error .held, c, State.perf (s.joinWalk space va [] [k]) c.core c.ctx 12 1)

/-- Physical address, key and leaf of a place at an offset, in row i of a copy. A write where a mirage window shows its buffer goes to the
shadow (R233); a landing's buffer was chosen when its owner accepted it. A write that has its translation goes on while the page
is about to move; a later one is held (R230). -/
def State.placePa (s : State) (k : Nat) (c : Copy) (i : Nat) (p : Place) (o n : Nat) (r w : Bool) : Piece (Nat × Nat × Nat) :=
  match p with
  | .pad _ pa =>
    if w && !s.inAllotment c.crew (pa + o) n then (.error (.kind 3 (pa + o)), c, s) else (.ok (pa + o, 0, 0), c, s)
  | .virt space va =>
    let a := if w && c.reply.isNone then s.shadowed space (va + o) else va + o
    if 2 ^ 56 ≤ a then (.error (.kind 0 a), c, s)
    else
      let c₀ := c
      match s.copyLeaf k c i space a with
      | (.error e, c, s) => (.error e, c, s)
      | (.ok e, c, s) =>
        let pa := leafPa e (bits e 44 2) a
        if s.retired.contains (pa / 65536) || !(isGlobal pa || isPad pa) || !s.populated pa then (.error (.kind 0 a), c, s)
        else if (r && !bit e 2) || (w && !bit e 3) then (.error (.kind 1 a), c, s)
        else if w && isPad pa && !s.inAllotment c.crew pa n then (.error (.kind 3 a), c, s)
        else if w && s.writesHeld pa && (tlbFind (c₀.holdsIn i) space a).isNone then (.error .held, c₀, s)
        else (.ok (pa, bits e 8 8, e), c, s)
  | _ => (.error (.kind 0 0), c, s)

/-- The address of a place for the granule that a fault names (R340): virtual for a virtual place, physical for one in a scratchpad
(DESIGN CHOICE, log entry 37). -/
def Place.address : Place → Nat
  | .virt _ va => va
  | .pad _ pa => pa
  | _ => 0

/-! ### Segments (R281, R330) -/

/-- Bytes of a copy that move: all of it, or what an unstash delivers (R347). -/
def Copy.amount (c : Copy) : Nat := if c.mo = 7 then c.buf.length else c.total

/-- Bytes that have been read, and whether they are all; and whether they have all performed. -/
def Copy.place (c : Copy) : Nat := c.row * c.len + c.off
def Copy.allRead (c : Copy) : Bool := decide (c.amount ≤ c.place)
def Copy.moved (c : Copy) : Bool := c.allRead && c.flight.isEmpty

/-- Whether its rows lie one after another at the destination, so that pieces run on over their ends (R281). -/
def Copy.dense (c : Copy) : Bool := !c.gathers && (c.rows == 1 || c.dstr == c.len)

/-- The address of the next byte at a destination. -/
def Copy.dstAt (c : Copy) (d : Place) : Nat := d.address + c.row * c.dstr + c.off

/-- The next piece: up to the 64-byte boundary of its destination, or of its source where it only gathers. -/
def Copy.pieceLen (c : Copy) : Nat :=
  let a := if c.gathers then c.src.address + c.row * c.sstr + c.off else c.dstAt (c.dsts.headD .none)
  min (min (64 - a % 64) (c.amount - c.place)) (if c.dense then 64 else c.len - c.off)

/-- The rows whose translations are still needed (R229): the one being read, and those with a piece to perform. -/
def Copy.release (c : Copy) : Copy :=
  { c with held := c.held.filter fun h => decide (c.row ≤ h.1) || c.flight.any fun f => f.row == h.1 }

/-- The piece after this one. -/
def Copy.advance (c : Copy) (n : Nat) : Copy :=
  let p := c.place + n
  { c with row := p / c.len, off := p % c.len }

/-- A copy's first local fault is recorded for the context that issued it, at the granule (R331, R339, R340). -/
def State.noteFault (s : State) (c : Copy) (kind g : Nat) : State :=
  if c.fault.isSome || !s.holds c.core c.ctx c.uid then s
  else s.modCtx c.core c.ctx fun x =>
    { x with cfaults := x.cfaults ++ [(c.ch, 0x0E, c.ch + c.track * 8 + kind * 64 + (if kind ≤ 3 then g % 2 ^ 46 * 1024 else 0))] }

/-- The copy ends at a fault (R331): no further segment. The first fault is the one recorded. -/
def State.copyFault (s : State) (k : Nat) (c : Copy) (kind va : Nat) : State :=
  let s := s.noteFault c kind (va / 64)
  { s with copies := tset s.copies k { c with
      stage := 3, mt := none, elem := none, held := [], flight := [], cut := true, fault := some (c.fault.getD (kind, va / 64)) } }

/-- A copy that cannot go on for the moment. -/
def State.copyHeld (s : State) (k : Nat) (c : Copy) : State := { s with copies := tset s.copies k c }

/-- Where the next n source bytes lie: rows, source offsets and lengths, cut at 4 KiB, so that each lies in one page and in one
stack (R214). -/
def Copy.parts (c : Copy) (n : Nat) : List (Nat × Nat × Nat) :=
  (List.range ((c.off + n + c.len - 1) / c.len)).flatMap fun i =>
    let lo := if i = 0 then c.off else 0
    let m := min c.len (c.off + n - i * c.len) - lo
    let o := (c.row + i) * c.sstr + lo
    let f := 4096 - (c.src.address + o) % 4096
    if m ≤ f then [(c.row + i, o, m)] else [(c.row + i, o, f), (c.row + i, o + f, m - f)]

/-- The source bytes of the next piece, marked. -/
def State.pieceRead (s : State) (k : Nat) (c : Copy) (n : Nat) : Piece (List Nat) :=
  if c.fromBuf then (.ok ((c.buf.drop c.place).take n), c, s)
  else
    (c.parts n).foldl (fun (a : Piece (List Nat)) p =>
      match a with
      | (.error e, c, s) => (.error e, c, s)
      | (.ok l, c, s) =>
        match s.placePa k c p.1 c.src p.2.1 p.2.2 true false with
        | (.error e, c, s) => (.error e, c, s)
        | (.ok (pa, key, e), c, s) =>
          let s := ((s.portArrival pa).downAccess pa).heatUp e pa
          (.ok (l ++ s.readMarked key pa p.2.2), c, s)) (.ok [], c, s)

/-- The source address of byte i of the next piece; of an unstash, i counts in the entry's data (log entry 35). -/
def Copy.sourceOf (c : Copy) (i : Nat) : Nat :=
  if c.fromBuf then c.place + i
  else c.src.address + (c.row + (c.off + i) / c.len) * c.sstr + (c.off + i) % c.len

/-! ### Bales (R234 to R236, R334) -/

/-- The address of the next source byte, in the source's own terms: a virtual address, or an offset in a window. -/
def Copy.blockAt (c : Copy) : Nat :=
  match c.src with
  | .win _ _ _ off => off + c.row * c.sstr + c.off
  | _ => c.sourceOf 0

/-- Source bytes that follow one another without a gap from the next one on. -/
def Copy.run (c : Copy) : Nat :=
  if c.rows = 1 ∨ c.sstr = c.len ∨ c.mo = 7 then c.amount - c.place else min (c.amount - c.place) (c.len - c.off)

/-- Whether the next source byte lies in a block that is a bale in global memory. -/
def State.inBale (s : State) (c : Copy) : Bool :=
  match c.src with
  | .virt space _ =>
    !c.fromBuf && (match s.ownerPa space (c.sourceOf 0) true false with
      | some (pa, _, _) => isGlobal pa && s.isBale (pa / 4096)
      | none => false)
  | _ => false

/-- Whether a whole block begins at the next source byte. -/
def Copy.atBlock (c : Copy) : Bool := c.blockAt % 4096 == 0 && decide (4096 ≤ c.run)

/-- How much is read at once: a bale in one operation (R236), as far as the copy takes it; a block that BL asks to pack; else a
piece. -/
def State.readLen (s : State) (c : Copy) : Nat :=
  if s.inBale c then min (4096 - c.sourceOf 0 % 4096) c.run
  else if (c.bales.contains c.place || (c.bale && c.atBlock)) && decide (4096 ≤ c.amount - c.place) then 4096
  else c.pieceLen

/-- Whether what has been read is a block that travels as a bale: one already, or packed under BL (R235, R334). -/
def State.travels (s : State) (c : Copy) (l : List Nat) : Bool :=
  l.length == 4096 && l.all (· < 256) && baleStores l &&
    (c.bales.contains c.place || (c.atBlock && (s.inBale c || c.bale)))

/-- Whether that block keeps its form at the destination: a whole slot of a page with the bale bit. -/
def State.keepsBale (s : State) (c : Copy) : Bool :=
  (c.dense || decide (c.off + 4096 ≤ c.len)) &&
    (match c.dsts with
    | [.virt space va] =>
      let d := if c.reply.isNone then s.shadowed space (c.dstAt (.virt space va)) else c.dstAt (.virt space va)
      d % 4096 == 0 && (match s.ownerPa space d false true with
        | some (pa, _, leaf) => isGlobal pa && bit leaf 6
        | none => false)
    | _ => false)

/-! ### Pieces in flight -/

/-- What performs at once: a whole segment; else each 4-byte word of it (R281). -/
def wordsOf (a : Nat) : Nat → List Nat → List (Nat × List Nat)
  | 0, _ => []
  | n + 1, l =>
    let m := 4 - a % 4
    if l.isEmpty then [] else (a, l.take m) :: wordsOf (a + m) n (l.drop m)

/-- Bytes read become pieces in flight, segment by segment, for each destination. -/
def Copy.launch (c : Copy) : Nat → List Nat → Copy
  | 0, _ => c
  | f + 1, l =>
    let n := min c.pieceLen l.length
    if n = 0 then c
    else
      let a := c.dstAt (c.dsts.headD .none)
      let new : List Flight := (List.range c.dsts.length).flatMap fun d =>
        if n = 64 then [⟨c.row, c.off, d, l.take n, false⟩]
        else (wordsOf a n (l.take n)).map fun w => ⟨c.row, c.off + (w.1 - a), d, w.2, false⟩
      Copy.launch (Copy.advance { c with flight := c.flight ++ new } n) f (l.drop n)

/-! ### Handlers, and what follows the last byte -/

/-- A handler start (R333): on the core whose scratchpad holds the first byte. -/
def State.queueHandler (s : State) (c : Copy) (d : Place) : State :=
  match c.handler with
  | none => s
  | some (a, x, y) =>
    match d with
    | .pad k _ => { s with starts := s.starts ++ [⟨k, c.crew, a, x, y⟩] }
    | .virt space va =>
      match s.ownerPa space (if c.reply.isNone then s.shadowed space va else va) false true with
      | some (pa, _, _) => if isPad pa then { s with starts := s.starts ++ [⟨padCore pa, c.crew, a, x, y⟩] } else s
      | none => s
    | _ => s

/-- What follows the last byte: window packets, channel blocks, the status word of an unstash, or just stage 3. An unstash starts its
handler whatever its state is (DESIGN CHOICE, log entry 37). -/
def State.copyMoved (s : State) (k : Nat) (c : Copy) : State :=
  let put (s : State) (c : Copy) : State := { s with copies := tset s.copies k c }
  match c.mo with
  | 6 => put s { c with stage := 3, awaits := 1 }
  | 7 =>
    let d := (c.seq : Nat)
    match s.placePa k c 0 c.src 0 8 false true with
    | (.error (.kind n va), c, s) => s.copyFault k c n va
    | (.error .held, c, s) => s.copyHeld k c
    | (.ok (pa, key, e), c, s) =>
      let s := (s.portArrival pa).perform c.uid (8 * k + c.ch) e key pa 8 d
      let s := c.bars.foldl (fun s b => if b = 0 then s else s.countBarrier (b - 1) c.total) s
      put (c.dsts.foldl (fun s d => s.queueHandler c d) s) { c with stage := 3 }
  | 9 =>
    let e := s.tch (bits c.y.toNat 0 8)
    let s := put s { c with stage := 3, awaits := 1 }
    s.ask (Remote.ofCopy c k 4 1) { Packet.blank with
      dst := tcPdev e, win := bits c.y.toNat 0 8, data := c.buf, bales := c.bales
      words := [tcPch e, bits c.y.toNat 0 8, c.total / 4096, c.seq, bits c.y.toNat 32 32, bits c.y.toNat 8 2, bits c.y.toNat 10 4] }
  | 11 => put s (if c.src = .none then { c with stage := 3 } else { c with stage := 1 })
  | _ =>
    if c.gathers then
      let ws := c.windows
      let s := put s { c with stage := 3, awaits := ws.length }
      ws.foldl (fun s w => s.ask (Remote.ofCopy c k 2 1)
        { (c.packet (c.mo == 2)) with dst := w.1, win := w.2.1, key := w.2.2.1, off := w.2.2.2, stride := c.dstr, data := c.buf, bales := c.bales }) s
    else put (c.dsts.foldl (fun s d => s.queueHandler c d) s) { c with stage := 3 }

/-- chack (R344): a refusal frees nothing; freed slots return credit in order; block s is in slot s mod window, with s modulo
2^32 (R317). -/
def State.chack (s : State) (k : Nat) (c : Copy) : State :=
  let y := c.y.toNat
  let t := bits y 0 8
  let s := (s.mbsRead (0x1800 + 32 * t) 32).errorEnds
  let n := bits y 16 8 + 1
  let e := s.tch t
  let w := tcWin e
  let freed := tget 0 s.tcFreed t
  let held := (tcRseq e + 2 ^ 32 - tcRfree e) % 2 ^ 32
  let slots := (List.range n).map fun i => (bits y 8 8 + i) % w
  let holds (j : Nat) : Bool := (List.range held).any (fun i => (tcRfree e + i) % 2 ^ 32 % w == j) && !bit freed j
  if !tcEn e || decide (w < n) || !slots.all holds then
    let s := s.noteFault c 5 0
    { s with copies := tset s.copies k { c with stage := 3, fault := some (5, 0) } }
  else
    let freed := slots.foldl (fun f j => setBits f j 1 1) freed
    let adv := ((List.range held).findIdx? fun i => !bit freed ((tcRfree e + i) % 2 ^ 32 % w)).getD held
    let freed' := (List.range adv).foldl (fun f i => setBits f ((tcRfree e + i) % 2 ^ 32 % w) 1 0) freed
    let s := { s with tcFreed := tset s.tcFreed t freed', copies := tset s.copies k { c with stage := 3 } }
    let s := s.smPut (0x1800 + 32 * t) 4 ((tcRfree e + adv) % 2 ^ 32)
    if adv = 0 then s
    else s.send { Packet.blank with kind := 5, dst := tcPdev e, req := s.dev, win := tcPch e, len := adv }

/-- Whether a copy waits for the release store or atomic of its own bundle, which it must read after (R243, R280). -/
def State.copyBehind (s : State) (c : Copy) : Bool :=
  c.behind && s.holds c.core c.ctx c.uid && match (s.ctx c.core c.ctx).rel with
    | some ⟨_, .store ..⟩ => true
    | some ⟨_, .rmw _⟩ => true
    | _ => false

/-- The bytes of the next piece have been read: a poisoned one is recorded, and consumed in an open phase (R199, R331). -/
def State.notePoison (s : State) (c : Copy) (l : List Nat) : Copy × State :=
  match l.findIdx? fun x => decide (256 ≤ x) with
  | none => (c, s)
  | some i =>
    let used := c.phase && s.holds c.core c.ctx c.uid
    let s := if !c.fromBuf || c.mo == 7 then s.noteFault c 2 (c.sourceOf i / 64) else s
    ({ c with
        fault := if c.fault.isNone && (!c.fromBuf || c.mo == 7) then some (2, c.sourceOf i / 64) else c.fault
        mt := if used then none else c.mt },
      if used then s.consume c.core c.ctx else s)

/-- Piece i of a copy in flight performs at its destination (R281, R421). -/
def State.pieceWrite (s : State) (k : Nat) (c : Copy) (i : Nat) : State :=
  match c.flight[i]? with
  | none => s
  | some f =>
    match s.placePa k c f.row (nth .none c.dsts f.dst) (f.row * c.dstr + f.off) f.data.length false true with
    | (.error (.kind e va), c, s) => s.copyFault k c e va
    | (.error .held, c, s) => s.copyHeld k c
    | (.ok (pa, key, e), c, s) =>
      let n := f.data.length
      let s := (s.portArrival pa).perform c.uid (8 * k + c.ch) e key pa n (pack 8 (plainBytes f.data))
      let s := if f.baled then s.setForm pa n (2 + 4 * bits e 7 1) else s
      let s := (f.data.zipIdx.filter fun p => decide (256 ≤ p.1)).foldl (fun s p => s.poisonRange (pa + p.2) 1) s
      let b := nth 0 c.bars f.dst
      let s := if b = 0 ∨ c.mo = 7 ∨ c.mt.isSome then s else s.countBarrier (b - 1) n
      let c := Copy.release { c with flight := c.flight.eraseIdx i }
      if c.moved then s.copyMoved k c else { s with copies := tset s.copies k c }

/-- The next bytes of a copy are read: a segment, or a bale; they perform at the destinations later, in any order (R281, R236,
R330, R331). -/
def State.segment (s : State) (k : Nat) (c : Copy) : State :=
  if c.mo = 10 then s.chack k c
  else if s.copyBehind c then s
  else if c.allRead then (if c.flight.isEmpty then s.copyMoved k c else s)
  else
    let n := s.readLen c
    match s.pieceRead k c n with
    | (.error (.kind e va), c, s) => s.copyFault k c e va
    | (.error .held, c, s) => s.copyHeld k c
    | (.ok l, c, s) =>
      let bale := s.travels c l
      let r := s.notePoison c l
      let s := r.2.perf c.core c.ctx 9 n
      let c :=
        if c.gathers then
          (Copy.advance { r.1 with buf := r.1.buf ++ l, bales := if bale then r.1.bales ++ [r.1.buf.length] else r.1.bales } n).release
        else if bale && s.keepsBale r.1 then
          (Copy.advance { r.1 with flight := r.1.flight ++ [⟨r.1.row, r.1.off, 0, l, true⟩] } n).release
        else (r.1.launch l.length l).release
      if c.moved then s.copyMoved k c else { s with copies := tset s.copies k c }

/-! ### Completion (R306, R331, R339) -/

/-- Whether a copy has nothing left to wait for. -/
def Copy.finished (c : Copy) : Bool :=
  (c.stage == 4 || (c.stage == 3 && c.mt.isNone)) && c.awaits == 0

/-- The chained word goes to the tail of the chained queue; the copy's counting follows (R184). -/
def State.placeChained (s : State) (k : Nat) (c : Copy) : State :=
  match c.mt with
  | none => s
  | some w =>
    if c.stage = 3 ∧ (s.core c.core).seqr.chained.length < 4 then
      let s := s.modSeq c.core fun q => { q with chained := q.chained ++ [w] }
      let s := c.bars.foldl (fun s b => if b = 0 then s else s.countBarrier (b - 1) c.total) s
      { s with copies := tset s.copies k { c with stage := 4 } }
    else s

/-- An element of a context's queue becomes present, wherever its bits are (R310). -/
def State.fillElem (s : State) (c j q e : Nat) : State :=
  if (s.ctx c j).bank.isSome then s.modBank c j fun b => b.fillElem q e
  else s.modCtx c j fun x => { x with outPresent := tset x.outPresent q (setBits (tget 0 x.outPresent q) e 1 1) }

/-- What a finished copy leaves: its track, free from the next cycle on; a queue element present, or an answer (R306, R310). -/
def State.completeCopy (s : State) (k : Nat) (c : Copy) : State :=
  let s := { s with copies := tdel s.copies k }
  match c.reply with
  | some (dev, who) =>
    s.send { Packet.blank with
             kind := 6, dst := dev, req := s.dev, who := who, win := c.track / 2, status := if c.cut then 6 else 0
             party := c.track % 2, words := if c.rows = 0 then c.buf else [] }
  | none =>
    let s := s.modCore c.core fun q => { q with
      freed := (q.freed.filter fun f => decide (s.clk ≤ f.2.2)) ++ [(c.engine, c.track, s.clk)] }
    if !s.holds c.core c.ctx c.uid then s
    else
      match c.elem with
      | some (q, e) => s.fillElem c.core c.ctx q e
      | none => s

/-! ### Answers to a copy -/

/-- An answer that a copy waits for (R286, R336), in an open phase consumed where it tells of poison (R211): a window read's data; of a third-party read, how the owner's read went (a
refusal ends the wait) and each recipient's answer (rows 1: the news that one recipient's data was lost); rstat's DEV and WIN are those of the party concerned (R353). -/
def State.copyAnswer (s : State) (id : Nat) (r : Remote) (p : Packet) : State :=
  let k := r.copy
  match s.copies.find? fun q => q.1 == k with
  | none => s.dropRemote id
  | some (_, c) =>
    let far := r.kind == 7 && (p.party == 1 || p.rows == 1)
    let w := rstatWord p.status p.party c.ch (if far then p.req else r.dev) (if far then p.win else r.win) c.mo
    let used := p.status == 7 && c.phase && s.holds c.core c.ctx c.uid
    let s := if used then s.consume c.core c.ctx else s
    let c := if used then { c with mt := none } else c
    let refuse (s : State) (c : Copy) : State := if p.status = 0 then { s with copies := tset s.copies k c } else s.refuseCopy k c w
    match r.kind with
    | 1 =>
      let s := s.dropRemote id
      if p.status = 0 ∨ p.status = 7 then
        refuse s { c with buf := p.data, bales := p.bales, stage := 2 }
      else refuse s { c with stage := 3, mt := none, elem := none }
    | 7 =>
      if p.party ≠ 1 ∧ p.rows = 0 ∧ p.status ≠ 0 ∧ p.status ≠ 7 then refuse (s.dropRemote id) { c with awaits := 0 }
      else
        let s := if r.words ≤ 1 then s.dropRemote id else { s with remotes := tset s.remotes id { r with words := r.words - 1 } }
        refuse s { c with awaits := c.awaits - 1 }
    | _ => refuse (s.dropRemote id) { c with awaits := c.awaits - 1 }

end Sys2Proof.Machine
end

