-- ==== Sys2Proof/Machine/Commit.lean ====
section
/-! DEFINITION. What a bundle does at its commit point (R72, R73, R243, R272): each effect that its slots collected,
the scheduling forms, the spin monitor (R431), where the strand goes next (R77). -/

namespace Sys2Proof.Machine

/-! ### Results that wait under the interlock (R78) -/

/-- A destination that waits; its number. -/
def State.newLoad (s : State) (d pa va key : Nat) (done : Option (Word × Nat)) : State :=
  { (s.modMe fun x => { x with loads := x.loads ++ [⟨s.nextId, d, pa, va, key, none, none, none, done, false, false⟩] }) with
    nextId := s.nextId + 1 }

/-! ### Phases (R197, R263) -/

/-- pstat follows the phase while it is open. -/
def State.pstatSync (s : State) (c j : Nat) : State :=
  let p := (s.ctx c j).phase
  if p.opened then
    s.modBank c j fun b => { b with cr := tset b.cr 0x00B (wd (2 ^ 63 + p.retry * 2 ^ 61 + p.mask * 2 ^ 57 + p.log.length * 2 ^ 52 +
      p.windows.length * 2 ^ 48 + p.resume / 32 % 2 ^ 43 * 32)) }
  else s

/-- Accumulators of a mask copied between themselves and their shadows, poison marks with them (R97). -/
def Core.copyAccs (k : Core) (mask from_ to_ : Nat) : Core :=
  let rows := ((List.range 4).filter (bit mask)).flatMap fun u => (List.range 128).map fun i => (u * 128 + i)
  let bad := (k.accPoison.filter fun p => decide (from_ * 128 ≤ p / 128) && rows.contains (p / 128 - from_ * 128)).map fun p =>
    p + to_ * 16384 - from_ * 16384
  let kept := k.accPoison.filter fun p => !(decide (to_ * 128 ≤ p / 128) && rows.contains (p / 128 - to_ * 128))
  { k with
    acc := rows.foldl (fun t n => tset t (to_ * 128 + n) (tget 0 t (from_ * 128 + n))) k.acc
    accPoison := kept ++ bad }

/-- A phase opens; its shadows are copied before a vacc write of the same bundle performs, two cycles after issue (R152; R261
gives no order of the two: DESIGN CHOICE, log entry 36). -/
def State.openPhase (s : State) (mask list n : Nat) : State :=
  let ws := (List.range n).map fun i => wd (s.readPa 0 (list + 8 * i) 8)
  let s := s.modMe fun x => { x with phase := ⟨true, s.bun.pc + 32, mask, 0, ws, []⟩ }
  let s := s.modMb fun b => b.keepRegs phaseAt phaseRegs
  let s := s.modCore s.bun.core fun k => k.accAll.copyAccs mask 0 4
  s.pstatSync s.bun.core s.bun.ctx

/-! ### fwait (R252, R278) -/

/-- Whether what a token covers has performed at its scope; at .sys and .rcv that is also every link-FIFO operation whose last
word was pushed no later than the fence (R278). -/
def State.fwaitReady (s : State) (c j : Nat) (tok : Word) : Bool :=
  let x := s.ctx c j
  let t := tok.toNat
  let n := bits t 0 48
  let sc := bits t 61 3
  let all := decide (x.fence < n)
  !((s.core c).xforms.any fun f => f.uid == x.uid && (all || decide (f.seq < n))) && x.rel.isNone &&
    (decide (sc < 3) || !(s.remotes.any fun r => r.2.kind == 0 && r.2.uid == x.uid && (all || decide (r.2.seq < n)))) &&
    (decide (sc < 4) || s.persisted x.uid)

def State.fwaitDone (s : State) (c j : Nat) (tok : Word) : State :=
  let sc := bits tok.toNat 61 3
  let s := if 1 ≤ sc then s.dropL1 c else s
  if sc = 4 then s.coverCellar (s.ctx c j).uid else s

/-! ### Strands and crews -/

/-- spawn (R377): records pushed until one is refused; status and count. -/
def State.spawnLoop (s : State) (pa : Nat) : Nat → Nat → Nat × Nat × State
  | 0, i => (0, i, s)
  | n + 1, i =>
    let r := (split 64 8 (s.readPa 0 (pa + 64 * i) 64)).map wd
    let cl := s.bun.core / 4
    if !(recCrew r == 0 || recCrew r == s.me.crew) || !affValid (recAff r) cl || recW r 1 >>> 54 != 0 then (1, i, s)
    else if s.myCrew.memb = 65535 then (2, i, s)
    else
      let s := s.addMember s.me.crew
      let s := s.push cl (mkRecord s.me.crew (recResume r) 1 (recTag r) (recAff r) (recKind r) (recPri r) s.me.pre 0 (r.drop 2))
      s.spawnLoop pa n (i + 1)

/-- The strand's crew changes (R380). What its bank holds is of its old crew, so no strand of the new one inherits it (R17). -/
def State.moveCrew (s : State) (id : Nat) : State :=
  let old := s.me.crew
  let s := s.modMb fun b => { b with crew := 0xFFFF }
  let s := s.modMe fun x => { x with crew := id, joined := true }
  let s := if id = 0xFFFF then s
    else
      let e := s.crewOf s.bun.core id
      (s.addMember id).modMe fun x => { x with replay := e.replay, stage := e.stage, node := e.node }
  s.dropMember old false

/-- qmode, scb and spin of a bank in the order of a record: SPIN, SCB, QMODE from bit 0 (R374). -/
def Bank.modes (b : Bank) : Nat :=
  (tget 0 b.cr 0x009).toNat % 2 + 2 * ((tget 0 b.cr 0x008).toNat % 2) + 4 * ((tget 0 b.cr 0x007).toNat % 2)

/-- The lowest free slot of the core is armed for the strand's crew (R381). -/
def State.arm (s : State) (d : Nat) (v : Nat) : State :=
  let c := s.bun.core
  match (List.range 8).find? fun j => (s.ctx c j).st == .free with
  | none => s.schedule 2 (.s d) (.word 8 0) false
  | some j =>
    let me := s.me
    let m := s.mb.modes
    let s := { (s.modCtx c j fun _ => { Ctx.empty with
      st := .dormant, crew := me.crew, tag := me.tag, stage := me.stage, node := me.node, replay := me.replay, space := me.space, pri := bits v 0 3
      rearm := bit v 3, modes := m, age := s.nextId }) with nextId := s.nextId + 1 }
    s.schedule 2 (.s d) (.word (wd j) 0) false

def State.disarm (s : State) (d j : Nat) : State :=
  let x := s.ctx s.bun.core j
  if x.st = .dormant ∧ x.due = false ∧ x.crew = s.me.crew then
    (s.modCtx s.bun.core j fun _ => .empty).schedule 2 (.s d) (.word 0 0) false
  else s.schedule 2 (.s d) (.word 1 0) false

/-! ### The Silo (R385 to R388) -/

def State.pin (s : State) (i : Nat) : Nat := s.sm (0x5800 + 16 * i) 16
def State.putPin (s : State) (i v : Nat) : State := s.smPut (0x5800 + 16 * i) 16 v
def State.putSilo (s : State) (k v : Nat) : State := s.smPut (0x3800 + 128 * k) 128 v
def pinV (e : Nat) : Bool := bit e 127
def pinSet (e : Nat) : Nat := bits e 121 6
def pinBuf (e : Nat) : Nat := bits e 118 3
def pinTag (e : Nat) : Nat := bits e 64 32
def pinCount (e : Nat) : Nat := bits e 48 16
def siloCurver (e : Nat) : Nat := bits e 960 32
def setBst (e i v : Nat) : Nat := setBits e (848 + 2 * i) 2 v
def setPins (e i v : Nat) : Nat := setBits e (464 + 16 * i) 16 v

/-- The pin entry of a set and tag. -/
def State.findPin (s : State) (k tag : Nat) : Option Nat :=
  (List.range 1024).find? fun i => pinV (s.pin i) && pinSet (s.pin i) == k && pinTag (s.pin i) == tag

/-- The current buffer of a set. -/
def siloCurrent (e : Nat) : Nat := ((List.range 8).find? fun i => siloBst e i == 2).getD 0

def State.wvpin (s : State) (k tag : Nat) : Word × State :=
  let e := s.silo k
  if !siloEn e || (!siloMulti e && (siloStaged e).isSome) then (wd (2 ^ 62), s)
  else
    match s.findPin k tag with
    | some i =>
      let p := s.pin i
      (wd (siloVnum e (pinBuf p)),
        (s.putPin i (setBits p 48 16 (pinCount p + 1))).putSilo k (setPins e (pinBuf p) (siloPins e (pinBuf p) + 1)))
    | none =>
      match (List.range 1024).find? fun i => !pinV (s.pin i) with
      | none => (wd (2 ^ 63), s)
      | some i =>
        let b := siloCurrent e
        (wd (siloCurver e), (s.putPin i (2 ^ 127 + k * 2 ^ 121 + b * 2 ^ 118 + tag * 2 ^ 64 + 2 ^ 48)).putSilo k
          (setPins e b (siloPins e b + 1)))

def State.wvget (s : State) (k tag : Nat) : Word :=
  match s.findPin k tag with
  | some i => wd (siloAddr (s.silo k) (pinBuf (s.pin i)))
  | none => 0

def State.wvrel (s : State) (k tag : Nat) : Word × State :=
  match s.findPin k tag with
  | none => (wd (2 ^ 64 - 1), s)
  | some i =>
    let p := s.pin i
    let e := s.silo k
    let b := pinBuf p
    let e := setPins e b (siloPins e b - 1)
    let e := if siloBst e b = 3 ∧ siloPins e b = 0 then setBst e b 0 else e
    (wd (pinCount p - 1), (s.putPin i (if pinCount p ≤ 1 then 0 else setBits p 48 16 (pinCount p - 1))).putSilo k e)

def State.wvstage (s : State) (k : Nat) : Word × State :=
  let e := s.silo k
  if !siloEn e then (wd (2 ^ 62), s)
  else if !siloMulti e then (wd (siloAddr e 0), s.putSilo k (setBst e 0 1))
  else
    match siloStaged e with
    | some i => (wd (siloAddr e i), s)
    | none =>
      match (List.range (siloBufs e)).find? fun i => siloBst e i == 0 with
      | some i => (wd (siloAddr e i), s.putSilo k (setBst e i 1))
      | none => (0, s)

def State.wvpub (s : State) (k : Nat) : State :=
  let e := s.silo k
  match siloStaged e with
  | none => s
  | some i =>
    if !siloEn e then s
    else
      let v := (siloCurver e + 1) % 2 ^ 32
      let old := (List.range 8).find? fun j => siloBst e j == 2
      let e := setBits (setBits e 960 32 v) (592 + 32 * i) 32 v
      let e := match old with
        | some j => if j = i then e else setBst e j (if siloPins e j = 0 then 0 else 3)
        | none => e
      s.putSilo k (setBst e i 2)

/-! ### Barriers (R424) -/

def barInitWord (w v : Nat) : Nat :=
  setBits (setBits (setBits (setBits w 96 3 1) 80 16 v) 64 16 v) 32 32 (v >>> 32)

/-! ### Regions (R354, R356) -/

def State.openRegion (s : State) (limit : Nat) : State :=
  let s := s.modMe fun x => { x with region := ⟨true, s.bun.pc + 32, limit⟩ }
  s.modMb fun b => { b.keepRegs regionAt regionRegs with cr := tset b.cr 0x00A (wd (2 ^ 63)) }

/-- The region of the strand ends: replies that it has not read yet are of no open region. -/
def State.closeRegion (s : State) : State :=
  let uid := s.me.uid
  let s := s.modCore s.bun.core fun k => { k with
    lf := k.lf.map fun p => (p.1, { p.2 with inq := p.2.inq.map fun w => if w.strand = uid then { w with strand := 0 } else w }) }
  (s.modMe fun x => { x with region := .closed }).modMb fun b =>
    { b with cr := tset b.cr 0x00A (wd (setBits (tget 0 b.cr 0x00A).toNat 63 1 0)) }

/-- rcom's rollback: ATT, FAIL, unread replies, registers, resume bundle at issue + 20. Results still in flight land after the reload
(DESIGN CHOICE, log entry 37). -/
def State.rollbackRegion (s : State) : State :=
  let r := s.me.region
  let s := s.modMb fun b => { b.takeRegs regionAt regionRegs with
    cr := tset b.cr 0x00A (wd (setBits (setBits (tget 0 b.cr 0x00A).toNat 56 6 (min (rstatAtt (tget 0 b.cr 0x00A).toNat + 1) 63)) 62 1 0)) }
  let uid := s.me.uid
  let s := s.modCore s.bun.core fun k => { k with
    lf := k.lf.map fun p => (p.1, { p.2 with inq := p.2.inq.filter fun w => w.strand != uid }) }
  s.modMe fun x => { x with pc := r.resume, nextAt := s.bun.t + 20 }

/-! ### The scheduling forms at commit -/

/-- A wait that a form asks for: it follows one that the bundle has already. -/
def State.await (s : State) (w : Wait) : State :=
  s.modMe fun x => if x.wait = .none then { x with wait := w } else { x with after := w }

/-- The Silo and its pins as a wv form reads them: an error ends the replay (R226). -/
def State.siloRead (s : State) (k : Nat) : State := ((s.mbsRead (0x3800 + 128 * k) 128).mbsRead 0x5800 16384).errorEnds

/-- mwait (R384): a location that differs answers at once; else the context waits on its line. -/
def State.applyMwait (s : State) (d : Nat) (ws : List Word) : State :=
  let w (k : Nat) : Nat := (nth 0 ws k).toNat
  let n := w 5
  let v := s.readPa (w 2) (w 0) n
  let m := b2n (s.poisonedAt (w 0) n)
  let s := (s.dropLine s.bun.core (w 0)).downAccess (w 0)
  if v ≠ w 4 % 2 ^ (8 * n) ∨ m = 1 then s.newLoad d (w 0) (w 1) (w 2) (some (wd v, m))
  else
    let id := s.nextId
    (s.newLoad d (w 0) (w 1) (w 2) none).await (.line (w 0) (s.bun.t + 2 + s.cyclesOf 1000) n (w 2) id)

def State.applySched (s : State) (i : Instr) (ws : List Word) : State :=
  let w (k : Nat) : Nat := (nth 0 ws k).toNat
  let put (d : Nat) (p : Word × State) : State := p.2.newLoad d 0 0 0 (some (p.1, 0))
  match i with
  | .spawn d _ n =>
    let r := s.spawnLoop (w 0) (n + 1) 0
    r.2.2.errorEnds.newLoad d 0 0 0 (some (wd (r.1 + r.2.1 * 256), 0))
  | .suspend p pri aff => s.await (.suspend p pri aff ((s.bun.pc + 32) % 2 ^ 64))
  | .crewJoin .. => s.moveCrew (w 0)
  | .crewLeave => if s.me.crew = 0xFFFF then s else s.moveCrew 0xFFFF
  | .dormArm d _ => s.arm d (w 0)
  | .dormDisarm d _ => s.disarm d (w 0)
  | .wvpin d _ => put d (((s.siloRead (w 0)).dropL1 s.bun.core).wvpin (w 0) (w 1))
  | .wvpinT d _ _ => put d (((s.siloRead (w 0)).dropL1 s.bun.core).wvpin (w 0) (w 1))
  | .wvget d _ => put d (s.wvget (w 0) (w 1), s.siloRead (w 0))
  | .wvgetT d _ _ => put d (s.wvget (w 0) (w 1), s.siloRead (w 0))
  | .wvrel d _ => put d ((s.siloRead (w 0)).wvrel (w 0) (w 1))
  | .wvrelT d _ _ => put d ((s.siloRead (w 0)).wvrel (w 0) (w 1))
  | .wvnewStage d _ => put d ((s.siloRead (w 0)).wvstage (w 0))
  | .wvnewPub _ => (s.siloRead (w 0)).wvpub (w 0)
  | .arrive d _ _ =>
    if stEn (s.stageEntry (w 1)) then
      let id := s.nextId
      let s := s.newLoad d 0 0 0 none
      s.arriveAt (w 1) (setBits (w 0) 16 10 0x3FF) (some (s.bun.core, s.bun.ctx, id))
    else s.newLoad d 0 0 0 (some (1, 0))
  | .gtrig d _ _ =>
    let space := s.me.space
    let va := w 1
    let rd (o n : Nat) : Option Nat :=
      if 2 ^ 56 ≤ va + o then none
      else match s.lookup s.bun.core space (va + o) true false false, s.ownerPa space (va + o) true false with
        | .at_ pa key _, _ => if s.poisonedAt pa n then none else some (s.readPa key pa n)
        | .miss .., some (pa, key, _) => if s.poisonedAt pa n then none else some (s.readPa key pa n)
        | _, _ => none
    let r := s.trigger (w 0) (if va = 0 then none else some rd)
    r.2.newLoad d 0 0 0 (some (wd r.1, 0))
  | .mwaitN32 d _ _ => s.applyMwait d ws
  | .mwaitN64 d _ _ => s.applyMwait d ws
  | .barInit .. => s.putBarrier (w 0) (barInitWord (s.readPa 0 (w 0) 16) (w 1))
  | .barExpect .. =>
    let b := s.readPa 0 (w 0) 16
    s.putBarrier (w 0) (setBits b 32 32 (barPbytes b + w 1))
  | .barArrive d _ _ =>
    let gen := barGen (s.readPa 0 (w 0) 16)
    let s := if s.me.rel.isSome then s.modMe fun x => { x with arrives := x.arrives ++ [(w 0, w 1)] } else s.countArrival (w 0) (w 1)
    s.newLoad d 0 0 0 (some (wd gen, 0))
  | .barWait d _ _ => (s.dropL1 s.bun.core).newLoad d 0 0 0 (some (nth 0 ws 0, 0))
  | .barTest d _ _ => (if w 1 = 1 then s.dropL1 s.bun.core else s).newLoad d 0 0 0 (some (nth 0 ws 0, 0))
  | .rbeg l => s.openRegion l
  | .rcom => if w 0 = 0 then s.closeRegion else s
  | _ => s

/-! ### Effects -/

/-- Loads read before any store of the bundle performs (R243, R272). -/
def Eff.reads : Eff → Bool
  | .loadPad .. => true
  | .loadGlobal .. => true
  | .vload .. => true
  | .spillLoad .. => true
  | _ => false

/-- The scratchpad words at addresses, a poisoned one 2^32 more; and such words put back. -/
def State.wordsNow (s : State) (l : List Nat) : List (Nat × Nat) :=
  l.map fun a => (a, s.readPa 0 a 4 + if s.poisonedAt a 4 then 2 ^ 32 else 0)
def State.putWords (s : State) (l : List (Nat × Nat)) : State :=
  l.foldl (fun s p => let s := s.writePa 0 p.1 4 (p.2 % 2 ^ 32); if 2 ^ 32 ≤ p.2 then s.poisonRange p.1 4 else s) s

/-- Where a release store or atomic of the same bundle performs later, the words that VA stores keep what they held: SA's store
comes first (R243). -/
def State.keepBefore (s : State) (ws : List (Nat × Nat)) : State :=
  if s.relWrites s.bun.core s.bun.ctx then
    let old := s.wordsNow (ws.map (·.1))
    s.modMe fun x => { x with relBefore := old }
  else s

/-- An effect at the commit point. R369's record has no place for the code of a halt, which is counted as fault 0x40 and lost
(R131; DESIGN CHOICE, log entry 30). -/
def State.applyEff (s : State) (e : Eff) : State :=
  let c := s.bun.core
  let t := s.bun.t
  match e with
  | .land lat d v => s.schedule lat d v false
  | .loopCount a v => s.schedule 2 (.s a) (.word v 0) true
  | .loadPad d ty pa =>
    let n := typeBytes ty
    s.schedule 5 (.s d) (.word (loadValue ty (s.readPa 0 pa n)) (b2n (s.poisonedAt pa n))) false
  | .loadGlobal d ty pa va key acq =>
    let missed := !s.l1Hit c pa
    let leaf := s.leafOf c s.me.space va
    let r := s.loadGlobal c pa key (typeBytes ty)
    let v := loadValue ty r.1.1
    let s := { (r.2.modMe fun x => { x with
      spin := { x.spin with loads := x.spin.loads ++ [(s.bun.pc, pa, r.1.1)] }
      loads := x.loads ++ [⟨s.nextId, d, pa, va, key, none, none, acq, some (v, r.1.2), false, false⟩] }) with nextId := s.nextId + 1 }
    if missed then ((s.perf c s.bun.ctx 10 1).downAccess pa).l2Fills leaf pa (typeBytes ty) else s
  | .store n pa va key w g => s.storeAt c s.me.uid n pa va key w.toNat g
  | .storeRel sc n pa va key w g => s.modMe fun x => { x with rel := some ⟨sc, .store n pa va key w g⟩, relAt := s.nextId, relBefore := [] }
  | .rmw d r pa va key g rel acq =>
    let id := s.nextId
    let leaf := if g then s.leafOf c s.me.space va else 0
    match rel with
    | none =>
      let o := s.performRmw s.me.uid leaf r pa key
      { ((if g then o.2.dropLine c pa else o.2).modMe fun x => { x with
        loads := x.loads ++ [⟨id, d, pa, va, key, some r, none, acq, some (wd o.1.1, o.1.2.1), o.1.2.2, false⟩] }) with nextId := id + 1 }
    | some sc =>
      { (s.modMe fun x => { x with
        rel := some ⟨sc, .rmw id⟩, relAt := id, relBefore := []
        loads := x.loads ++ [⟨id, d, pa, va, key, some r, some sc, acq, none, false, false⟩] }) with nextId := id + 1 }
  | .vload d en pas lat =>
    let bad := (pas.zipIdx.any fun p => bit en.toNat (32 * p.2) && s.poisonedAt p.1 4)
    s.schedule lat (.v d) (.vec en (ofElems 32 (pas.zipIdx.map fun p =>
      if bit en.toNat (32 * p.2) then s.readPa 0 p.1 4 else 0)) (b2n bad)) false
  | .vstore ws =>
    let s := s.keepBefore ws
    ws.foldl (fun s p => s.perform s.me.uid 0 0 0 p.1 4 p.2) s
  | .spillLoad d o => s.schedule 2 (.s d) (.word (tget 0 s.mb.spill (o / 8)) (tget 0 s.mb.marks (4 * 4096 + o / 8))) false
  | .spillStore o w m => s.modMb fun b =>
      { b with spill := tset b.spill (o / 8) w, marks := setMark b.marks (4 * 4096 + o / 8) m }
  | .accWrite u row en v => s.modCore c fun k => { k with accLate := k.accLate ++ [⟨t + 2, u * 128 + row, en, v⟩] }
  | .lfPop _ k => s.modLf c k fun l => { l with inq := l.inq.drop 1 }
  | .lfPush k w => s.lfPush k w
  | .qcWrite k w => s.schedule 2 (.cr (0x40 + k)) (.word w 0) false
  | .qpush k a b n =>
    let q := s.queue k
    let base := (s.allot c s.me.crew).1 + qBase q + s.qNext k * qEsz q
    let v := a.toNat + b.toNat * 2 ^ 64
    (s.perform s.me.uid 0 0 0 base n (v % 2 ^ (8 * n))).schedule 2 (.qtail k) (.move true) false
  | .srTake k n => s.modMb fun b => { b with cr := tset b.cr (0x18 + k) (tget 0 b.cr (0x18 + k) + wd n) }
  | .acquirePad sc =>
    let s := s.modMe fun x => { x with acqTill := t + 5 }
    if 1 ≤ sc then s.dropL1 c else s
  | .fence sc d =>
    let n := (s.me.fence + 1) % 2 ^ 48
    (s.modMe fun x => { x with fence := n }).schedule 2 (.s d) (.word (wd (sc * 2 ^ 61 + n)) 0) false
  | .fwait tok =>
    if s.fwaitReady c s.bun.ctx tok then s.fwaitDone c s.bun.ctx tok
    else s.await (.fence tok (t + 2 + s.cyclesOf 1000))
  | .publish sc hs => s.modMe fun x => { x with rel := some ⟨sc, .publish hs x.region.opened⟩, relAt := s.nextId }
  | .xform x =>
    let f := s.me.fence
    { (s.modCore c fun k => { k with xforms := k.xforms ++ [{ x with id := s.nextId, seq := f }] }) with nextId := s.nextId + 1 }
  | .phaseStart m l n => s.openPhase m l n
  | .phaseCommit sc => s.modMe fun x => { x with rel := some ⟨sc, .phase x.phase.windows x.region.opened⟩, relAt := s.nextId }
  | .phaseAbort => s.closePhase c s.bun.ctx
  | .ckseal d va n =>
    let id := s.nextId
    (s.newLoad d 0 va 0 none).await (.seal id va n (t + 2 + s.cyclesOf 1000))
  | .mt w =>
    let s := if (s.core c).seqr.wait.isSome then s.seqTurn c (t + 2) else s
    match s.me.wait with
    | .rollback _ => s
    | .kill _ => s
    | _ => s.modSeq c fun q => q.accept { w with behind := s.relWrites c s.bun.ctx } (t + 2)
  | .copy i g x y mt => (s.startCopy i g x y mt).pstatSync c s.bun.ctx
  | .twait => (s.waitedCellar s.me.uid).modSeq c fun q => { q with till := t + 2 }
  | .drain ch => s.drainCellar s.me.uid ch
  | .sched i ws => s.applySched i ws
  | .transfer .. => s
  | .handlerReturn _ => s
  | .yield =>
    if s.me.pinned then s
    else
      let s := { (s.modMe fun x => { x with age := s.nextId }) with nextId := s.nextId + 1 }
      if (s.core c).choices.any fun p => decide (s.me.pri ≤ p.2.pri) then s.await .yield else s
  | .endStrand h =>
    let s := match h with | some _ => s.countFault c s.me.crew s.me.replay 0x40 | none => s
    s.await .exit
  | .srWrite k w => s.modMb fun b => { b with cr := tset b.cr k w }

/-! ### The spin monitor (R431) -/

/-- Whether an effect is of a form that the body must not hold beside its one load: memory forms, copies, MT words, lf
accesses, mask-stack operations, cwr. -/
def Eff.breaksSpin : Eff → Bool
  | .land _ d _ => (match d with | .mask => true | .cr _ => true | _ => false)
  | .loopCount .. => false
  | .loadGlobal .. => false
  | .accWrite .. => false
  | .srTake .. => false
  | .transfer .. => false
  | .yield => false
  | .sched .. => false
  | .drain _ => false
  | .qpush .. => false
  | _ => true

/-- Whether the bundle's XC form is a br or a jr: the transfers that the monitor watches. -/
def State.spinJump (s : State) : Bool :=
  match decodeSlot (slotMap 7) (nth 0 s.bun.words 7) with
  | some (.br ..) => true
  | some (.jr ..) => true
  | _ => false

/-- Where the bundle goes: the target of a taken transfer and whether it is a loop's back edge. -/
def transferOf (l : List Eff) : Option (Nat × Bool) :=
  l.findSome? fun e => match e with | .transfer t b => some (t, b) | _ => none

/-- The monitor after a committed bundle: it watches where spin is set and it may park the context (R431). The body of an
iteration is what has issued since the transfer's target; a first one that began past the target is none. -/
def State.spinTrack (s : State) (effs : List Eff) : State :=
  let b := s.mb
  let pc := s.bun.pc
  let regs := (List.range 31).map fun k => b.sr (k + 1)
  s.modMe fun x =>
    let start := x.spin.start.getD pc
    let other := if effs.any (·.breaksSpin) then x.spin.other.insert pc else x.spin.other
    let spin : Spin :=
      if tget 0 b.cr 0x009 = 0 || x.pinned then .none
      else
        match transferOf effs with
        | some (target, false) =>
          if target ≤ pc ∧ s.spinJump then
            let body := if start ≤ target && other.all (· < target) then (x.spin.loads.filter fun l => decide (target ≤ l.1)).map (·.2) else []
            let now := match body with | [l] => some l | _ => none
            let same := now.isSome && x.spin.jump == some (pc, target) && x.spin.regs == regs && x.spin.last.map (·.2) == now.map (·.2)
            ⟨regs, now, if same then x.spin.count + 1 else 0, some (pc, target), some target, [], []⟩
          else .none
        | _ => { x.spin with start := some start, other := other }
    { x with spin := spin }

/-! ### Commit -/

/-- POP: the heads move at the commit point, two cycles after issue (R72, R73). -/
def State.applyPops (s : State) (pop : Nat) : State :=
  (List.range 8).foldl (fun s k => if bit pop k then s.schedule 2 (.qhead k) (.move false) false else s) s

/-- Where the strand goes next (R77, R123, R195). -/
def State.goOn (s : State) (effs : List Eff) : State :=
  let t := s.bun.t
  let stall := hdrStall s.header
  match effs.findSome? fun e => match e with | .handlerReturn a => some a | _ => none with
  | some a => s.returnTo a (t + 20)
  | none =>
    let (pc, n) := match transferOf effs with
      | some (a, true) => (a, stall)
      | some (a, false) => (a, max stall 2)
      | none => ((s.bun.pc + 32) % 2 ^ 64, stall)
    s.modMe fun x => { x with pc := pc, nextAt := t + 1 + n + s.bun.extra }

/-- The bundle in hand has issued, whatever becomes of it (R430). -/
def State.countIssue (s : State) : State :=
  let c := s.bun.core
  ((s.perf c s.bun.ctx 1 1).perf c s.bun.ctx 2 (s.bun.t - (s.core c).lastIssue - 1)).modCore c fun k => { k with lastIssue := s.bun.t }

/-- A bundle that reaches its commit point without a fault commits whole (R73). -/
def State.commitBundle (s : State) : State :=
  let b := s.bun
  let c := b.core
  if b.effs.any (fun e => match e with | .sched .rcom ws => (nth 0 ws 0) == 1 | _ => false) then s.countIssue.rollbackRegion
  else
    let s := s.countIssue.perf c b.ctx 3 (hdrStall s.header)
    let s := s.modMe fun x => { x with seq := x.seq + 1, stalled := [], noSafe := false, pc := (b.pc + 32) % 2 ^ 64 }
    let s := (b.effs.filter (·.reads)).foldl State.applyEff s
    let s := (b.effs.filter (!·.reads)).foldl State.applyEff s
    ((s.applyPops (hdrPop s.header)).spinTrack b.effs).goOn b.effs

end Sys2Proof.Machine
end

