-- ==== Sys2Proof/Machine/Control.lean ====
section
/-! DEFINITION. The X map (R120 to R131): transfers, loops, the mask stack, fmtw, requested traps, yield and halt. -/

namespace Sys2Proof.Machine

/-! ### Transfers -/

/-- count(a), and what the XC slot reads of s[a] (R124): the latest write of a loop on s[a] still in flight, else the
register. One of the trapped bundles' that the snapshot holds does not count in handler state (DEDUCED, log entry 36). -/
def State.loopCount (s : State) (a : Nat) : Word :=
  s.me.land.foldl (fun w l => match l.dest, l.val with
    | .s k, .word x _ => if l.loop && k == a then x else w
    | _, _ => w) (s.rs a)

/-- A conditional transfer to a label (R121, R122). -/
def State.branch (s : State) (taken : Bool) (target : Nat) : State :=
  if taken then s.emit (.transfer target false) else s

def execBr (c a o : Nat) (s : State) : Answer := .next (s.branch (branchCond c (s.loopCount a)) (s.label o))

/-- s31 := pc + 32 at issue + 2, and the transfer (R122). -/
def execCall (o : Nat) (s : State) : Answer :=
  .next ((s.result 31 2 (wd (s.bun.pc + 32))).emit (.transfer (s.label o) false))

/-- A jump by register: in handler state a target of tbund or tbund + 32 returns, once the handler's fixed-latency
results have landed (R195). -/
def State.jump (s : State) (target : Word) : State :=
  let tb := s.cr 0x001
  if s.me.handler && (target == tb || target == tb + 32) then
    if s.me.land.all (·.commits) then s.emit (.handlerReturn target.toNat) else s.waitFor 5 0
  else s.emit (.transfer target.toNat false)

def execJr (a : Nat) (s : State) : Answer := .next (s.jump (s.loopCount a))

def execJrl (a : Nat) (s : State) : Answer := .next ((s.jump (s.loopCount a)).result 31 2 (wd (s.bun.pc + 32)))

/-- loop.enter (R123). -/
def execLoopEnter (a o : Nat) (s : State) : Answer := .next (s.branch (s.loopCount a == 0) (s.label o))

/-- loop (R123, R124). -/
def execLoop (a o : Nat) (s : State) : Answer :=
  let n := s.loopCount a
  if n.toNat ≥ 2 then .next ((s.emit (.loopCount a (n - 1))).emit (.transfer (s.label o) true))
  else .next (s.emit (.loopCount a 0))

/-! ### Mask stack -/

def execMpush (a : Nat) (s : State) : Answer := .next (s.pushMask 2 (s.loopCount a &&& s.mb.top))
def execMpushRaw (a : Nat) (s : State) : Answer := .next (s.pushMask 2 (s.loopCount a))
def execMinv (s : State) : Answer := .next (s.emit (.land 2 .mask (.stack (invertTop s.mb.mask) 0 0)))
/-- Pops n + 1 entries; the word holds n (R125). -/
def execMpop (n : Nat) (s : State) : Answer := .next (s.emit (.land 2 .mask (.stack (s.mb.mask.drop (n + 1)) 0 (n + 1))))
/-- bnone (R126). -/
def execBnone (o : Nat) (s : State) : Answer := .next (s.branch (s.mb.top == 0) (s.label o))

/-! ### fmtw (R127, R128) -/

def execFmtw (a : Nat) (s : State) : Answer :=
  .next (s.unless (fmtReserved (s.loopCount a).toNat) 0x01 0 fun s => s.emit (.land 4 .fmt (.field fmtWritable (s.loopCount a &&& fmtWritable))))

def execFmtwVty (t : Nat) (s : State) : Answer := .next (s.emit (.land 4 .fmt (fmtField 7 4 t)))

/-- b is MB, a is MA. -/
def execFmtwMab (b a : Nat) (s : State) : Answer :=
  .next (s.emit (.land 4 .fmt (.field (wd (4095 * 2 ^ 11)) (wd (a % 64 * 2 ^ 17 + b % 64 * 2 ^ 11)))))

/-- k is SRI, t is SAT, r is RND. -/
def execFmtwRnd (k t r : Nat) (s : State) : Answer :=
  .next (s.emit (.land 4 .fmt (.field (wd (127 * 2 ^ 25)) (wd (r % 8 * 2 ^ 25 + t % 2 * 2 ^ 28 + k % 8 * 2 ^ 29)))))

/-- BLK and ACF together (R127). -/
def State.fmtwBlk (s : State) (blk acf : Nat) : State :=
  s.emit (.land 4 .fmt (.field (wd (3 * 2 ^ 23)) (wd (blk * 2 ^ 23 + acf * 2 ^ 24))))

def execFmtwBlk00 (s : State) : Answer := .next (s.fmtwBlk 0 0)
def execFmtwBlk01 (s : State) : Answer := .next (s.fmtwBlk 1 0)
def execFmtwBlk10 (s : State) : Answer := .next (s.fmtwBlk 0 1)
def execFmtwBlk11 (s : State) : Answer := .next (s.fmtwBlk 1 1)

/-! ### Requested traps, yield and halt -/

/-- The bundle traps when the condition holds (R129). -/
def execTrap (c a n : Nat) (s : State) : Answer :=
  .next (s.unless (branchCond c (s.loopCount a)) 0x13 n id)

def execSysc (n : Nat) (s : State) : Answer := .next (s.trap 0x14 n)
def execEbrk (n : Nat) (s : State) : Answer := .next (s.trap 0x15 n)

/-- yield: no effect in handler state, an open region, or a phase that holds shadows (R130, R193, R202), as they stand at its
issue: one beside the rcom or phase.abort that closes them has none (DESIGN CHOICE, log entry 36). -/
def execYield (s : State) : Answer := .next (if s.me.pinned then s else s.emit .yield)

/-- halt: the fault and the exit come after commit (R131). -/
def execHalt (n : Nat) (s : State) : Answer := .next (s.emit (.endStrand (some n)))

def execNopX (s : State) : Answer := .next s

end Sys2Proof.Machine
end

