-- ==== Sys2Proof/Machine/Scalar.lean ====
section
/-! DEFINITION. The scalar forms of the S map that compute, move and check (R106 to R119), and rdcnt (R427). -/

namespace Sys2Proof.Machine

/-! ### Register forms -/

/-- A result from two scalar sources (R107, R109). -/
def State.alu2 (s : State) (d a b lat : Nat) (f : Word → Word → Word) : Answer := .next (s.result d lat (f (s.rs a) (s.rs b)))

/-- A result from one scalar source (R108, R111 to R113). -/
def State.alu1 (s : State) (d a : Nat) (f : Word → Word) : Answer := .next (s.result d 2 (f (s.rs a)))

/-- Shift amounts take bits 5:0 (R107). -/
def amount (b : Word) : Nat := b.toNat % 64

/-- A signed or natural sum or difference clamped to its type (R107). -/
def clampWord (signed : Bool) (i : Int) : Word :=
  let r := intRange signed 64
  wi (clamp r.1 r.2 i)

def execAdd (d a b : Nat) (s : State) : Answer := s.alu2 d a b 2 fun x y => x + y
def execSub (d a b : Nat) (s : State) : Answer := s.alu2 d a b 2 fun x y => x - y
def execAnd (d a b : Nat) (s : State) : Answer := s.alu2 d a b 2 fun x y => x &&& y
def execOr (d a b : Nat) (s : State) : Answer := s.alu2 d a b 2 fun x y => x ||| y
def execXor (d a b : Nat) (s : State) : Answer := s.alu2 d a b 2 fun x y => x ^^^ y
def execAndn (d a b : Nat) (s : State) : Answer := s.alu2 d a b 2 fun x y => x &&& ~~~y
def execShl (d a b : Nat) (s : State) : Answer := s.alu2 d a b 2 fun x y => x <<< amount y
def execShr (d a b : Nat) (s : State) : Answer := s.alu2 d a b 2 fun x y => x >>> amount y
def execSar (d a b : Nat) (s : State) : Answer := s.alu2 d a b 2 fun x y => x.sshiftRight (amount y)
def execRor (d a b : Nat) (s : State) : Answer := s.alu2 d a b 2 fun x y => x.rotateRight (amount y)
def execMinI64 (d a b : Nat) (s : State) : Answer := s.alu2 d a b 2 fun x y => if y.slt x then y else x
def execMinN64 (d a b : Nat) (s : State) : Answer := s.alu2 d a b 2 fun x y => if y.ult x then y else x
def execMaxI64 (d a b : Nat) (s : State) : Answer := s.alu2 d a b 2 fun x y => if x.slt y then y else x
def execMaxN64 (d a b : Nat) (s : State) : Answer := s.alu2 d a b 2 fun x y => if x.ult y then y else x
def execAddsI64 (d a b : Nat) (s : State) : Answer := s.alu2 d a b 2 fun x y => clampWord true (x.toInt + y.toInt)
def execAddsN64 (d a b : Nat) (s : State) : Answer := s.alu2 d a b 2 fun x y => clampWord false ((x.toNat : Int) + y.toNat)
def execSubsI64 (d a b : Nat) (s : State) : Answer := s.alu2 d a b 2 fun x y => clampWord true (x.toInt - y.toInt)
def execSubsN64 (d a b : Nat) (s : State) : Answer := s.alu2 d a b 2 fun x y => clampWord false ((x.toNat : Int) - y.toNat)
def execMul (d a b : Nat) (s : State) : Answer := s.alu2 d a b 4 fun x y => x * y
def execMulhI64 (d a b : Nat) (s : State) : Answer :=
  s.alu2 d a b 4 fun x y => wi (x.toInt * y.toInt / ((2 ^ 64 : Nat) : Int))
def execMulhN64 (d a b : Nat) (s : State) : Answer := s.alu2 d a b 4 fun x y => wd (x.toNat * y.toNat / 2 ^ 64)

def execClz (d a : Nat) (s : State) : Answer := s.alu1 d a fun x => wd (leadZeros 64 x.toNat)
def execCtz (d a : Nat) (s : State) : Answer := s.alu1 d a fun x => wd (trailZeros 64 x.toNat)
def execPopc (d a : Nat) (s : State) : Answer := s.alu1 d a fun x => wd (popCount 64 x.toNat)
def execNeg (d a : Nat) (s : State) : Answer := s.alu1 d a fun x => 0 - x
def execNot (d a : Nat) (s : State) : Answer := s.alu1 d a fun x => ~~~x
def execAbs (d a : Nat) (s : State) : Answer := s.alu1 d a fun x => if x.slt 0 then 0 - x else x
def execSx8 (d a : Nat) (s : State) : Answer := s.alu1 d a fun x => wi (sext 8 x.toNat)
def execSx16 (d a : Nat) (s : State) : Answer := s.alu1 d a fun x => wi (sext 16 x.toNat)
def execSx32 (d a : Nat) (s : State) : Answer := s.alu1 d a fun x => wi (sext 32 x.toNat)
def execZx8 (d a : Nat) (s : State) : Answer := s.alu1 d a fun x => x &&& 0xFF#64
def execZx16 (d a : Nat) (s : State) : Answer := s.alu1 d a fun x => x &&& 0xFFFF#64
def execZx32 (d a : Nat) (s : State) : Answer := s.alu1 d a fun x => x &&& 0xFFFFFFFF#64
def execBrev (d a : Nat) (s : State) : Answer := s.alu1 d a fun x => wd (revBits 64 x.toNat)
def execBswap (d a : Nat) (s : State) : Answer := s.alu1 d a fun x => wd (pack 8 (split 8 8 x.toNat).reverse)

/-- Signed quotient toward zero; by zero all ones (R109). -/
def divSigned (x y : Word) : Word := if y = 0 then BitVec.allOnes 64 else wi (x.toInt.tdiv y.toInt)
def divNatural (x y : Word) : Word := if y = 0 then BitVec.allOnes 64 else wd (x.toNat / y.toNat)
/-- Remainder with the dividend's sign; by zero the dividend (R109). -/
def remSigned (x y : Word) : Word := if y = 0 then x else wi (x.toInt.tmod y.toInt)
def remNatural (x y : Word) : Word := if y = 0 then x else wd (x.toNat % y.toNat)

def execDivI64 (d a b : Nat) (s : State) : Answer := s.alu2 d a b 24 divSigned
def execDivN64 (d a b : Nat) (s : State) : Answer := s.alu2 d a b 24 divNatural
def execRemI64 (d a b : Nat) (s : State) : Answer := s.alu2 d a b 24 remSigned
def execRemN64 (d a b : Nat) (s : State) : Answer := s.alu2 d a b 24 remNatural

/-- The conditions of R110. -/
def scalarCond (c : Nat) (x y : Word) : Bool :=
  match c with
  | 0 => x == y
  | 1 => x != y
  | 2 => x.slt y
  | 3 => x.ult y
  | 4 => x.sle y
  | 5 => x.ule y
  | 6 => y.slt x
  | _ => y.ult x

/-- 1 when a condition holds, else 0. -/
def ofBool (b : Bool) : Word := if b then 1 else 0

/-- imm13 of cmpi: zero-extended for the natural conditions, else sign-extended (R110). -/
def cmpiOperand (c i : Nat) : Word := if c = 3 ∨ c = 5 ∨ c = 7 then wd (i % 2 ^ 13) else wi (sext 13 i)

def execCmp (d a b c : Nat) (s : State) : Answer := s.alu2 d a b 2 fun x y => ofBool (scalarCond c x y)
def execCmpi (d a c i : Nat) (s : State) : Answer := s.alu1 d a fun x => ofBool (scalarCond c x (cmpiOperand c i))

/-! ### Immediate, move and bit-field forms -/

def execAddi (d a i : Nat) (s : State) : Answer := s.alu1 d a fun x => x + wi (sext 16 i)
def execAndi (d a i : Nat) (s : State) : Answer := s.alu1 d a fun x => x &&& wd (i % 65536)
def execOri (d a i : Nat) (s : State) : Answer := s.alu1 d a fun x => x ||| wd (i % 65536)
def execXori (d a i : Nat) (s : State) : Answer := s.alu1 d a fun x => x ^^^ wd (i % 65536)
def execShli (d a n : Nat) (s : State) : Answer := s.alu1 d a fun x => x <<< (n % 64)
def execShri (d a n : Nat) (s : State) : Answer := s.alu1 d a fun x => x >>> (n % 64)
def execSari (d a n : Nat) (s : State) : Answer := s.alu1 d a fun x => x.sshiftRight (n % 64)
def execRori (d a n : Nat) (s : State) : Answer := s.alu1 d a fun x => x.rotateRight (n % 64)
def execMovi (d i : Nat) (s : State) : Answer := .next (s.result d 2 (wi (sext 21 i)))
def execMovk (d a i : Nat) (s : State) : Answer := s.alu1 d a fun x => (x <<< 16) ||| wd (i % 65536)
/-- pc + s[a] + sext(imm16) × 32 (R114). -/
def execLea (d a i : Nat) (s : State) : Answer := s.alu1 d a fun x => wd s.bun.pc + x + wi (32 * sext 16 i)

def execBextN64 (d a l p : Nat) (s : State) : Answer := s.alu1 d a fun x => wd (bits x.toNat p (l + 1))
def execBextI64 (d a l p : Nat) (s : State) : Answer := s.alu1 d a fun x => wi (sext (l + 1) (bits x.toNat p (l + 1)))
/-- The field of s[d] is replaced; s[d] is read at issue (R115). -/
def execBins (d a l p : Nat) (s : State) : Answer :=
  s.alu1 d a fun x => wd (setBits (s.rsn d) p (l + 1) x.toNat)

/-! ### Control registers and geometry -/

/-- crd of lfk (R99, R117): unbound is allotment bounds, empty interlocks, a failed reply outside a region traps
(R352); the word leaves the FIFO at commit. -/
def State.readLf (s : State) (d k : Nat) : State :=
  s.unless (!s.lfBound k) 0x06 (0x050 + k) fun s =>
    match (s.lf k).inq with
    | [] => s.waitFor 3 0
    | e :: _ =>
      if e.len ≠ 0 ∧ bits e.stat 40 8 ≠ 0 ∧ !e.region then
        let s := if s.bun.trap.isNone then { s with bun := { s.bun with dropLf := some k } } else s
        if bits e.stat 40 8 = 8 then s.trap 0x10 e.off else s.trap 0x0F e.stat
      else (s.result d 2 e.w).emit (.lfPop d k)

/-- crd (R116, R117). -/
def execCrd (d n : Nat) (s : State) : Answer :=
  if 0x048 ≤ n ∧ n < 0x050 then
    let k := n - 0x048
    if s.qHolds k then .next (s.waitFor 4 0)
    else
      let q := s.qHeadValue k
      .next (s.emit (.land 2 (.s d) (.word (wd q.1) (b2n q.2))))
  else if 0x050 ≤ n ∧ n < 0x058 then .next (s.readLf d (n - 0x050))
  else .next (s.result d 2 (s.crRead n))

/-- cwr of lfk (R99, R117, R350): the header's and the offset's checks are made by the cwr that pushes them; a full FIFO
interlocks. What a release-ordered packet waits for (R284) it waits for at the port. -/
def State.writeLf (s : State) (k : Nat) (w : Word) : State :=
  s.unless (!s.lfBound k) 0x06 (0x050 + k) fun s =>
    let l := s.lf k
    s.unless (l.part.isEmpty && !packetHeaderGood w.toNat) 0x01 0 fun s =>
      let size := if bit (l.part.headD 0).toNat 53 then 8 else 4
      s.unless (l.part.length == 1 && w.toNat % size != 0) 0x05 w.toNat fun s =>
        if 32 ≤ l.outq.length + l.part.length then s.waitFor 3 0 else s.emit (.lfPush k w)

/-- cwr of qck: the checks of R309, then the word lands at issue + 2. -/
def State.writeQc (s : State) (k : Nat) (w : Word) : State :=
  let q := w.toNat
  s.unless (bit q 62) 0x01 0 fun s =>
    s.unless (qEn q && decide (qDepth q < qCnt q)) 0x01 0 fun s =>
      let last := qBase q + qDepth q * qEsz q
      s.unless (qEn q && decide ((s.allot s.bun.core s.me.crew).2 < last)) 0x06 (last - 1) fun s =>
        s.emit (.land 2 (.cr (0x040 + k)) (.word w 0))

/-- cwr (R101, R116, R117). -/
def execCwr (a n : Nat) (s : State) : Answer :=
  if 0x040 ≤ n ∧ n < 0x048 then .next (s.writeQc (n - 0x040) (s.rs a))
  else if 0x050 ≤ n ∧ n < 0x058 then .next (s.writeLf (n - 0x050) (s.rs a))
  else .next (s.emit (.land 2 (.cr n) (.word (s.rs a) 0)))

/-- gset (R118). -/
def execGset (a f i : Nat) (s : State) : Answer :=
  .next (s.emit (.land 2 (if f = 0 then .mg i else .cg i) (.word (s.rs a) 0)))

/-- gget (R118). -/
def execGget (d f i : Nat) (s : State) : Answer :=
  .next (s.result d 2 (if f = 0 then tget 0 s.mb.mg i else tget 0 s.mb.cg i))

/-- chkt (R119). -/
def execChkt (a b : Nat) (s : State) : Answer :=
  .next (s.unless (s.rs a != s.rs b) 0x0C (a + b * 32) id)

/-- The value of a counter (R427): tstamp, cycles, a cluster's rqst, or the core's own; a performance counter of cycles has
counted up to now (R430). -/
def State.counter (s : State) (core n : Nat) : Word :=
  let k := s.core core
  if n = 0x000 then wd s.ns
  else if n = 0x001 then wd s.clk - k.cyc0
  else if n = 0x020 then (s.cluster (core / 4)).rqst
  else
    let more := if 0x030 ≤ n ∧ n < 0x040 then s.uncounted core (tget 0 k.pcsel (n - 0x030)).toNat else 0
    if more = 0 then tget 0 k.counters n else tget (tget 0 k.counters n) k.counterNew n + wd more

/-- rdcnt (R427). -/
def execRdcnt (d n : Nat) (s : State) : Answer := .next (s.result d 2 (s.counter s.bun.core n))

/-- nop of SA and SB (R56, R62): nothing. -/
def execNopS (s : State) : Answer := .next s

end Sys2Proof.Machine
end

