-- ==== Sys2Proof/Machine/Issue.lean ====
section
/-! DEFINITION. A bundle from its fetch to its end (R57, R61, R67 to R73, R77 to R84, R187 to R192): what each form
reads and writes, illegal bundles, the scoreboard, interlocks, the hold for translation; BUNDLE_ISSUE, BUNDLE_COMMIT
and RESULT_LANDING. -/

namespace Sys2Proof.Machine

/-! ### What forms read and write (R82, R83) -/

/-- The four registers of a geometry set (R98). -/
def setReads (g : Nat) : List Dest := [.mg (4 * g), .mg (4 * g + 1), .mg (4 * g + 2), .mg (4 * g + 3)]

/-- The registers of a copy descriptor, with those of its handler extension (R325). -/
def descReads (g : Nat) (hnd : Bool) : List Dest := (List.range (if hnd then 8 else 4)).map fun k => .cg (4 * g + k)

/-- The registers that a form reads at issue; vector register 31 stands for the broadcast port. A form that the top
predicates or that takes it reads the mask stack (R82, R134). -/
def readsOf (i : Instr) : List Dest :=
  match i with
  | .add _ a b | .sub _ a b | .and _ a b | .or _ a b | .xor _ a b | .andn _ a b | .shl _ a b | .shr _ a b
  | .sar _ a b | .ror _ a b | .minI64 _ a b | .minN64 _ a b | .maxI64 _ a b | .maxN64 _ a b | .addsI64 _ a b
  | .addsN64 _ a b | .subsI64 _ a b | .subsN64 _ a b | .mul _ a b | .mulhI64 _ a b | .mulhN64 _ a b
  | .divI64 _ a b | .divN64 _ a b | .remI64 _ a b | .remN64 _ a b | .cmp _ a b _ | .amoAdd _ a b _ _ _
  | .amoAnd _ a b _ _ _ | .amoOr _ a b _ _ _ | .amoXor _ a b _ _ _ | .amoMinI _ a b _ _ _
  | .amoMaxI _ a b _ _ _ | .amoMinN _ a b _ _ _ | .amoMaxN _ a b _ _ _ | .amoSwap _ a b _ _ _
  | .amoFadd _ a b _ _ _ | .wvpinT _ a b | .wvgetT _ a b | .wvrelT _ a b | .arrive _ a b | .mwaitN32 _ a b
  | .mwaitN64 _ a b | .gtrig _ a b | .barInit a b | .barExpect a b | .barArrive _ a b | .barWait _ a b
  | .barTest _ a b | .chkt a b => [.s a, .s b]
  | .clz _ a | .ctz _ a | .popc _ a | .neg _ a | .not _ a | .abs _ a | .sx8 _ a | .sx16 _ a | .sx32 _ a
  | .zx8 _ a | .zx16 _ a | .zx32 _ a | .brev _ a | .bswap _ a | .addi _ a _ | .andi _ a _ | .ori _ a _
  | .xori _ a _ | .shli _ a _ | .shri _ a _ | .sari _ a _ | .rori _ a _ | .cmpi _ a _ _ | .movk _ a _
  | .lea _ a _ | .bextN64 _ a _ _ | .bextI64 _ a _ _ | .cwr a _ | .gset a _ _ | .ld _ a _ _ | .ldAcq _ a _ _ _
  | .fwait a | .publish a _ | .ckseal _ a _ | .spawn _ a _ | .crewJoin _ a | .crewInfo _ a
  | .wvpin _ a | .wvget _ a | .wvrel _ a | .wvnewStage _ a | .wvnewPub a | .dormArm _ a | .dormDisarm _ a
  | .br _ a _ | .jr a | .jrl a | .loopEnter a _ | .loop a _ | .fmtw a | .trap _ a _ => [.s a]
  | .phaseStart a n _ => if n = 0 then [] else [.s a]
  | .bins d a _ _ | .st d a _ _ | .stRel d a _ _ _ => [.s d, .s a]
  | .crd _ n => [.cr n]
  | .gget _ f i => [if f = 0 then .mg i else .cg i]
  | .stx d _ => [.s d]
  | .cas d a b _ _ _ | .xformSplit d a b _ | .xformMerge d a b _ | .xformConv d a b _ _ | .xformBpack d a b
  | .xformBunpack d a b => [.s d, .s a, .s b]
  | .xformZero d b => [.s d, .s b]
  | .vfadd _ a b | .vfsub _ a b | .vfmul _ a b | .vfmin _ a b | .vfmax _ a b | .vfsgn _ a b | .viadd _ a b
  | .visub _ a b | .vimul _ a b | .vimulh _ a b | .vand _ a b | .vor _ a b | .vxor _ a b | .vandn _ a b
  | .vshl _ a b | .vshr _ a b | .vsar _ a b | .vimin _ a b | .vimax _ a b | .viadds _ a b | .visubs _ a b
  | .vcmp _ a b _ | .vcmpm a b _ | .vperm _ a b | .vzipl _ a b | .vziph _ a b | .vunze _ a b | .vunzo _ a b
  | .vcat _ a b _ => [.v a, .v b, .mask]
  | .vfma _ a b c | .vfms _ a b c | .vnfma _ a b c | .vnfms _ a b c | .vsel _ a b c | .vsels _ a b c
  | .vperm2 _ a b c => [.v a, .v b, .v c, .mask]
  | .viabs _ a | .vineg _ a | .vcvt _ a _ _ | .vcvtFrte _ a _ | .vfabs _ a | .vfneg _ a | .vsqrt _ a
  | .vrcp _ a | .vrsqrt _ a | .vexp2 _ a | .vexp _ a | .vlog2 _ a | .vtanh _ a | .vsigm _ a | .vrot _ a _
  | .vshd _ a _ | .vredadd _ a | .vredmin _ a | .vredmax _ a | .vredand _ a | .vredor _ a | .vredxor _ a
  | .vscanadd _ a | .vscanmin _ a | .vscanmax _ a | .vscanxadd _ a | .vscanxmin _ a | .vscanxmax _ a
  | .vcomp _ a | .vexpd _ a | .vnzm a => [.v a, .mask]
  | .vcvtTote _ a _ | .vext _ a _ | .vexts _ a _ | .vext64 _ a _ => [.v a]
  | .vm2v _ | .vmovi _ _ | .vmovih _ _ | .vqh _ _ | .mpop _ | .bnone _ | .minv => [.mask]
  | .vaccr _ b _ _ | .vaccrF64 _ b _ _ => [.s b, .mask]
  | .vaccw a b _ _ | .vaccwF64 a b _ _ => [.v a, .s b, .mask]
  | .vld _ a _ | .mpush a | .mpushRaw a => [.s a, .mask]
  | .vst a c _ => [.s a, .v c, .mask]
  | .vgat _ a b => [.s a, .v b, .mask]
  | .vscat a b c => [.s a, .v b, .v c, .mask]
  | .vchk a b => [.v a, .v b]
  | .tmm g x y => [.s x, .s y, .mg (4 * g), .mg (4 * g + 1), .mg (4 * g + 2)]
  | .tmmt g x y | .tlx g x y | .tla g x y | .tproj g x y => [.s x, .s y] ++ setReads g
  | .tlxT g x y | .tlaT g x y => [.s x, .s y] ++ setReads g ++ [.mg (4 * g + 7)]
  | .tlxX g x y => [.s x, .s y] ++ setReads g ++ [.mg (4 * g + 5)]
  | .tlxTx g x y => [.s x, .s y] ++ setReads g ++ [.mg (4 * g + 5), .mg (4 * g + 7)]
  | .tlplE g x y => [.s x, .s y, .mg (4 * g + 1), .mg (4 * g + 3)]
  | .tlplA g x y => [.s x, .s y, .mg (4 * g), .mg (4 * g + 3)]
  | .tlplEa g x y => [.s x, .s y, .mg (4 * g), .mg (4 * g + 1), .mg (4 * g + 3)]
  | .tldacc _ x y _ | .tstacc _ x y _ | .tstaccG _ x y _ | .tscale x y _ | .qpush _ x y => [.s x, .s y]
  | .cpy _ g x y f | .cpym _ g x y _ f | .rdx _ g x y _ f | .unstash _ g x y f => [.s x, .s y] ++ descReads g (bit f 2)
  | .stash _ g x y | .chsend _ g x y | .glean _ g x y => [.s x, .s y] ++ descReads g false
  | .sdrop _ y | .chack _ y => [.s y]
  | _ => []

/-- The registers that a form writes; a word of a link FIFO counts under its number (R83). -/
def writesOf (i : Instr) : List Dest :=
  match i with
  | .add d _ _ | .sub d _ _ | .and d _ _ | .or d _ _ | .xor d _ _ | .andn d _ _ | .shl d _ _ | .shr d _ _
  | .sar d _ _ | .ror d _ _ | .minI64 d _ _ | .minN64 d _ _ | .maxI64 d _ _ | .maxN64 d _ _ | .addsI64 d _ _
  | .addsN64 d _ _ | .subsI64 d _ _ | .subsN64 d _ _ | .mul d _ _ | .mulhI64 d _ _ | .mulhN64 d _ _ | .clz d _
  | .ctz d _ | .popc d _ | .neg d _ | .not d _ | .abs d _ | .sx8 d _ | .sx16 d _ | .sx32 d _ | .zx8 d _
  | .zx16 d _ | .zx32 d _ | .brev d _ | .bswap d _ | .divI64 d _ _ | .divN64 d _ _ | .remI64 d _ _
  | .remN64 d _ _ | .cmp d _ _ _ | .addi d _ _ | .andi d _ _ | .ori d _ _ | .xori d _ _ | .shli d _ _
  | .shri d _ _ | .sari d _ _ | .rori d _ _ | .cmpi d _ _ _ | .movi d _ | .movk d _ _ | .lea d _ _
  | .bextN64 d _ _ _ | .bextI64 d _ _ _ | .bins d _ _ _ | .crd d _ | .gget d _ _ | .ld d _ _ _ | .ldx d _
  | .ldAcq d _ _ _ _ | .amoAdd d _ _ _ _ _ | .amoAnd d _ _ _ _ _ | .amoOr d _ _ _ _ _ | .amoXor d _ _ _ _ _
  | .amoMinI d _ _ _ _ _ | .amoMaxI d _ _ _ _ _ | .amoMinN d _ _ _ _ _ | .amoMaxN d _ _ _ _ _
  | .amoSwap d _ _ _ _ _ | .amoFadd d _ _ _ _ _ | .cas d _ _ _ _ _ | .fence d _ | .ckseal d _ _ | .spawn d _ _
  | .crewJoin d _ | .crewInfo d _ | .wvpin d _ | .wvpinT d _ _ | .wvget d _ | .wvgetT d _ _ | .wvrel d _
  | .wvrelT d _ _ | .wvnewStage d _ | .arrive d _ _ | .mwaitN32 d _ _ | .mwaitN64 d _ _ | .gtrig d _ _
  | .barArrive d _ _ | .barWait d _ _ | .barTest d _ _ | .rdcnt d _ | .dormArm d _ | .dormDisarm d _
  | .dormCount d | .vext d _ _ | .vexts d _ _ | .vext64 d _ _ => [.s d]
  | .cwr _ n => [.cr n]
  | .gset _ f i => [if f = 0 then .mg i else .cg i]
  | .vfadd d _ _ | .vfsub d _ _ | .vfmul d _ _ | .vfmin d _ _ | .vfmax d _ _ | .vfsgn d _ _ | .vfma d _ _ _
  | .vfms d _ _ _ | .vnfma d _ _ _ | .vnfms d _ _ _ | .viadd d _ _ | .visub d _ _ | .vimul d _ _
  | .vimulh d _ _ | .vand d _ _ | .vor d _ _ | .vxor d _ _ | .vandn d _ _ | .vshl d _ _ | .vshr d _ _
  | .vsar d _ _ | .vimin d _ _ | .vimax d _ _ | .viadds d _ _ | .visubs d _ _ | .viabs d _ | .vineg d _
  | .vcmp d _ _ _ | .vsel d _ _ _ | .vsels d _ _ _ | .vcvt d _ _ _ | .vcvtTote d _ _ | .vcvtFrte d _ _
  | .vfabs d _ | .vfneg d _ | .vsqrt d _ | .vrcp d _ | .vrsqrt d _ | .vexp2 d _ | .vexp d _ | .vlog2 d _
  | .vtanh d _ | .vsigm d _ | .vperm d _ _ | .vperm2 d _ _ _ | .vzipl d _ _ | .vziph d _ _ | .vunze d _ _
  | .vunzo d _ _ | .vrot d _ _ | .vshd d _ _ | .vcat d _ _ _ | .vredadd d _ | .vredmin d _ | .vredmax d _
  | .vredand d _ | .vredor d _ | .vredxor d _ | .vscanadd d _ | .vscanmin d _ | .vscanmax d _ | .vscanxadd d _
  | .vscanxmin d _ | .vscanxmax d _ | .vcomp d _ | .vexpd d _ | .vm2v d | .vmovi d _ | .vmovih d _
  | .vaccr d _ _ _ | .vaccrF64 d _ _ _ | .vld d _ _ | .vgat d _ _ | .vqh d _ => [.v d]
  | .vcmpm _ _ _ | .vnzm _ | .mpush _ | .mpushRaw _ | .mpop _ | .minv => [.mask]
  | .call _ | .jrl _ => [.s 31]
  | .loop a _ => [.s a]
  | .fmtw _ | .fmtwVty _ | .fmtwMab _ _ | .fmtwRnd _ _ _ | .fmtwBlk00 | .fmtwBlk01 | .fmtwBlk10 | .fmtwBlk11 => [.fmt]
  | _ => []

/-- A scratchpad load has a fixed latency, a global one none (R75, R78). -/
def State.loadLat (s : State) (a w o : Nat) : Nat := if isAperture (s.ea a w o) then 5 else 0

/-- A gather's latency (R260). -/
def State.gatherLat (s : State) (a b : Nat) : Nat :=
  let eas := (s.vlanes b).map fun x => (s.rs a + wd (4 * x)).toNat
  4 + bankConflicts ((eas.zipIdx.filter fun p => bit s.top p.2).map fun p => bits p.1 0 40)

/-- The latency of a form's result; 0 where it waits under the interlock instead (R75, R78). -/
def State.latency (s : State) (i : Instr) : Nat :=
  match i with
  | .mul .. | .mulhI64 .. | .mulhN64 .. => 4
  | .divI64 .. | .divN64 .. | .remI64 .. | .remN64 .. => 24
  | .ld _ a _ o => s.loadLat a 13 o
  | .ldAcq _ a _ _ o => s.loadLat a 11 o
  | .amoAdd .. | .amoAnd .. | .amoOr .. | .amoXor .. | .amoMinI .. | .amoMaxI .. | .amoMinN .. | .amoMaxN .. | .amoSwap ..
  | .amoFadd .. | .cas .. | .ckseal .. | .spawn .. | .wvpin .. | .wvpinT .. | .wvget .. | .wvgetT .. | .wvrel .. | .wvrelT ..
  | .wvnewStage .. | .arrive .. | .mwaitN32 .. | .mwaitN64 .. | .gtrig .. | .barArrive .. | .barWait .. | .barTest .. => 0
  | .vfadd .. | .vfsub .. | .vfmul .. | .vfmin .. | .vfmax .. | .vfsgn .. | .vfma .. | .vfms .. | .vnfma .. | .vnfms ..
  | .vcvt .. | .vcvtTote .. | .vcvtFrte .. | .vfabs .. | .vfneg .. | .vld .. => 5
  | .viadd .. | .visub .. | .vimul .. | .vimulh .. | .vand .. | .vor .. | .vxor .. | .vandn .. | .vshl .. | .vshr .. | .vsar ..
  | .vimin .. | .vimax .. | .viadds .. | .visubs .. | .viabs .. | .vineg .. | .vsel .. | .vsels .. | .vmovi .. | .vmovih ..
  | .vqh .. => 3
  | .vcmp .. | .vcmpm .. => cmpLat s.vty
  | .vsqrt .. | .vrcp .. | .vrsqrt .. | .vexp2 .. | .vexp .. | .vlog2 .. | .vtanh .. | .vsigm .. => 9
  | .vperm .. | .vperm2 .. | .vzipl .. | .vziph .. | .vunze .. | .vunzo .. | .vrot .. | .vshd .. | .vcat .. | .vcomp .. | .vexpd ..
  | .vm2v .. | .vnzm .. | .vext .. | .vexts .. | .vext64 .. => 4
  | .vredadd .. | .vredmin .. | .vredmax .. | .vredand .. | .vredor .. | .vredxor .. | .vscanadd .. | .vscanmin .. | .vscanmax ..
  | .vscanxadd .. | .vscanxmin .. | .vscanxmax .. | .vaccr .. | .vaccrF64 .. => 7
  | .vgat _ a b => s.gatherLat a b
  | .fmtw .. | .fmtwVty .. | .fmtwMab .. | .fmtwRnd .. | .fmtwBlk00 | .fmtwBlk01 | .fmtwBlk10 | .fmtwBlk11 => 4
  | _ => 2

/-- Forms of slot SA alone (R62, R68). -/
def saOnly (i : Instr) : Bool :=
  match i with
  | .divI64 .. | .divN64 .. | .remI64 .. | .remN64 .. | .ld .. | .st .. | .ldAcq .. | .stRel .. | .amoAdd .. | .amoAnd .. | .amoOr ..
  | .amoXor .. | .amoMinI .. | .amoMaxI .. | .amoMinN .. | .amoMaxN .. | .amoSwap .. | .amoFadd .. | .cas .. | .fence .. | .fwait ..
  | .publish .. | .xformSplit .. | .xformMerge .. | .xformConv .. | .xformZero .. | .xformBpack .. | .xformBunpack ..
  | .phaseStart .. | .phaseCommitCore | .phaseCommitClu | .phaseCommitDev | .phaseCommitSys | .phaseCommitRcv | .phaseAbort
  | .ckseal .. | .spawn .. | .suspend .. | .exit | .crewJoin .. | .crewLeave | .crewInfo .. | .wvpin .. | .wvpinT .. | .wvget ..
  | .wvgetT .. | .wvrel .. | .wvrelT .. | .wvnewStage .. | .wvnewPub .. | .arrive .. | .mwaitN32 .. | .mwaitN64 .. | .gtrig ..
  | .barInit .. | .barExpect .. | .barArrive .. | .barWait .. | .barTest .. | .rbeg .. | .rcom | .dormArm .. | .dormDisarm ..
  | .dormCount .. => true
  | _ => false

/-- Forms of slot VA alone (R63, R68). -/
def vaOnly (i : Instr) : Bool :=
  match i with
  | .vext .. | .vexts .. | .vext64 .. | .vld .. | .vst .. | .vgat .. | .vscat .. => true
  | _ => false

/-- The accumulators a vacc write names (R153). -/
def accWritesOf (i : Instr) : List Nat :=
  match i with
  | .vaccw _ _ _ u => [u]
  | .vaccwF64 _ _ _ u => [u, u + 1]
  | _ => []

/-! ### Register numbers in tinfo, marks (R71, R187, R189) -/

/-- File and register as tinfo's detail gives them (R187); geometry has no file there. -/
def Dest.detail : Dest → Option Nat
  | .s k => some (4 * k)
  | .v k => some (1 + 4 * k)
  | .mask => some 2
  | .cr n => some (3 + 4 * n)
  | _ => none

/-- The key of a register's mark. -/
def Dest.markKey : Dest → Option Nat
  | .s k => if k = 0 then none else some k
  | .v k => some (4096 + k)
  | .mask => some 8192
  | .cr n => some (12288 + n)
  | .mg k => some (20480 + k)
  | .cg k => some (24576 + k)
  | _ => none

/-- A bundle's reads with the broadcast port resolved (R69). -/
def State.resolve (s : State) (l : List Dest) : List Dest :=
  l.filterMap fun d => match d with
    | .v 31 => if hdrBcv s.header then some (.s (hdrBcs s.header)) else none
    | .s 0 => none
    | d => some d

/-- The matrix word that a copy form chains (R183): the one in its descriptor. -/
def State.chainedWord (s : State) (i : Instr) : Option Instr :=
  let word (g : Nat) : Option Instr := decodeM (bits (tget 0 s.mb.cg (4 * g + 3)).toNat 32 32)
  if flagChn i then
    (match i with
      | .cpy _ g _ _ _ => word g
      | .cpym _ g _ _ _ _ => word g
      | .unstash _ g _ _ _ => word g
      | _ => none)
  else none

/-- What a slot reads: its form's registers, and those a chained word captures (R98, R183). -/
def State.slotReads (s : State) (i : Instr) : List Dest :=
  s.resolve (readsOf i ++ match s.chainedWord i with | some w => readsOf w | none => [])

/-- What a slot writes; a write to s0 counts nowhere (R83). -/
def slotWrites (i : Instr) : List Dest := (writesOf i).filter fun d => d != .s 0

/-- A slot's operands are read as it runs: a poisoned register is data error, check bits that do not match register
integrity (R71, R189). Geometry has no file in tinfo, and its detail is a free value (log entry 3). -/
def State.readMarks (s : State) (i : Instr) : State :=
  (s.slotReads i).foldl (fun s d =>
    match d.markKey with
    | some k =>
      let m := tget 0 s.mb.marks k
      let cause := if m = 1 then 0x0D else 0x0B
      if m = 0 then s
      else match d.detail with
        | some n => s.trap cause n
        | none =>
          let o := s.drawWord
          o.2.trap cause (o.1.toNat % 2 ^ 56)
    | none => s) s

/-! ### Fetch (R57, R79, R400) -/

/-- What fetching a bundle comes to. -/
inductive Fetched where
  | words (l : List Nat)
  | fault (cause detail : Nat)
  | miss (space va : Nat)
  | poisoned
  deriving DecidableEq, Repr

/-- The fetch reaches its controller: in the window of a port that is down a machine check, under a leaf with HEAT an access (R433,
R443). -/
def State.fetchAccess (s : State) (core space pc : Nat) : State :=
  match s.lookup core space pc false false true with
  | .at_ pa _ _ => (s.downAccess pa).l2Fills (s.leafOf core space pc) pa 32
  | _ => s

/-- A bundle fetched (R57); one whose bytes are poisoned is consumed data in error (R291): what tinfo tells of it no rule says, a free
value (log entry 3). -/
def State.fetch (s : State) (core space pc : Nat) : Fetched :=
  if pc % 32 ≠ 0 ∨ 2 ^ 48 ≤ pc then .fault 0x03 (pc % 2 ^ 56)
  else
    match s.lookup core space pc false false true with
    | .at_ pa key _ =>
      if !isGlobal pa then .fault 0x03 pc
      else if s.poisonedAt pa 32 then .poisoned
      else .words (Machine.split 32 8 (s.readPa key pa 32))
    | .fault c d => .fault c d
    | .miss sp va => .miss sp va

/-! ### Slots -/

/-- Words 2 and 4 when they mirror words 1 and 3 (R71). -/
def mirrored (ws : List Nat) (k : Nat) : Bool :=
  hdrChk (ws.headD 0) && (k == 2 || k == 4) && nth 0 ws (k - 1) != 0 && nth 0 ws k == nth 0 ws (k - 1)

/-- The slots that run, decoded. -/
def slotsOf (ws : List Nat) : List (Nat × Option Instr) :=
  ([1, 2, 3, 4, 5, 6, 7].filter fun k => !mirrored ws k).map fun k => (k, decodeSlot (slotMap k) (nth 0 ws k))

/-- A pair under CHK is neither mirror nor unpaired, or mirrors a form that has one slot only (R71). -/
def pairBad (ws : List Nat) (k : Nat) : Bool :=
  let a := nth 0 ws k
  let b := nth 0 ws (k + 1)
  hdrChk (ws.headD 0) && a != 0 && b != 0 &&
    (a != b || (match decodeSlot (slotMap k) a with | some i => saOnly i || vaOnly i | none => false))

/-- What the mirrored slots of a bundle write: their results' check bits come from a second unit (R71). -/
def mirrorWrites (ws : List Nat) : List Dest :=
  ([1, 3].filter fun k => mirrored ws (k + 1)).flatMap fun k =>
    match decodeSlot (slotMap k) (nth 0 ws k) with | some i => slotWrites i | none => []

/-- Whether a list repeats an entry. -/
def repeats [DecidableEq α] : List α → Bool
  | [] => false
  | x :: l => l.contains x || repeats l

/-- The queue that a slot's copy or push enters (R83, R335). -/
def State.pushesInto (s : State) (i : Instr) : Option Nat :=
  match i with
  | .qpush k _ _ => some k
  | .cpy _ g _ _ _ =>
    let d := (tget 0 s.mb.cg (4 * g + 1)).toNat
    if epKind d = 1 ∧ epQ d then some (epQn d) else none
  | _ => none

/-- SA and SB both access one link FIFO as a CHK mirror; the row of R83 for link FIFOs excepts no mirror. -/
def lfMirrored (ws : List Nat) : Bool :=
  mirrored ws 2 && (match decodeSlot (slotMap 1) (nth 0 ws 1) with
    | some i => (readsOf i ++ writesOf i).any fun d => match d with | .cr n => decide (0x050 ≤ n ∧ n < 0x058) | _ => false
    | none => false)

/-- The conditions of R83, with those of R70 and R153, that the words alone decide: the word index of the first in R83's order.
R84 gives 0 to the header; a slot at fault alone has its own index, and so has the second slot of a bad pair; a conflict
between two slots is of neither alone, and its index is 0 (DESIGN CHOICE, log entry 30). -/
def bundleBad (ws : List Nat) (is : List (Nat × Instr)) : Option Nat :=
  let h := ws.headD 0
  let wr := is.flatMap fun p => slotWrites p.2
  let lfs := (is.flatMap fun p => readsOf p.2).filter fun d => match d with | .cr n => decide (0x050 ≤ n ∧ n < 0x058) | _ => false
  let bcast := is.find? fun p => (p.1 == 3 || p.1 == 4) && (readsOf p.2).contains (.v 31)
  let vext := is.any fun p => p.1 == 3 && (match p.2 with | .vext .. | .vexts .. | .vext64 .. => true | _ => false)
  if bits h 0 12 ≠ 0 ∨ (hdrBcv h = false ∧ hdrBcs h ≠ 0) then some 0
  else if hdrBcv h = false ∧ bcast.isSome then bcast.map (·.1)
  else if hdrBcv h && vext then some 3
  else if pairBad ws 1 then some 2
  else if pairBad ws 3 then some 4
  else if repeats wr || repeats (is.flatMap fun p => accWritesOf p.2) || repeats lfs || lfMirrored ws then some 0
  else none

/-- Those of R72 and R83 that what the registers hold decides, in the cycle in which nothing holds the bundle any more (R78):
a POP or a read of a queue that is not enabled, a cwr of a queue's control word beside a push into it or a POP. -/
def State.bundleBadNow (s : State) : Option Nat :=
  let is := (slotsOf s.bun.words).filterMap fun p => p.2.map fun i => (p.1, i)
  let pop := hdrPop s.header
  let qcs := (is.flatMap fun p => slotWrites p.2).filterMap Dest.queue
  let off := is.find? fun p => match p.2 with
    | .crd _ n => decide (0x048 ≤ n ∧ n < 0x050) && !qEn (s.queue (n - 0x048))
    | .vqh _ k => !qEn (s.queue k)
    | _ => false
  if (List.range 8).any fun k => bit pop k && !qEn (s.queue k) then some 0
  else if off.isSome then off.map (·.1)
  else if qcs.any fun k => bit pop k || is.any fun p => s.pushesInto p.2 == some k then some 0
  else none

/-- What makes a slot illegal: its place, or the matrix combination of its own word or of its chained word (R84, R185). A chained
word's combination counts among step 2's conditions, so before the failures that R329 lists earlier for its copy: R84 has
an order of steps, R329 one of its own (DESIGN CHOICE, log entry 36). -/
def State.slotIllegal (s : State) (k : Nat) (i : Instr) : Option Nat :=
  let frozen := (s.core s.bun.core).seqr.frozen
  if (k = 2 ∧ saOnly i) ∨ (k = 4 ∧ vaOnly i) then some 0
  else if k = 5 ∧ mtOp i ≠ 0 then s.mtDetail (s.mtCapture i) frozen false
  else
    match s.chainedWord i with
    | some w => if mtOp w ≠ 0 then s.mtDetail (s.mtCapture w) frozen true else none
    | none => none

/-- The first slot that is illegal, in slot order, with its detail (R84 step 2). -/
def State.firstIllegal (s : State) (sl : List (Nat × Option Instr)) : Option (Nat × Nat) :=
  sl.findSome? fun p => match p.2 with
    | none => some (p.1, 0)
    | some i => (s.slotIllegal p.1 i).map fun d => (p.1, d)

/-! ### The scoreboard (R82, R124, R188) -/

/-- A landing that a read by word k finds pending; XC sees the write of a loop as landed (R124). -/
def Ctx.pendingFor (x : Ctx) (k : Nat) (d : Dest) : Bool := x.land.any fun l => l.dest == d && !(k == 7 && l.loop)

/-- The scoreboard's trap of the bundle in hand, if any: stall count before write collision, in slot order; geometry has
no file in tinfo, and its detail is a free value (log entry 3). -/
def State.scoreboard (s : State) (is : List (Nat × Instr)) : Option Trap × State :=
  let x := s.me
  let d := s.drawWord
  let mk (cause k : Nat) (r : Dest) : Option Trap × State :=
    match r.detail with
    | some n => (some ⟨cause, n, k⟩, s)
    | none => (some ⟨cause, d.1.toNat % 2 ^ 56, k⟩, d.2)
  let bcs : List (Nat × Dest) := if hdrBcv s.header && hdrBcs s.header != 0 then [(0, .s (hdrBcs s.header))] else []
  let rs := bcs ++ is.flatMap fun p => (match p.2 with | .loop .. => [] | i => s.slotReads i).map fun r => (p.1, r)
  let ws := is.flatMap fun p => (slotWrites p.2).map fun r => (p.1, r, s.latency p.2)
  if s.cr 0x008 = 0 then (none, s)
  else
    match rs.find? fun p => x.pendingFor p.1 p.2 with
    | some p => mk 0x11 p.1 p.2
    | none =>
      match ws.find? fun p => p.2.2 != 0 && x.land.any fun l => l.dest == p.2.1 && l.due == s.bun.t + p.2.2 with
      | some p => mk 0x12 p.1 p.2.1
      | none => (none, s)

/-! ### Interlocks before any slot runs (R72, R78) -/

/-- Destinations of loads that have not returned; a load held in the snapshot holds nothing (R191). -/
def Ctx.waitsFor (x : Ctx) (d : Dest) : Bool := x.loads.any fun l => !l.held && l.dest != 0 && d == .s l.dest

def State.interlock (s : State) (is : List (Nat × Instr)) : Option Hold :=
  let x := s.me
  let bcs : List Dest := if hdrBcv s.header then [.s (hdrBcs s.header)] else []
  if (bcs ++ is.flatMap fun p => s.slotReads p.2 ++ slotWrites p.2).any x.waitsFor then some ⟨20, 0, .none, []⟩
  else if (List.range 8).any (fun k => bit (hdrPop s.header) k && s.qHolds k) then some ⟨4, 0, .none, []⟩
  else none

/-! ### How a bundle ends -/

def State.clearBundle (s : State) : State := { s with bun := .none, pending := [] }

/-- The bundle in hand is held for translation: the core freezes, its page walks start, and the bundle is then no safe point
(R79). -/
def State.holdTranslation (s : State) (pages : List (Nat × Nat)) : State :=
  let c := s.bun.core
  let j := s.bun.ctx
  let t := s.bun.t
  let s := s.modCtx c j fun x => { x with wait := .trans, nextAt := t, noSafe := true }
  let s := s.modCore c fun k => { k with seqr := { k.seqr with frozen := true } }
  let s := pages.foldl (fun s p => ((s.joinWalk p.1 p.2 [c] []).perf c j 11 1)) s
  s.clearBundle

/-- A trap is taken, with what it removes: a failed reply from its FIFO (R352), the channel's faults (R339), the region
that gives up (R356), the event it reports (R84). -/
def State.trapBundle (s : State) (tr : Trap) : State :=
  let b := s.bun
  let s := if b.words.isEmpty then s else s.countIssue
  let s := match b.dropLf with
    | some k => s.modLf b.core k fun l => match l.inq with | [] => l | e :: r => { l with inq := r.drop e.len }
    | none => s
  let s := match b.clearCh with
    | some 8 =>
      let s := s.closeRegion
      s.modMb fun q => { q with
        cr := tset q.cr 0x00A (wd (setBits (tget 0 q.cr 0x00A).toNat 56 6 (min (rstatAtt (tget 0 q.cr 0x00A).toNat + 1) 63))) }
    | some ch => s.modMe fun x => { x with cfaults := x.cfaults.filter fun f => f.1 != ch }
    | none => s
  let s := s.modMe fun x => { x with owed := if x.owed.head? = some tr then x.owed.drop 1 else x.owed, stalled := [], noSafe := false }
  (s.takeTrap tr b.pc b.t).clearBundle

/-- The stall counter of a resource that holds the bundle, once for each bundle held (R304); the ready queue's is the
cluster's (R427). -/
def State.countStall (s : State) (n : Nat) : State :=
  if n = 0 ∨ s.me.stalled.contains n then s
  else
    let s := if n = 0x020 then s.bumpRqst (s.bun.core / 4) else s.bumpCounter s.bun.core n 1
    s.modMe fun x => { x with stalled := n :: x.stalled }

/-- The bundle is held before its issue cycle: it tries again a cycle later, or its context waits (R78, R339, R425). -/
def State.holdBundle (s : State) (h : Hold) : State :=
  let c := s.bun.core
  let j := s.bun.ctx
  let t := s.bun.t
  let s := (h.counter :: h.also).foldl State.countStall s
  let s := match h.why with
    | 20 => s.perf c j 4 1
    | 3 => s.perf c j 5 1
    | 4 => s.perf c j 5 1
    | 6 => s.perf c j 5 1
    | 7 => s.perf c j 8 1
    | _ => s
  let s := match h.park with | .bar .. => s.perf c j 16 1 | _ => s
  (s.modMe fun x => { x with nextAt := t + 1, wait := h.park }).clearBundle

/-- The newest 64 entries of each page size (R228). -/
def trimTlb (l : List Tlb) : List Tlb :=
  (l.zipIdx.filter fun p => decide (((l.take p.2).filter (·.log == p.1.log)).length < 64)).map (·.1)

/-- Faults that walks returned are used up (R228: never cached), and what the TLB kept beyond its size for the bundle goes. -/
def State.dropFaults (s : State) (c : Nat) : State :=
  let l := (s.core c).tlb
  if l.any (fun e => !bit e.leaf.toNat 0) then s.modCore c fun k => { k with tlb := trimTlb (k.tlb.filter fun e => bit e.leaf.toNat 0) }
  else if 64 < l.length then s.modCore c fun k => { k with tlb := trimTlb k.tlb }
  else s

/-- What makes the bundle in hand illegal, in the order of R84's first two steps. -/
def State.illegalTrap (s : State) : Option Trap :=
  match s.bundleBadNow with
  | some k => some ⟨0x02, 0, k⟩
  | none => (s.firstIllegal (slotsOf s.bun.words)).map fun p => ⟨0x01, p.2, p.1⟩

/-- The bundle in hand, its slots all read: held, illegal, held for translation, trapped, or committed whole (R73, R84). A held
bundle has not issued, so whether its values make it illegal is found when nothing holds it (R78). -/
def State.finishBundle (s : State) : State :=
  let c := s.bun.core
  match s.bun.hold with
  | some h => s.holdBundle h
  | none =>
    match s.illegalTrap with
    | some tr => (State.trapBundle { s with bun := { s.bun with dropLf := none, clearCh := none } } tr).dropFaults c
    | none =>
      if !s.bun.miss.isEmpty then s.holdTranslation s.bun.miss
      else
        match s.bun.trap with
        | some tr => (s.trapBundle tr).dropFaults c
        | none => (s.commitBundle.clearBundle).dropFaults c

/-! ### Issue -/

/-- Decode, checks and interlocks of a fetched bundle; its slots then run one by one (R84). -/
def State.prepare (s : State) (ws : List Nat) : State :=
  let s := { s with bun := { s.bun with words := ws, mirror := mirrorWrites ws } }
  let is := (slotsOf ws).filterMap fun p => p.2.map fun i => (p.1, i)
  match bundleBad ws is with
  | some k => s.trapBundle ⟨0x02, 0, k⟩
  | none =>
    match s.interlock is with
    | some h => s.holdBundle h
    | none =>
      let r := s.scoreboard is
      let s := r.2
      let tr := match r.1 with | some t => some t | none => s.me.owed.head?
      { s with bun := { s.bun with trap := tr }, pending := is }

/-- Whether a sequencer has anything left to do (R165, R168). -/
def State.seqBusyAt (s : State) (c : Nat) : Bool := s.seqHeld c s.clk

/-- A ready context has PRE and a higher priority than the running one (R204). -/
def Core.preemptPending (k : Core) (j : Nat) : Bool :=
  k.ctxs.any fun p => p.2.canRun && p.2.pre && decide ((k.ctx j).pri < p.2.pri)

/-- The next bundle of a context is a safe point that a pending pre-emption waits for (R81, R204). -/
def State.safeNext (s : State) (c j : Nat) : Bool :=
  let x := s.ctx c j
  (s.core c).preemptPending j && !x.pinned && !x.noSafe &&
    (match s.fetch c x.space x.pc with | .words ws => hdrSafe (ws.headD 0) | _ => false)

/-- The spin monitor parks the context instead of its next bundle (R431). -/
def State.spinDue (s : State) (c j : Nat) : Bool :=
  let x := s.ctx c j
  decide (4 ≤ x.spin.count) && tget 0 (s.bankOf c j).cr 0x009 != 0 && !x.pinned && x.wait == .none

/-- One bundle of the running context of a core, up to where its slots run. -/
def State.issue (s : State) (c j : Nat) : State :=
  let t := max s.clk (max (s.ctx c j).nextAt (s.core c).busyTill)
  let s := (((s.timeTo t).landUntil c j t).modCore c (·.accSettle t)).seqAdvance c t
  let x := s.ctx c j
  if x.wait != .none then s
  else if s.safeNext c j then
    (if x.land.isEmpty && !s.seqBusyAt c then s else s.modCtx c j fun x => { x with nextAt := t + 1 })
  else
    let s := { s with bun := { Bundle.none with core := c, ctx := j, pc := x.pc, t := t } }
    match s.fetch c x.space x.pc with
    | .words ws => (s.fetchAccess c x.space x.pc).prepare ws
    | .poisoned =>
      let d := s.drawNat
      ((d.2.fetchAccess c x.space x.pc).trapBundle ⟨0x0D, d.1 % 2 ^ 56, 0⟩).dropFaults c
    | .fault cause d => (s.trapBundle ⟨cause, d, 0⟩).dropFaults c
    | .miss sp va => s.holdTranslation [(sp, va)]

/-- Whether BUNDLE_ISSUE can take place on a core. -/
def State.canIssue (s : State) (c : Nat) : Bool :=
  s.bun.words.isEmpty &&
    match (s.core c).running with
    | none => false
    | some j => (s.ctx c j).wait == .none && !s.spinDue c j

/-- BUNDLE_ISSUE c (R73, R77, R84): fetch, decode, checks, interlocks; then the bundle's slots wait to run. -/
def execBundleIssue (s : State) : Answer :=
  let c := s.op 0
  .next (match (s.core c).running with
    | some j => if s.canIssue c then s.issue c j else s
    | none => s)

/-- BUNDLE_COMMIT c (R73): the bundle whose slots have run ends. -/
def execBundleCommit (s : State) : Answer :=
  .next (if s.bun.words.isEmpty || !s.pending.isEmpty || s.bun.core != s.op 0 then s else s.finishBundle)

/-- RESULT_LANDING c err (R75, R76): the next results of the running context land at their cycle; bit i of err says that the two
units of a mirrored operation disagree in the i-th of them (R71). -/
def execResultLanding (s : State) : Answer :=
  let c := s.op 0
  .next (match (s.core c).running with
    | none => s
    | some j =>
      let x := s.ctx c j
      match x.land with
      | [] => s
      | l :: _ =>
        if x.wait = .trans then s
        else
          let wrong := ((x.land.filter fun r => decide (r.due ≤ l.due)).zipIdx.filter fun r => bit (s.op 1) r.2 && r.1.mirror).filterMap
            fun r => r.1.dest.markKey
          ((s.timeTo l.due).landUntil c j l.due).modBank c j fun b => { b with marks := wrong.foldl (fun m k => setMark m k 2) b.marks })

end Sys2Proof.Machine
end

