-- ==== Sys2Proof/Machine/EvCore.lean ====
section
/-! DEFINITION. Contexts and their slots, banks and strands (R16, R17, R23 to R25, R90, R103, R104, R168, R197 to R209,
R228, R247, R252, R264 to R266, R314, R333, R378 to R381, R384, R431, R489): the events of a core. -/

namespace Sys2Proof.Machine

/-- A step taken for a context outside any bundle. -/
def State.onBehalf (s : State) (c j : Nat) (f : State → State) : State :=
  let r := f { s with bun := { Bundle.none with core := c, ctx := j, pc := (s.ctx c j).pc, t := s.clk } }
  { r with bun := s.bun }

/-! ### Save areas (R103) -/

/-- The save area of a slot. -/
def State.saveArea (s : State) (c j : Nat) : Nat := bits (s.core c).saBase.toNat 18 26 * 2 ^ 18 + 32768 * j

/-- Control registers that a save area holds as 0, and a restore leaves alone. -/
def notSaved (n : Nat) : Bool := n == 0x00C || decide (0x030 ≤ n ∧ n < 0x038)
def notRestored (n : Nat) : Bool := notSaved n || n == 0x004 || n == 0x005 || n == 0x006 || n == 0x00D

/-- The words of a table by number. -/
def tabWords (t : Tab Word) (n : Nat) : Nat := pack 64 ((List.range n).map fun k => (tget 0 t k).toNat)

/-- A save area's content: offset, bytes, value. -/
def Bank.saved (b : Bank) (cr : Nat → Word) : List (Nat × Nat × Nat) :=
  [(0x0000, 256, pack 64 ((List.range 32).map fun k => (b.sr k).toNat)), (0x0100, 8, b.fmt.toNat), (0x0108, 8, b.mask.length),
   (0x0110, 128, pack 64 (b.mask.reverse.map (·.toNat))),
   (0x0200, 512, pack 64 ((List.range 64).map fun n => if notSaved n then 0 else (cr n).toNat)),
   (0x0400, 512, tabWords b.mg 64), (0x0600, 1024, tabWords b.cg 128), (0x0A00, 64, tabWords b.qc 8),
   (0x0B00, 7936, pack 2048 ((List.range 31).map fun k => (b.vr k).toNat)), (0x4000, 16384, tabWords b.spill 2048)]

/-- A bank goes to its owner's save area; what the layout does not hold stays with the context. -/
def State.saveBank (s : State) (c j b : Nat) : State :=
  let k := (s.core c).bank b
  let cr (n : Nat) : Word := State.crRead { s with bun := { s.bun with core := c, ctx := j, t := s.clk } } n
  let s := (k.saved cr).foldl (fun s p => s.perform 0 0 0 0 (s.saveArea c j + p.1) p.2.1 p.2.2) s
  let s := s.modCtx c j fun x => { x with st := .suspendedOut, bank := none, outPresent := k.present, outMarks := k.marks }
  (s.modCore c fun k => { k with banks := tset k.banks b { k.bank b with owner := none } }).perf c j 15 1

/-- Words read back as a table. -/
def tabOf (n x : Nat) : Tab Word := (((split 64 n x).zipIdx.map fun p => (p.2, wd p.1)).filter fun p => p.2 != 0)

/-- Where the registers and spill words with a mark lie in a save area: mark, offset, bytes. -/
def savedPlaces : List (Nat × Nat × Nat) :=
  ((List.range 32).drop 1).map (fun k => (k, 8 * k, 8)) ++ (List.range 31).map (fun k => (4096 + k, 0x0B00 + 256 * k, 256)) ++
    [(8192, 0x0110, 128)] ++ (List.range 64).map (fun n => (12288 + n, 0x0200 + 8 * n, 8)) ++
    (List.range 64).map (fun k => (20480 + k, 0x0400 + 8 * k, 8)) ++ (List.range 128).map (fun k => (24576 + k, 0x0600 + 8 * k, 8)) ++
    (List.range 8).map (fun k => (12288 + 0x40 + k, 0x0A00 + 8 * k, 8)) ++
    (List.range 2048).map fun k => (16384 + k, 0x4000 + 8 * k, 8)

/-- A bank as a restore finds it: registers and spill from the save area, poisoned data marked (R189). -/
def State.restored (s : State) (c j : Nat) : Bank :=
  let x := s.ctx c j
  let base := s.saveArea c j
  let rd (o n : Nat) : Nat := s.readPa 0 (base + o) n
  let bad := if s.poisonedAt base 32768 then savedPlaces.filter fun p => s.poisonedAt (base + p.2.1) p.2.2 else []
  { owner := some j, crew := x.crew, left := 0, s := tabOf 32 (rd 0 256), fmt := wd (rd 0x0100 8)
    mask := ((split 64 (min (rd 0x0108 8) 16) (rd 0x0110 128)).map wd).reverse
    cr := (tabOf 64 (rd 0x0200 512)).filter fun p => !notRestored p.1
    mg := tabOf 64 (rd 0x0400 512), cg := tabOf 128 (rd 0x0600 1024), qc := tabOf 8 (rd 0x0A00 64)
    v := (((split 2048 31 (rd 0x0B00 7936)).zipIdx.map fun p => (p.2, BitVec.ofNat 2048 p.1)).filter fun p => p.2 != 0)
    spill := tabOf 2048 (rd 0x4000 16384), present := x.outPresent
    marks := bad.foldl (fun m p => setMark m p.1 1) x.outMarks }

/-! ### Starting a strand (R17, R90) -/

/-- What a strand finds in a bank of its own crew: each item as it was, or zero; a free choice d (log entry 3). -/
def Bank.inherited (b : Bank) (d : Nat) : Bank :=
  let keep (k : Nat) : Bool := bit d k
  { b with
    s := b.s.filter fun p => keep p.1
    v := b.v.filter fun p => keep (64 + p.1)
    mg := b.mg.filter fun p => keep (128 + p.1)
    cg := b.cg.filter fun p => keep (192 + p.1)
    qc := b.qc.filter fun p => keep (320 + p.1)
    present := b.present.filter fun p => keep (320 + p.1)
    cr := b.cr.filter fun p => keep (512 + p.1)
    spill := b.spill.filter fun p => keep (1024 + p.1)
    mask := [], fmt := fmtReset
    marks := b.marks.filter fun p => match p.1 / 4096 with
      | 0 => keep p.1
      | 1 => keep (64 + p.1 % 4096)
      | 2 => false
      | 3 => keep (if 0x40 ≤ p.1 % 4096 ∧ p.1 % 4096 < 0x48 then 320 + (p.1 % 4096 - 0x40) else 512 + p.1 % 4096)
      | 5 => keep (128 + p.1 % 4096)
      | 6 => keep (192 + p.1 % 4096)
      | _ => keep (1024 + p.1 % 4096) }

/-- The settings that a continuation record gives: arguments, qmode, scb and spin; no phase or region is open. -/
def Bank.started (b : Bank) (r : List Word) : Bank :=
  let args := r.drop 2
  let m := recModes r
  { b with
    s := (args.zipIdx).foldl (fun t p => tset t (p.2 + 1) p.1) b.s
    cr := [(0x007, wd (bits m 2 1)), (0x008, wd (bits m 1 1)), (0x009, wd (bits m 0 1)),
      (0x00A, wd (setBits (tget 0 b.cr 0x00A).toNat 63 1 0)), (0x00B, wd (setBits (tget 0 b.cr 0x00B).toNat 63 1 0))].foldl
        (fun t p => tset t p.1 p.2) b.cr
    marks := b.marks.filter fun p => !(decide (1 ≤ p.1 ∧ p.1 ≤ args.length) || p.1 == 12288 + 7 || p.1 == 12288 + 8 || p.1 == 12288 + 9) }

/-! ### The core chooses (R23, R24, R103, R104, R215) -/

/-- A context starts to run in the bank it has, so many cycles from now. -/
def State.run (s : State) (c j cost : Nat) : State :=
  let s := s.countIdle c
  let s := s.modCtx c j fun x => { x with st := .running, woken := false }
  (s.modCore c fun k => { k with busyTill := s.clk + cost, seqr := { k.seqr with frozen := (s.ctx c j).handler } }).perf c j 13 1

/-- A context takes a free bank: restored, zeroed, or as a strand of its crew left it. -/
def State.enterBank (s : State) (c j b cost : Nat) : State :=
  let x := s.ctx c j
  let old := (s.core c).bank b
  let put (s : State) (k : Bank) (cost : Nat) : State :=
    let s := s.modCore c fun q => { q with banks := tset q.banks b { k with owner := some j, crew := if x.joined then 0xFFFF else x.crew } }
    let s := s.modCore c fun q => { q with claims := tdel q.claims j }
    (s.modCtx c j fun x => { x with bank := some b, outPresent := [], outMarks := [] }).run c j cost
  if x.st = .suspendedOut then put (s.downAccess (s.saveArea c j)) (s.restored c j) (cost + 640)
  else
    let same := old.crew == x.crew && x.crew != 0xFFFF
    let d := s.drawNat
    put d.2 (((if same then old else .zero).inherited d.1).started x.record)
      (cost + if same || old.crew == neverOwned then 0 else 256)

/-- Loads that hold a claim of a context's bank: all but the one that its wait will fill. -/
def Ctx.claimLoads (x : Ctx) : Bool :=
  match x.wait with
  | .line _ _ _ _ l => x.loads.any fun q => q.id != l
  | .seal l _ _ _ => x.loads.any fun q => q.id != l
  | .valid l _ _ _ _ _ => x.loads.any fun q => q.id != l
  | .kill _ => true
  | _ => !x.loads.isEmpty

/-- The bank whose owner left the core longest ago, of those that no context has claimed. -/
def Core.oldestBank (k : Core) : Option (Nat × Nat) :=
  ((List.range 4).filterMap fun b => if k.isClaimed b then none else (k.bank b).owner.map fun o => (b, o)).foldl (fun a p => match a with
    | none => some p
    | some q => if (k.bank p.1).left < (k.bank q.1).left then some p else a) none

/-- A context takes the bank that it claims, saved first, once its owner's loads are back; until then the claim stands, and
passes to no other bank (R24, R104). -/
def State.claim (s : State) (c j b : Nat) : State :=
  let k := s.core c
  match (k.bank b).owner with
  | none => s.enterBank c j b 4
  | some o =>
    if (k.ctx o).claimLoads then s.modCore c fun k => { k with claims := tset k.claims j b }
    else (s.saveBank c o b).enterBank c j b 644

/-- A core that runs nothing takes the best of its ready contexts. -/
def State.choose (s : State) (c : Nat) : State :=
  let k := s.core c
  if k.running.isSome then s
  else
    match k.best with
    | none => s
    | some j =>
      if (k.ctx j).bank.isSome then s.run c j 4
      else
        match k.claimed.find? fun p => p.1 == j with
        | some (_, b) => s.claim c j b
        | none =>
          match (List.range 4).find? fun b => !k.isClaimed b && (k.bank b).owner.isNone with
          | some b => s.enterBank c j b 4
          | none =>
            match k.oldestBank with
            | none => s
            | some (b, _) => s.claim c j b

/-! ### Dispatch (R16, R204, R313, R314) -/

/-- The compute die of a core (R214). -/
def dieOf (c : Nat) : Nat := c / 24

/-- Idle slots of a core. -/
def State.idleSlots (s : State) (c : Nat) : List Nat :=
  if s.dieHeld.contains (dieOf c) then [] else (List.range 8).filter fun j => (s.ctx c j).st == .free

/-- An entry passed over 64 times rises a priority, at most to 7, and its count starts again. -/
def ageEntry (e : List Word × Nat) : List Word × Nat :=
  if 64 ≤ e.2 then
    (match e.1 with
      | w0 :: w1 :: l => w0 :: wd (setBits w1.toNat 50 3 (min 7 (bits w1.toNat 50 3 + 1))) :: l
      | l => l, 0)
  else e

/-- The slot that a handler start took for an entry: of the entry's record as it was pushed, but for its priority, which age raises. -/
def State.dueSlot (s : State) (cl : Nat) (r : List Word) : Option (Nat × Nat) :=
  ((List.range 4).map (4 * cl + ·)).findSome? fun c =>
    ((s.core c).ctxs.find? fun p => p.2.due && p.2.record.take 1 == r.take 1 && p.2.record.drop 2 == r.drop 2).map fun p => (c, p.1)

/-- Where an entry can go: to its handler's slot, or to the core with the most idle slots that its affinity admits. -/
def State.seat (s : State) (cl : Nat) (r : List Word) : Option (Nat × Nat) :=
  match s.dueSlot cl r with
  | some p => some p
  | none =>
    ((((List.range 4).map (4 * cl + ·)).filter fun c => !(s.idleSlots c).isEmpty && affAdmits (recAff r) c).foldl (fun a c => match a with
      | none => some c
      | some b => if (s.idleSlots b).length < (s.idleSlots c).length then some c else a) none).map fun c => (c, (s.idleSlots c).headD 0)

/-- The entry that dispatches next, by its place in the queue, and the slot that takes it. -/
def State.nextDispatch (s : State) (cl : Nat) : Option (Nat × Nat × Nat) :=
  let es := ((s.cluster cl).queue.map ageEntry).zipIdx.filterMap fun e => (s.seat cl e.1.1).map fun p => (recPri e.1.1, e.2, p)
  (es.foldl (fun a e => match a with
    | none => some e
    | some b => if b.1 < e.1 then some e else a) none).map (·.2)

/-- The context of a record. -/
def State.ctxOf (s : State) (c : Nat) (r : List Word) : Ctx :=
  let e := s.crewOf c (recCrew r)
  { Ctx.empty with
    st := .ready, record := setRecState r 2, uid := s.nextId, age := s.nextId, crew := recCrew r, replay := e.replay
    stage := e.stage, node := e.node, tag := recTag r, pri := recPri r, pre := recPre r, kind := recKind r, space := s.crewSpace (recCrew r)
    pc := recResume r, nextAt := s.clk }

/-- One dispatch: the entry's slot starts its strand, whose taking acquires (R279, R221); the others have been passed
over, the ring refills. -/
def State.dispatchOne (s : State) (cl : Nat) : Option State :=
  (s.nextDispatch cl).map fun p =>
    let r := (nth ([], 0) (((s.cluster cl).queue).map ageEntry) p.1).1
    let (c, j) := p.2
    let x := s.ctxOf c r
    let s := { (s.modCtx c j fun y =>
      if y.due then { x with rearm := y.rearm, modes := y.modes, record := setRecState y.record 2 } else x) with nextId := s.nextId + 1 }
    let s := s.modCluster cl fun q => { q with
      queue := ((q.queue.map ageEntry).eraseIdx p.1).map fun e => (e.1, e.2 + 1) }
    (((s.refill cl 32).errorEnds).dropL1 c).choose c

/-- Free slots take what waits for them. -/
def State.dispatchAll (s : State) (cl : Nat) : Nat → State
  | 0 => s
  | n + 1 => match s.dispatchOne cl with | some s => s.dispatchAll cl n | none => s

/-- After a slot or bank of a core has come free: dispatch, then the choice (R24). -/
def State.freed (s : State) (c : Nat) : State := (s.dispatchAll (c / 4) 32).choose c

/-! ### Leaving the core (R104, R168, R378, R379) -/

/-- A context's bank is given up without a save. -/
def State.dropBank (s : State) (c j : Nat) : State :=
  match (s.ctx c j).bank with
  | some b => s.modCore c fun k => { k with banks := tset k.banks b { k.bank b with owner := none } }
  | none => s

/-- The slot becomes free. -/
def State.freeSlot (s : State) (c j : Nat) : State :=
  (((s.countIdle c).dropBank c j).modCtx c j fun _ => .empty).modCore c fun k => { k with claims := tdel k.claims j }

/-- The bank's owner leaves the core now. -/
def State.markLeft (s : State) (c j : Nat) : State :=
  let s := s.countIdle c
  let n := (s.core c).leaveSeq + 1
  (s.modBank c j fun b => { b with left := n }).modCore c fun k => { k with leaveSeq := n }

/-- Copies that a strand issued and that are not complete. -/
def State.copiesOf (s : State) (uid : Nat) : Bool := s.copies.any fun p => p.2.uid == uid && p.2.reply.isNone

/-- suspend takes effect: its record (R378). -/
def State.suspendRecord (s : State) (c j ps pri aff resume : Nat) : List Word :=
  let x := s.ctx c j
  let b := s.bankOf c j
  mkRecord x.crew resume 1 x.tag (match aff with | 0 => 0xFFFF | 1 => c | _ => recAff x.record) x.kind
    (if ps = 1 then pri else x.pri) x.pre b.modes ((List.range 6).map fun k => b.sr (k + 1))

/-- Whether a slot goes back to its dormant state: armed again, and its crew still there (R381). -/
def State.rearms (s : State) (c j : Nat) : Bool :=
  let x := s.ctx c j
  let e := s.crewOf c (recCrew x.record)
  x.rearm && e.live && e.gen == bits (recCrew x.record) 6 5

/-- A dormant slot with the fields that its started record carried. -/
def State.dormantAgain (s : State) (c j : Nat) : State :=
  let x := s.ctx c j
  let crew := recCrew x.record
  let e := s.crewOf c crew
  { (((s.countIdle c).dropBank c j).modCtx c j fun _ => { Ctx.empty with
      st := .dormant, crew := crew, tag := recTag x.record, stage := e.stage, node := e.node, replay := e.replay, space := s.crewSpace crew
      pri := recPri x.record, rearm := true, modes := recModes x.record, age := s.nextId }) with nextId := s.nextId + 1 }

/-- The strand ends (R379). -/
def State.endStrand (s : State) (c j : Nat) : State :=
  let x := s.ctx c j
  let s := x.cfaults.foldl (fun s f => s.countFault c x.crew x.replay f.2.1) s
  let s := s.closePhase c j
  let s := if x.handler then s.modCore c fun k => { k with seqr := .idle } else s
  let s := if s.rearms c j then s.dormantAgain c j else s.freeSlot c j
  (s.dropMember x.crew false).freed c

/-- Whether a wait takes its context off the core. -/
def Wait.leaves : Wait → Bool
  | .line .. | .bar .. | .fence .. | .seal .. | .valid .. | .drain .. | .yield | .suspend .. | .exit => true
  | _ => false

/-- Whether a context can leave its core now. -/
def State.canLeave (s : State) (c j : Nat) : Bool :=
  let x := s.ctx c j
  let ending := match x.wait with | .exit => true | .suspend .. => true | _ => false
  x.wait.leaves && x.land.isEmpty && x.rel.isNone && (x.handler && ending || !s.seqBusyAt c) && (ending || !x.pinned) &&
    (!ending || x.loads.all (·.held)) &&
    (x.wait != .exit || !s.copiesOf x.uid)

/-- CONTEXT_LEAVE c (R24, R104): the running context suspends, exits, yields or parks. -/
def execContextLeave (s : State) : Answer :=
  let c := s.op 0
  .next (match (s.core c).running with
    | none => s
    | some j =>
      if !s.canLeave c j then s
      else
        match (s.ctx c j).wait with
        | .exit => s.endStrand c j
        | .suspend ps pri aff pc => ((s.push (c / 4) (s.suspendRecord c j ps pri aff pc)).freeSlot c j).freed c
        | .yield => ((s.markLeft c j).modCtx c j fun x => { x with st := .ready, wait := .none }).choose c
        | _ => ((s.markLeft c j).modCtx c j fun x => { x with st := .parked }).choose c)

/-- PREEMPTION_SWITCH c (R23, R81, R204): at a safe point the core turns to the ready context of highest priority; the
other keeps its age. Where none of them can have a bank now, the core stays with it, past this bundle. -/
def execPreemptionSwitch (s : State) : Answer :=
  let c := s.op 0
  .next (match (s.core c).running with
    | none => s
    | some j =>
      let x := s.ctx c j
      if x.wait = .none ∧ s.safeNext c j ∧ x.land.isEmpty ∧ !s.seqBusyAt c then
        let s := (((s.markLeft c j).modCtx c j fun x => { x with st := .ready }).perf c j 14 1).choose c
        if (s.core c).running = some j then s.modCtx c j fun x => { x with noSafe := true } else s
      else s)

/-- DISPATCH cl (R16): an idle slot of the cluster takes its continuation. -/
def execDispatch (s : State) : Answer := .next ((s.dispatchOne (s.op 0)).getD s)

/-- READY_ENTRY_AGING cl k (R24, R314). -/
def execReadyEntryAging (s : State) : Answer :=
  .next (s.modCluster (s.op 0) fun c => { c with
    queue := c.queue.zipIdx.map fun e => if e.2 = s.op 1 then ageEntry e.1 else e.1 })

/-! ### Kills (R205, R489) -/

/-- The supervisor's request is complete. -/
def State.killDone (s : State) (c j : Nat) : State :=
  if !bit s.killSt.toNat 63 && bits s.killSt.toNat 0 10 == 8 * c + j then
    { (s.raise 3) with killSt := wd (setBits s.killSt.toNat 63 1 1) }
  else s

/-- Stores and atomics of a killed strand that wait here for this device's own windows are dropped: none lands after the kill
(R206). -/
def State.dropLate (s : State) (uid : Nat) : State :=
  let mine := s.packets.filter fun p =>
    p.2.kind == 0 && p.2.dst == s.dev && p.2.src == s.dev && bits p.2.hdr 60 4 != 0 &&
      s.remotes.any fun r => r.1 == p.2.who && r.2.uid == uid
  mine.foldl (fun s p =>
    let s := (s.lfTaken p.2).dropPacket p.1
    match s.remotes.find? fun r => r.1 == p.2.who with
    | some r => s.endLf r.1 r.2 9 2 []
    | none => s) s

/-- KILL_COMPLETE c k (R205 steps 2 to 5): the context's copies are idle. -/
def execKillComplete (s : State) : Answer :=
  let c := s.op 0
  let j := s.op 1
  let x := s.ctx c j
  .next (match x.wait with
    | .kill code =>
      if s.copiesOf x.uid then s
      else
        let s := s.modCore c fun k => { k with xforms := k.xforms.filter fun f => f.uid != x.uid }
        let s := ((s.freeSlot c j).dropLate x.uid).countFault c x.crew x.replay code
        ((s.dropMember x.crew true).killDone c j).freed c
    | _ => s)

/-- A write of KILLREQ (R489). -/
def State.killRequest (s : State) (v : Nat) : State :=
  let c := bits v 3 7
  let j := bits v 0 3
  if !bit s.killSt.toNat 63 || v >>> 10 != 0 || decide (96 ≤ c) then s
  else
    let s := { s with killSt := wd v }
    match (s.ctx c j).st with
    | .free => s.killDone c j
    | .dormant => ((s.modCtx c j fun _ => .empty).killDone c j).freed c
    | _ => match (s.ctx c j).wait with | .kill _ => s | _ => s.startKill c j 0x42

/-- KILLREQ v (R489). -/
def execKillreq (s : State) : Answer := .next (s.killRequest (s.op 0))

/-! ### Phases (R200, R201) -/

/-- Steps 3 and 4: s1 to s15 from spill, the masked accumulators from their shadows. What a rollback leaves in the discarded
shadow of a mirage window R233 leaves unspecified: its bytes as they were written (DESIGN CHOICE, log entry 33). -/
def State.phaseRestore (s : State) (c j : Nat) : State :=
  let m := (s.ctx c j).phase.mask
  (s.modBank c j fun b => b.takeRegs phaseAt phaseRegs).modCore c fun k => k.accAll.copyAccs m 4 0

/-- Step 5: logged copies from number n on, while their engines have tracks; how many have been re-issued. -/
def State.phaseCopyAgain (s : State) (c j : Nat) : Nat → Nat → Nat × State
  | 0, n => (n, s)
  | f + 1, n =>
    let log := (s.ctx c j).phase.log
    match log[n]? with
    | none => (n, s)
    | some (i, g, x, y, mt) =>
      if 8 ≤ (s.tracksBusy c (copyChannel i % 2)).length then (n, s)
      else
        let s := s.onBehalf c j fun s => s.startCopy i g x y mt
        (s.modCtx c j fun q => { q with phase := { q.phase with log := log } }).phaseCopyAgain c j f (n + 1)

/-- Steps 6 and 7, or the trap of R201 at a fourth consumption. -/
def State.phaseResume (s : State) (c j : Nat) : State :=
  let x := s.ctx c j
  let s := s.modCtx c j fun x => { x with
    wait := .none, after := .none, st := if x.st = .parked then .ready else x.st, pc := x.phase.resume, nextAt := s.clk
    stalled := [], noSafe := false, spin := .none }
  if x.phase.retry = 3 then
    let q := (s.core c).seqr
    let r := s.onBehalf c j fun s => s.takeTrap ⟨0x16, 3, 0⟩ x.phase.resume s.clk
    -- a context that is not on its core freezes its sequencer when it comes to run
    (if x.st = .running then r else r.modCore c fun k => { k with seqr := q }).choose c
  else
    let s := s.modCtx c j fun x => { x with phase := { x.phase with retry := x.phase.retry + 1 } }
    ((s.bumpCounter c 0x028 1).pstatSync c j).choose c

/-- PHASE_REISSUE c k (R200): once the phase's tracks are idle. -/
def execPhaseReissue (s : State) : Answer :=
  let c := s.op 0
  let j := s.op 1
  let x := s.ctx c j
  .next (match x.wait with
    | .rollback n =>
      if x.bank.isNone || (n == 0 && s.phaseCopies c x.uid) then s
      else
        let s := if n = 0 then s.phaseRestore c j else s
        let r := s.phaseCopyAgain c j 16 (n - 1)
        if r.1 < x.phase.log.length then r.2.modCtx c j fun x => { x with wait := .rollback (r.1 + 1) } else r.2.phaseResume c j
    | _ => s)

/-! ### Loads (R78, R189, R191, R195, R246, R247, R250) -/

/-- An atomic that was not performed: a trap when its result would have landed, or a failure of the region; what the
spec names no value for is free (log entry 3). -/
def State.atomicFailed (s : State) (c j : Nat) : State :=
  let d := s.drawWord
  if (s.ctx c j).region.opened then d.2.regionFail c j (rstatWord 8 0 0 s.dev 0 0 + bits d.1.toNat 0 20)
  else d.2.modCtx c j fun x => { x with owed := x.owed ++ [⟨0x10, bits d.1.toNat 0 56, 0⟩] }

/-- A load's value lands. -/
def State.returnLoad (s : State) (c j : Nat) (l : Load) (w : Word) (m : Nat) : State :=
  let s := s.modCtx c j fun x => { x with loads := x.loads.filter (·.id != l.id) }
  let s := if 1 ≤ l.acquire.getD 0 then s.dropL1 c else s
  if l.failed then s.atomicFailed c j
  else
    let s := s.modBank c j fun b => b.land (.s l.dest) (.word w m)
    if m = 1 ∧ (s.ctx c j).phase.opened then s.consume c j else s

/-- GLOBAL_LOAD_RETURN c k i (R78): result i of those that the context waits for and that are there. -/
def execGlobalLoadReturn (s : State) : Answer :=
  let c := s.op 0
  let j := s.op 1
  let x := s.ctx c j
  let back := x.loads.filter fun l => l.done.isSome && !l.held
  .next (match back[s.op 2]? with
    | none => s
    | some l =>
      if x.bank.isNone then s
      else
        match l.done with
        | none => s
        | some (w, m) => (s.returnLoad c j l w m).choose c)

/-! ### Releases, fences (R26, R27, R246, R247, R252, R278, R279) -/

/-- Whether a pending release can take effect at its scope. -/
def State.releaseReady (s : State) (c j : Nat) : Bool :=
  let x := s.ctx c j
  match x.rel with
  | none => false
  | some ⟨_, .sent _⟩ => false
  | some ⟨sc, _⟩ =>
    (decide (sc < 3) || !(s.remotes.any fun p => p.2.kind == 0 && p.2.uid == x.uid && decide (p.1 < x.relAt))) &&
      (decide (sc < 4) || s.persisted x.uid)

/-- A release store or atomic performs before VA's store of its own bundle (R243): words that both reach keep VA's value. -/
def State.beforeVa (s : State) (c j : Nat) (f : State → State) : State :=
  let old := (s.ctx c j).relBefore
  let now := s.wordsNow (old.map (·.1))
  ((f (s.putWords old)).putWords now).modCtx c j fun x => { x with relBefore := [] }

/-- A matrix word that waited for a release store of its strand starts to read now (R275). -/
def State.wordsGo (s : State) (c j : Nat) : State :=
  s.modSeq c fun q =>
    let go (w : MtWord) : MtWord := if w.ctx = j then { w with behind := false } else w
    { q with
      start := if q.run.any (fun w => w.behind && w.ctx == j) then max q.start s.clk else q.start
      run := q.run.map go, wait := q.wait.map go, chained := q.chained.map go }

/-- RELEASE_PERFORMED c k (R247). -/
def execReleasePerformed (s : State) : Answer :=
  let c := s.op 0
  let j := s.op 1
  let x := s.ctx c j
  .next (if !s.releaseReady c j then s
    else
      match x.rel with
      | none => s
      | some ⟨sc, kind⟩ =>
        let s := if sc = 4 then s.coverCellar x.uid else s
        let done (s : State) : State := s.relDone c j
        match kind with
        | .store n pa va key w g =>
          (done (s.beforeVa c j fun s => s.onBehalf c j fun s => s.storeAt c x.uid n pa va key w.toNat g)).wordsGo c j
        | .rmw id =>
          match x.loads.find? (·.id == id) with
          | none => done s
          | some l =>
            match l.rmw with
            | none => done s
            | some r =>
              let perform (s : State) : State :=
                let o := s.performRmw x.uid (if isGlobal l.pa then s.leafOf c x.space l.va else 0) r l.pa l.key
                (if isGlobal l.pa then o.2.dropLine c l.pa else o.2).modCtx c j fun x => { x with
                  loads := x.loads.map fun q => if q.id = id then { q with done := some (wd o.1.1, o.1.2.1), failed := o.1.2.2 } else q }
              (done (s.beforeVa c j perform)).wordsGo c j
        | .publish hs region =>
          ((s.modCtx c j fun x => { x with rel := some ⟨sc, .sent false⟩ }).askPublish c j hs region).publishDone c j x.uid
        | .phase hs region =>
          ((s.modCtx c j fun x => { x with rel := some ⟨sc, .sent true⟩ }).askPublish c j hs region).publishDone c j x.uid
        | .sent _ => s)

/-! ### Waiting and waking (R25, R252, R339, R384, R425, R431) -/

/-- A wait is over: the context goes on, to the wait that follows it if there is one, when it has its core. -/
def State.wakeCtx (s : State) (c j : Nat) : State :=
  (s.modCtx c j fun x => { x with
    wait := x.after, after := .none, woken := false, st := if x.st = .parked then .ready else x.st, nextAt := s.clk }).choose c

/-- A monitored wait ends: mwait reads its location again. -/
def State.wakeFrom (s : State) (c j : Nat) : State :=
  match (s.ctx c j).wait with
  | .line pa _ n key l =>
    let s := if l = 0 then s
      else ((s.dropLine c pa).downAccess pa).modCtx c j fun x => { x with loads := x.loads.map fun q =>
        if q.id = l then { q with done := some (wd (s.readPa key pa n), b2n (s.poisonedAt pa n)) } else q }
    s.wakeCtx c j
  | _ => s.wakeCtx c j

/-- Whether what a context waits for has come about. -/
def State.wakeDue (s : State) (c j : Nat) : Bool :=
  let x := s.ctx c j
  match x.wait with
  | .line .. => x.woken
  | .bar .. => x.woken
  | .drain ch _ => !(s.copies.any fun p => p.2.core == c && p.2.ch == ch)
  | _ => false

/-- CONTEXT_WAKE c k (R25, R384). -/
def execContextWake (s : State) : Answer := .next (if s.wakeDue (s.op 0) (s.op 1) then s.wakeFrom (s.op 0) (s.op 1) else s)

/-- PARK_TIMEOUT c k (R25, R252): 1 ms after parking; a fence or seal that is not complete parks again. -/
def execParkTimeout (s : State) : Answer :=
  let c := s.op 0
  let j := s.op 1
  let again := s.clk + s.cyclesOf 1000
  .next (match (s.ctx c j).wait with
    | .line _ d _ _ _ => if d ≤ s.clk then s.wakeFrom c j else s
    | .bar _ d => if d ≤ s.clk then s.wakeCtx c j else s
    | .drain _ d => if d ≤ s.clk then s.wakeCtx c j else s
    | .fence t d => if d ≤ s.clk then s.modCtx c j fun x => { x with wait := .fence t again } else s
    | .seal l va n d => if d ≤ s.clk then s.modCtx c j fun x => { x with wait := .seal l va n again } else s
    | .valid l n pa key gen d => if d ≤ s.clk then s.modCtx c j fun x => { x with wait := .valid l n pa key gen again } else s
    | _ => s)

/-- SPIN_PARK c (R431): the context waits for its load's line; nothing else changes. -/
def execSpinPark (s : State) : Answer :=
  let c := s.op 0
  .next (match (s.core c).running with
    | none => s
    | some j =>
      if s.spinDue c j then
        let s := s.modCtx c j fun x => { x with
          wait := .line (x.spin.last.getD (0, 0)).1 (s.clk + s.cyclesOf 1000) 8 0 0, spin := .none }
        s.bumpCounter c 0x029 1
      else s)

/-- FWAIT_COMPLETE c k (R252). -/
def execFwaitComplete (s : State) : Answer :=
  let c := s.op 0
  let j := s.op 1
  .next (match (s.ctx c j).wait with
    | .fence tok _ => if s.fwaitReady c j tok then (s.fwaitDone c j tok).wakeCtx c j else s
    | _ => s)

/-! ### Seals (R264 to R267) -/

/-- n bytes of a seal body from a virtual address: physical start and key, where every page translates with both rights
and the cellar bit and all are contiguous. -/
def State.sealSpan (s : State) (space va n : Nat) : Option (Nat × Nat) :=
  match s.ownerPa space va true true with
  | none => none
  | some (pa, key, _) =>
    if isGlobal pa && (pieces va n).all fun p => match s.ownerPa space p true true with
      | some (q, _, e) => q == pa + (p - va) && bit e 5
      | none => false
    then some (pa, key) else none

/-- The granules that the entries of a seal list, in order; none where one is not mapped with the cellar bit. -/
def State.sealGranules (s : State) (space : Nat) (es : List (Nat × Nat)) : Option (List Nat) :=
  (es.flatMap fun e => (List.range e.2).map fun i => e.1 + 65536 * i).mapM fun va =>
    match if isAperture va || va >>> 56 != 0 then none else s.walk space va with
    | some (e, lvl, _) =>
      let pa := leafPa e lvl va
      if bit e 5 && isGlobal pa && !s.retired.contains (pa / 65536) then some (pa / 65536) else none
    | none => none

/-- The length of a sealed body with a header (R265). -/
def sealLen (h : Nat) : Nat := 64 + 16 * bits h 64 32 + 8 * bits h 96 32

/-- Whether another strand's seal is using an overlapping body: it has written it but for VALID. -/
def State.sealOverlaps (s : State) (c j pa n : Nat) : Bool :=
  s.cores.any fun p => p.2.ctxs.any fun q =>
    match q.2.wait with
    | .valid _ _ b key _ _ => (p.1 != c || q.1 != j) && decide (pa < b + sealLen (s.readPa key b 16) ∧ b < pa + n)
    | _ => false

/-- What another strand left in the granules of a body becomes durable with them. -/
def State.sealDurable (s : State) (pa n : Nat) : State :=
  (granulesOf pa n).foldl (fun s x => (s.persistGranule x).settleGranule x) s

/-- ckseal's steps 2 and 3: the body, its key and its GEN, written durably with VALID = 0, or a status; and the state after (R266). -/
def State.sealSteps (s : State) (c j va : Nat) : Except Nat (Nat × Nat × Nat) × State :=
  let sp := (s.ctx c j).space
  match s.ownerPa sp va true true with
  | none => (.error 3, s)
  | some (pa, key, leaf) =>
    if s.poisonedAt pa 64 then (.error 4, s.downAccess pa)
    else
      let h := s.readPa key pa 16
      let nent := bits h 64 32
      if nent = 0 ∨ 4096 < nent then (.error 1, s)
      else
        match s.sealSpan sp va (64 + 16 * nent) with
        | none => (.error 3, s)
        | some _ =>
          if s.poisonedAt pa (64 + 16 * nent) then (.error 4, s.downAccess pa)
          else
            let es := (List.range nent).map fun i => s.readPa key (pa + 64 + 16 * i) 16
            if es.any (fun e => bits e 0 16 != 0 || bits e 64 32 == 0 || bits e 96 32 != 0) ||
                decide (65536 < es.foldl (fun a e => a + bits e 64 32) 0) then (.error 1, s)
            else
              match s.sealGranules sp (es.map fun e => (bits e 0 64, bits e 64 32)) with
              | none => (.error 2, s)
              | some gs =>
                let len := 64 + 16 * nent + 8 * gs.length
                match s.sealSpan sp va len with
                | none => (.error 3, s)
                | some _ =>
                  if gs.any fun g => decide (pa < 65536 * (g + 1) ∧ 65536 * g < pa + len) then (.error 3, s)
                  else if gs.any fun g => tget 0 s.versions g % 2 = 1 then (.error 5, s.endTorn gs)
                  else if s.sealOverlaps c j pa len then (.error 6, s)
                  else
                      let recs := gs.flatMap fun g => toBytes 8 (tget 0 s.versions g * 2 ^ 32 + g)
                      let head := toBytes 12 h ++ toBytes 4 gs.length
                      let crc := crc32c (head ++ s.readList key (pa + 64) (16 * nent) ++ recs)
                      let gen := bits h 0 32
                      let s := s.writeList key (pa + 64 + 16 * nent) recs
                      let s := (s.writeList key pa (head ++ toBytes 4 crc ++ List.replicate 36 0 ++ toBytes 8 0)).setForm pa len (bits leaf 6 1)
                      (.ok (pa, key, gen), (s.wakeWriters pa len).sealDurable pa len)

/-- Step 4: VALID durably, and the recovery-point register with it. -/
def State.sealValid (s : State) (n pa key gen : Nat) : State :=
  let step := s.readPa key (pa + 4) 4
  let s := ((s.writePa key (pa + 56) 8 (0x5EA1 * 2 ^ 48 + gen)).wakeWriters (pa + 56) 8).sealDurable (pa + 56) 8
  { s with rpt := tset s.rpt n (2 ^ 127 + pa % 2 ^ 56 * 2 ^ 64 + gen * 2 ^ 32 + step) }

/-- CKSEAL_COMPLETE c k (R266): the release of step 1, with steps 2 and 3; then step 4, in a durable event of its own. -/
def execCksealComplete (s : State) : Answer :=
  let c := s.op 0
  let j := s.op 1
  .next (match (s.ctx c j).wait with
    | .seal l va n d =>
      let tok := wd (4 * 2 ^ 61 + 2 ^ 48 - 1)
      if s.fwaitReady c j tok then
        match (s.fwaitDone c j tok).sealSteps c j va with
        | (.error st, s) => (s.fillLoad c j l (wd st)).wakeCtx c j
        | (.ok (pa, key, gen), s) => s.modCtx c j fun x => { x with wait := .valid l n pa key gen d }
      else s
    | .valid l n pa key gen _ => ((s.sealValid n pa key gen).fillLoad c j l 0).wakeCtx c j
    | _ => s)

/-! ### Handler starts (R203, R333, R381) -/

/-- The oldest dormant slot of a core armed for a crew that no start has taken. -/
def State.armedSlot (s : State) (c crew : Nat) : Option Nat :=
  (((s.core c).ctxs.filter fun p => p.2.st == .dormant && !p.2.due && p.2.crew == crew).foldl (fun a p => match a with
    | none => some p
    | some q => if p.2.age < q.2.age then some p else a) none).map (·.1)

/-- HANDLER_START k: start k of those that wait, the first for its core and crew: it takes an armed slot and is pushed on the
cluster's ready queue, when there is room; the slot becomes ready as its entry dispatches (R313, R333, R381; how the push of
R313 and the slot of R381 go together is DEDUCED, log entry 36). Its KIND is a free value (log entry 3), and s3 to s6 start as 0
(DESIGN CHOICE, log entry 37). -/
def execHandlerStart (s : State) : Answer :=
  let k := s.op 0
  .next (match s.starts[k]? with
    | none => s
    | some h =>
      let q := s.cluster (h.core / 4)
      if (s.starts.take k).any (fun g => g.core == h.core && g.crew == h.crew) || (s.crewOf h.core h.crew).memb == 65535 ||
          decide (q.free ≤ s.reservedRoom (h.core / 4)) then s
      else
        match s.armedSlot h.core h.crew with
        | none => s
        | some j =>
          let d := s.drawNat
          let x := s.ctx h.core j
          let r := mkRecord h.crew h.addr 1 x.tag h.core (d.1 % 4) x.pri false x.modes [h.arg1, h.arg2, 0, 0, 0, 0]
          let s := { d.2 with starts := s.starts.eraseIdx k }
          let s := (s.modCtx h.core j fun x => { x with due := true, record := r }).addMember h.crew
          s.push (h.core / 4) r)

/-! ### Translations return (R79, R228) -/

/-- An entry goes into a TLB. What a held bundle waits for is kept until the bundle has issued, however many pages it touches (R79):
the 64 entries of a page size are counted as it ends (State.dropFaults). -/
def tlbAdd (l : List Tlb) (e : Tlb) : List Tlb :=
  e :: l.filter fun x => !(x.space == e.space && x.page == e.page && x.log == e.log)

/-- What a core's or a copy's walk finds: the cluster TLB's entry, or the table walk's, which the cluster TLB keeps. -/
def State.fetchLeaf (s : State) (c : Nat) (w : Walk) : Tlb × State :=
  let cl := c / 4
  match tlbFind (s.cluster cl).tlb w.space w.va with
  | some e => (e, s)
  | none =>
    match s.walk w.space w.va with
    | none => (⟨w.space, w.va >>> 16, 16, 0⟩, s)
    | some (e, lvl, _) =>
      let t : Tlb := ⟨w.space, w.va >>> pageLog lvl, pageLog lvl, wd e⟩
      (t, s.modCluster cl fun q => { q with tlb := (t :: q.tlb).take 1024 })

/-- Every translation that a core's held bundle waits for has returned: it issues again, all else shifted (R79). -/
def State.releaseHold (s : State) (c : Nat) : State :=
  match (s.core c).running with
  | none => s
  | some j =>
    let x := s.ctx c j
    if x.wait != .trans || s.walks.any (fun p => p.2.cores.contains c) then s
    else
      let delta := s.clk - x.nextAt
      let s := s.modCtx c j fun x => { x with wait := .none, nextAt := x.nextAt + delta, land := (x.land.map (·.shift delta)).foldl (fun l r => insertLanding r l) [] }
      if x.handler then s else s.modCore c fun k => { k with seqr := { k.seqr with frozen := false, start := k.seqr.start + delta } }

/-- A copy receives what its walk found: a translation that it holds, or the news of a fault (R228, R229). -/
def State.copyLearns (s : State) (k : Nat) (w : Walk) : State :=
  match s.copies.find? fun p => p.1 == k with
  | none => s
  | some (_, c) =>
    let r := s.fetchLeaf c.core w
    { r.2 with copies := tset r.2.copies k (if bit r.1.leaf.toNat 0 then { c with held := (c.row, r.1) :: c.held }
        else { c with noLeaf := some (w.space, w.va >>> 16) }) }

/-- WALK_COMPLETE k (R228): of the 64 walks that the walker does at a time, walk k ends; every requester that joined it
receives the result. -/
def execWalkComplete (s : State) : Answer :=
  let k := s.op 0
  .next (match (s.walks.take 64).find? fun p => p.1 == k with
    | none => s
    | some (_, w) =>
      let s := State.walkAccess { s with walks := tdel s.walks k } w.space w.va
      -- every core that waited for this walk missed in its cluster's TLB; a copy's miss counted as it asked (R430)
      let missed := w.cores.filter fun c => (tlbFind (s.cluster (c / 4)).tlb w.space w.va).isNone
      let s := missed.foldl (fun s c => match (s.core c).running with | some j => s.perf c j 12 1 | none => s) s
      let s := w.cores.foldl (fun s c =>
        let r := s.fetchLeaf c w
        r.2.modCore c fun q => { q with tlb := tlbAdd q.tlb r.1 }) s
      (w.copies.foldl (fun s k => s.copyLearns k w) s) |> w.cores.foldl State.releaseHold)

end Sys2Proof.Machine
end

