-- ==== Sys2Proof/Machine/EvMem.lean ====
section
/-! DEFINITION. What memories and engines near a core do by themselves: the sequencer (R165 to R169, R184), transform
commands (R220, R255 to R258), write-backs and durability (R222 to R225, R289 to R291), errors and retirement (R211,
R413, R436, R443), heat and migration (R230, R432 to R435), invalidations (R231), the L1 split (R216). -/

namespace Sys2Proof.Machine

/-! ### The matrix sequencer -/

/-- MT_WORD_START c (R165): the waiting word starts. -/
def execMtWordStart (s : State) : Answer :=
  let c := s.op 0
  .next (if (s.core c).seqr.frozen then s else s.modSeq c Sequencer.begin)

/-- SEQUENCER_STEP c err (R167, R169): err 1, the step meets an uncorrectable error; err 2, one arises in accumulator
element e meanwhile (R211). -/
def execSequencerStep (s : State) : Answer :=
  let c := s.op 0
  let busy := (s.core c).seqr.run.isSome && !(s.core c).seqr.frozen
  let s := if s.op 1 = 1 ∧ busy then s.bumpCounter c 0x041 1 else s
  let s := s.seqStep c (s.op 1 == 1)
  .next (if s.op 1 = 2 ∧ s.op 2 < 131072 then
    (s.bumpCounter c 0x041 1).modCore c fun k => { k with accPoison := k.accPoison.insert (s.op 2) } else s)

/-- MT_WORD_COMPLETE c (R166): the running word, its steps done, completes at its cycle. -/
def execMtWordComplete (s : State) : Answer :=
  let c := s.op 0
  let q := (s.core c).seqr
  .next (match q.run with
    | none => s
    | some w =>
      if q.frozen ∨ q.step < mtSteps w ∨ s.clk < q.start + mtCycles w then s
      else
        let s := s.seqDone c
        let done := (s.core c).seqr.start
        s.modSeq c fun q => let q := q.begin; q.takeChained done (s.relWrites c))

/-- CHAINED_WORD_ACCEPT c (R184). -/
def execChainedWordAccept (s : State) : Answer :=
  let c := s.op 0
  .next (if (s.core c).seqr.frozen then s else s.modSeq c fun q => q.takeChained s.clk (s.relWrites c))

/-! ### Transform commands -/

/-- XFORM_COMPLETE c k (R220): command k of the core completes at every bank, after those that arrived before it. -/
def execXformComplete (s : State) : Answer :=
  let c := s.op 0
  .next (match (s.core c).xforms.find? fun x => x.id == s.op 1 with
    | none => s
    | some x => ((s.core c).xforms.takeWhile (fun y => y.id != x.id) ++ [x]).foldl (fun s y => s.xformPerform c y) s)

/-! ### Errors (R211, R436) -/

/-- An error count: unit 0 to 7 an HBM stack, 8 to 11 an L2 slice, 12 and 13 a CXL port, 14 scheduler memory. -/
def State.countError (s : State) (unit : Nat) (uncorrected : Bool) : State :=
  { s with errCnt := tmod 0 s.errCnt (2 * unit + b2n uncorrected) (· + 1) }

/-- An uncorrectable error in register or spill word i of bank b of a core: a spill word is poisoned, a register's check bits
do not match (R71, R189). -/
def State.bankError (s : State) (c b i : Nat) : State :=
  s.modCore c fun k => { k with banks := tset k.banks b { k.bank b with marks := setMark (k.bank b).marks i (if 16384 ≤ i then 1 else 2) } }

/-- One in block i of a side of a core's projection store (R169, R212). -/
def State.projError (s : State) (c side i : Nat) : State :=
  s.modCore c fun k => { k with
    projData := tset k.projData side ((tget [] k.projData side).zipIdx.map fun p => if p.2 = i ∧ p.1 < 2 ^ 512 then p.1 + 2 ^ 512 else p.1) }

/-- One in granule g of the data of Granary entry i, resident or hidden (R395); stored data lies in memory. -/
def State.granError (s : State) (i g : Nat) : State :=
  let mark (from_ : Nat) (l : List Nat) : List Nat :=
    l.zipIdx.map fun p => if from_ ≤ p.2 ∧ (p.2 - from_) / 64 = g ∧ p.1 < 256 then p.1 + 256 else p.1
  { s with
    resident := if thas s.resident i then tset s.resident i (mark 0 (tget [] s.resident i)) else s.resident
    hidden := if thas s.hidden i then tset s.hidden i (mark 1 (tget [] s.hidden i)) else s.hidden }

/-- An entry of the retirement table: bit 31 valid, bits 22:0 the granule. A copy of the table, and whether its CRC holds (R412);
the sequence number comes first among the copy's bytes, in four of them (DESIGN CHOICE, log entry 37). -/
def retiredEntry (g : Nat) : Nat := 2 ^ 31 + g % 2 ^ 23
def flashBytes (seq : Nat) (l : List Nat) : List Nat := toBytes 4 seq ++ l.flatMap (toBytes 4)
def Flash.made (seq : Nat) (l : List Nat) : Flash := ⟨seq, l, crc32c (flashBytes seq l)⟩
def Flash.good (f : Flash) : Bool := f.crc == crc32c (flashBytes f.seq f.entries)

/-- An HBM granule enters the retirement table (R412, R413); of a cellar page, which the event tells or a write that was made there,
its V(G) is odd from then on. Firmware writes the
copy with the older sequence number. It is a machine-check event (R436, R437). -/
def State.retire (s : State) (g pa : Nat) (asked : Bool) : State :=
  let s := s.machineCheck 4 pa
  let cel := asked || thas s.versions g || s.cellarLines.any fun x => x / 1024 == g
  let l := s.retired ++ [g]
  let last := (s.flash.map (·.seq)).foldl max 0
  let v := tget 0 s.versions g
  let s := if cel then s.tornCellar (1024 * g) else s
  { s with
    retired := l, retCnt := l.length, flash := (s.flash.filter fun f => f.seq == last) ++ [Flash.made (last + 1) (l.map retiredEntry)]
    versions := if cel ∧ v % 2 = 0 then tset s.versions g (v + 1) else s.versions }

/-- Whether the table has room for another granule. -/
def State.canRetire (s : State) : Bool := decide (s.retired.length < 16384)

/-- An uncorrectable error in memory behind L2: the granule is poisoned there, whatever a dirty line of L2 holds of it. -/
def State.poisonBehind (s : State) (pa : Nat) : State :=
  let line := pa / 128
  let old := tget [] s.l2 line
  if isGlobal pa && thas s.l2 line then
    { s with l2 := tset s.l2 line (old.zipIdx.map fun p => if p.2 = 130 + pa / 64 % 2 then 1 else p.1) }
  else s.poisonRange pa 1

/-- Firmware retires an HBM granule at its first uncorrectable error; in a full table each error is a machine check (R413). -/
def State.failGranule (s : State) (pa : Nat) (cel : Bool) : State :=
  if !isHbm pa then s else if s.canRetire then s.retire (pa / 65536) pa cel else s.machineCheck 4 pa

/-- PATROL_SCRUB a kind (R211, R223): kind 0 finds nothing, 1 a corrected error, 2 an uncorrectable error at address a
(of any memory that can be poisoned; operand 2 is 1 in a cellar page); 3 says that the next atomic there will not complete its
write (R207). An uncorrectable error of kind 4 is in bank b, item i of core a (operands 2 and 3); of kind 5 in side b, block i of
its projection store; of kind 6 in granule b of Granary entry a, in the L2 that holds it; of kind 8 in the L2 line of address a; of kind 10 in word a of
the heat table. Corrected errors of kind 7 are in the L2 line of address a, of kind 9 in registers, spill memory, accumulators or
projection store of core a. A core's memories count in errcor and errunc. -/
def execPatrolScrub (s : State) : Answer :=
  let pa := s.op 0
  let count (s : State) (un : Bool) : State :=
    if isPad pa then s.bumpCounter (padCore pa) (if un then 0x041 else 0x040) 1 else s.countError (memoryUnit pa) un
  .next (match s.op 1 with
    | 4 => (s.bankError pa (s.op 2) (s.op 3)).bumpCounter pa 0x041 1
    | 5 => (s.projError pa (s.op 2) (s.op 3)).bumpCounter pa 0x041 1
    | 6 => (s.granError pa (s.op 2)).countError (8 + s.op 2 % 4) true
    | 7 => s.countError (8 + homeDie pa) false
    | 8 =>
      let s := (s.dirtyLine (pa / 128)).poisonRange (pa / 128 * 128) 128
      State.countError { s with l2 := tmod [] s.l2 (pa / 128) fun l => l.take 132 ++ [nth 0 l 132 % 8 + 8] } (8 + homeDie pa) true
    | 9 => s.bumpCounter pa 0x040 1
    | 10 => { s with heatPoison := s.heatPoison.insert pa }
    | _ =>
    if isHbm pa && s.retired.contains (pa / 65536) then s
    else match s.op 1 with
    | 1 => count s false
    | 2 => ((count s true).poisonBehind pa).failGranule pa (s.op 2 == 1)
    | 3 => { s with writeFails := s.writeFails.insert (pa / 64) }
    | _ => s)

/-- CELLAR_PERSIST a (R224, R225): the granule of address a reaches its persistence point. -/
def execCellarPersist (s : State) : Answer := .next (s.persistGranule (s.op 0 / 64))

/-- L2_EVICTION a err (R222, R291): the dirty line of address a is written back, poisoned where its error is uncorrectable
(err 1); a cellar page's line then tears both its granules for the checkpoint being written. -/
def execL2Eviction (s : State) : Answer :=
  let pa := s.op 0
  let line := pa / 128
  .next (if !thas s.l2 line then s
    else if s.op 1 ≠ 1 then s.evictLine line
    else
      let torn := if [2 * line, 2 * line + 1].any s.cellarLines.contains then [2 * line, 2 * line + 1] else []
      let s := (((s.poisonRange (128 * line) 128).machineCheck 1 (128 * line)).countError (8 + homeDie pa) true).evictLine line
      torn.foldl State.tornCellar s)

/-- CXL_PORT_DOWN p (R443): an enumerated port goes down, until device reset; the capability list tells it in reduced service
(R415, R416). -/
def execCxlPortDown (s : State) : Answer :=
  let p := s.op 0
  let x := tget .absent s.cxl p
  .next (if x.size = 0 ∨ x.down then s else { (s.raise 4) with
      cxl := tset s.cxl p { x with down := true }, capGen := if s.stage < 5 then s.capGen + 1 else s.capGen })

/-! ### Retirement (R412, R413) -/

/-- GRANULE_RETIRE g cel (R413): at the supervisor's request HBM granule g; cel 1 says that it is of a cellar page. In a full
table it is not retired. -/
def execGranuleRetire (s : State) : Answer :=
  let g := s.op 0
  .next (if hbmTop / 65536 ≤ g ∨ s.retired.contains g ∨ !s.canRetire then s else s.retire g (65536 * g) (s.op 1 == 1))

/-! ### Heat (R432, R433) -/

/-- MEMORY_CONTROLLER_ACCESS space va (R433, R443): a controller serves an access under the leaf of a virtual address that no
other event makes: of a fetch. -/
def execMemoryControllerAccess (s : State) : Answer :=
  .next (match s.walk (s.op 0 % 16) (s.op 1) with
    | none => s
    | some (e, lvl, _) =>
      let pa := leafPa e lvl (s.op 1)
      (s.downAccess pa).heatUp e pa)

/-- HEAT_DECAY (R433): the interval has passed; the halving follows every increment of its cycle. -/
def execHeatDecay (s : State) : Answer :=
  .next (if !heatEn s.heatCtl.toNat || decide (s.ns < s.decayAt) then s else { s with heatDue := true })

/-! ### Invalidation (R231) -/

/-- Whether a page that a copy holds is one that the row which holds it writes. -/
def Copy.writesPage (c : Copy) (row : Nat) (e : Tlb) : Bool :=
  c.dsts.any fun d => match d with
    | .virt space va =>
      let a := va + row * c.dstr
      e.space == space && decide (a >>> e.log ≤ e.page ∧ e.page ≤ (a + c.len - 1) >>> e.log)
    | _ => false

/-- Whether an access of a context, a word of the sequencer or a copy's segment still holds a translation of a range of a
space; of the copies, only those that write there where reads may go on. -/
def State.holdsTranslation (s : State) (reads : Bool) (hit : Nat → Nat → Nat → Bool) : Bool :=
  (s.cores.any fun p =>
    (p.2.ctxs.any fun q =>
      let sp := q.2.space
      (match q.2.rel with
        | some ⟨_, .store _ pa va _ _ true⟩ => hit sp va pa
        | _ => false) || q.2.loads.any fun l => l.done.isNone && isGlobal l.pa && hit sp l.va l.pa) ||
    (p.2.seqr.run.toList ++ p.2.seqr.wait.toList ++ p.2.seqr.chained).any fun w =>
      w.rows.any fun r => hit (p.2.ctx w.ctx).space (65536 * r.1) r.2.1) ||
    s.copies.any fun p => p.2.held.any fun e =>
      (reads || p.2.writesPage e.1 e.2) && hit e.2.space (e.2.page <<< e.2.log) (bits e.2.leaf.toNat 16 28 * 65536)

/-- TLB_INVALIDATE space va all (R231): of one page, or of a whole table. -/
def execTlbInvalidate (s : State) : Answer :=
  .next { s with invals := s.invals ++ [(s.op 0 % 16, s.op 1, s.op 2 == 1)] }

/-- INVALIDATION_COMPLETE (R231): every TLB has dropped the entries, and every access that used them has performed; of a
page, whatever its size, every access within 4 GiB of it. -/
def execInvalidationComplete (s : State) : Answer :=
  .next (match s.invals with
    | [] => s
    | (sp, va, all) :: rest =>
      let drop (l : List Tlb) : List Tlb := l.filter fun e => !(e.space == sp && (all || e.page == va >>> e.log))
      let s := { s with
        cores := s.cores.map fun p => (p.1, { p.2 with tlb := drop p.2.tlb })
        clusters := s.clusters.map fun p => (p.1, { p.2 with tlb := drop p.2.tlb }) }
      if s.holdsTranslation true fun a v _ => a == sp && (all || v >>> 32 == va >>> 32) then s else { s with invals := rest })

/-! ### Migration (R230, R434, R435) -/

/-- The status of a command. -/
def State.moveStatus (s : State) (cmd st : Nat) : State := (s.perform 0 0 0 0 (cmd + 16) 4 st).raise 1

/-- Whether a command can move its page: a valid leaf of 64 KiB or 2 MiB, not a cellar page, to the other tier, with no retired granule
(R413). -/
def State.moveGood (s : State) (e dst : Nat) : Bool :=
  let lvl := bits e 44 2
  let src := bits e 16 28 * 65536
  let n := 2 ^ pageLog lvl
  bit e 0 && bit e 1 && e >>> 46 == 0 && decide (lvl ≤ 1) && src % n == 0 && s.leafGood e && isGlobal src && !bit e 5 &&
    isGlobal dst && isHbm src != isHbm dst && dst % n == 0 && s.populated dst && s.populated (dst + n - 1) &&
    (List.range (n / 65536)).all fun i => !s.retired.contains (src / 65536 + i) && !s.retired.contains (dst / 65536 + i)

/-- A command whose supervisor waits enters the queue when there is room (R319). -/
def State.admitMove (s : State) : State :=
  match s.migWait with
  | a :: l => if s.migQ.length < 256 then { s with migQ := s.migQ ++ [(a, 0, 2)], migWait := l } else s
  | [] => s

/-- The engine takes the command at the head of its queue, where a track is free (R307): refused, or writes to its page are
held from here on. -/
def State.startMove (s : State) : Nat → State
  | 0 => s
  | n + 1 =>
    let s := s.admitMove
    match s.moves, s.migQ with
    | [], (cmd, _, 2) :: rest =>
      let leaf := (s.tableAt cmd 8).getD 0
      let dst := (s.tableAt (cmd + 8) 8).getD 0
      let e := (s.tableAt leaf 8).getD 0
      if !s.moveGood e dst then State.startMove { (s.moveStatus cmd 1) with migQ := rest } n
      else if s.globalFree then { (s.takeGlobal 1) with moves := [⟨cmd, leaf, wd e, dst, 2 ^ pageLog (bits e 44 2), false⟩] }
      else s
    | _, _ => s

/-- A write of MIGCMD: the command at a physical address joins the queue, or waits for room (R319, R435). -/
def State.postMove (s : State) (a : Nat) : State := State.startMove { s with migWait := s.migWait ++ [a] } 256

/-- MIGCMD a (R435): the supervisor posts the command at physical address a. -/
def execMigcmd (s : State) : Answer := .next (s.postMove (s.op 0))

/-- MIGRATION_REPORT (R434): the report at the head of the queue; a move there starts once a track is free. -/
def execMigrationReport (s : State) : Answer :=
  .next (match s.migQ with
    | (g, heat, tier) :: rest =>
      if tier = 2 then s.startMove 256
      else
        let r := s.migRing.toNat
        let tail := bits r 0 16
        let d := s.drawWord
        let e := d.2.drawWord
        let v := g % 2 ^ 32 + heat % 256 * 2 ^ 32 + tier * 2 ^ 40 + bits d.1.toNat 0 16 * 2 ^ 48 + e.1.toNat * 2 ^ 64
        let s := e.2.perform 0 0 0 0 (bits r 20 24 * 2 ^ 20 + 16 * tail) 16 v
        State.startMove { (s.raise 1) with
          migQ := rest, migRing := wd (setBits r 0 16 ((tail + 1) % 2 ^ (min (bits r 16 4) 8 + 8))) } 256
    | [] => s)

/-- A page is copied whole, each block in its form (R235), and its leaf switched; no TLB keeps the old translation. -/
def State.movePage (s : State) (m : Move) : State :=
  let e := m.old.toNat
  let src := bits e 16 28 * 65536
  let inSrc (pa : Nat) : Bool := decide (src ≤ pa ∧ pa < src + m.size)
  let key := bits e 8 8
  let forms := (List.range (m.size / 4096)).map fun i => (m.dst + 4096 * i, if s.isBale (src / 4096 + i) then 2 else 0)
  let s := s.writeMarked key m.dst (s.readMarked key src m.size)
  let s := forms.foldl (fun s f => s.setForm f.1 4096 (f.2 + 4 * bits e 7 1)) s
  let s := s.perform 0 0 0 0 m.leaf 8 (setBits e 16 28 (m.dst / 65536))
  let drop (l : List Tlb) : List Tlb := l.filter fun t => !(inSrc (bits t.leaf.toNat 16 28 * 65536) && bit t.leaf.toNat 0)
  { s with
    cores := s.cores.map fun p => (p.1, { p.2 with tlb := drop p.2.tlb })
    clusters := s.clusters.map fun p => (p.1, { p.2 with tlb := drop p.2.tlb })
    heatPoison :=
      let n := m.size / 65536
      let whole (g w : Nat) : Bool := decide (g ≤ 8 * w ∧ 8 * w + 8 ≤ g + n)
      let kept := s.heatPoison.filter fun w => !whole (m.dst / 65536) w && !whole (src / 65536) w
      let moved := (List.range n).filter fun i => s.heatPoison.contains ((src / 65536 + i) / 8)
      moved.foldl (fun l i => l.insert ((m.dst / 65536 + i) / 8)) kept
    heat := (List.range (m.size / 65536)).foldl (fun t i =>
      tdel (tset t (m.dst / 65536 + i) (tget 0 t (src / 65536 + i))) (src / 65536 + i)) s.heat }

/-- MIGRATION_MOVE_COMPLETE (R230, R231, R435): once no write under way has the old translation, the page is copied and its
leaf switched, or the leaf was rewritten meanwhile; once no access has it, the status is written. -/
def execMigrationMoveComplete (s : State) : Answer :=
  .next (match s.moves with
    | [] => s
    | m :: _ =>
      let src := bits m.old.toNat 16 28 * 65536
      let inSrc (pa : Nat) : Bool := decide (src ≤ pa ∧ pa < src + m.size)
      let finish (s : State) (st : Nat) : State :=
        State.startMove { ((s.moveStatus m.cmd st).freeGlobal 1) with moves := [], migQ := s.migQ.drop 1 } 256
      if m.switched then (if s.holdsTranslation true fun _ _ pa => inSrc pa then s else finish s 0)
      else if s.holdsTranslation false fun _ _ pa => inSrc pa then s
      else if s.tableAt m.leaf 8 ≠ some m.old.toNat then finish s 2
      else
        let s := s.movePage m
        if s.holdsTranslation true fun _ _ pa => inSrc pa then { s with moves := [{ m with switched := true }] } else finish s 0)

/-! ### The L1 split (R216) -/

/-- SPLIT_CHANGE c l1: code 0 to 3; refused while an allotment is held on the core. -/
def execSplitChange (s : State) : Answer :=
  let c := s.op 0
  let q := s.cluster (c / 4)
  .next (if 4 ≤ s.op 1 || q.crews.any (fun p => p.2.live) || !q.waiting.isEmpty then s
    else
      let inside (a : Nat) : Bool := decide (padBase c ≤ a ∧ a < padBase (c + 1))
      { (s.modCore c fun k => { k with split := s.op 1, l1 := [] }) with
        mem := s.mem.filter fun p => !inside p.1
        padPoison := s.padPoison.filter fun w => !inside (4 * w) })

end Sys2Proof.Machine
end

