-- ==== Sys2Proof/Machine/EvFabric.lean ====
section
/-! DEFINITION. The events of copies, packets and engines (R184, R207, R232, R253, R306, R315 to R319, R330 to R352, R389
to R394, R406 to R411, R449, R450): segments and completions, hops and answers, the Granary and the Gleaner. -/

namespace Sys2Proof.Machine

/-! ### Copies (R330, R331, R306, R184) -/

/-- An engine served a track: its next turn begins after it (R25, R306). -/
def State.tookTurn (s : State) (y : Copy) : State :=
  if y.core < 96 ∧ !y.allRead then s.modCore y.core fun k => { k with turn := tset k.turn y.engine (y.track + 1) } else s

/-- COPY_SEGMENT c k i (R330): copy k of core c (96: a landing at this owner) reads its next segment (i 0), or its piece i - 1 in
flight performs. -/
def execCopySegment (s : State) : Answer :=
  let c := s.op 0
  .next (match s.copies.find? fun p => p.1 == s.op 1 with
    | none => s
    | some (k, y) =>
      if y.stage ≠ 2 ∨ y.core ≠ c then s
      else
        let t := if s.op 2 = 0 then (s.tookTurn y).segment k y else s.pieceWrite k y (s.op 2 - 1)
        if c < 96 then t.choose c else t)

/-- COPY_COMPLETE c k (R306, R331); a landing in cellar pages first reaches its persistence point (R269). -/
def execCopyComplete (s : State) : Answer :=
  let c := s.op 0
  .next (match s.copies.find? fun p => p.1 == s.op 1 with
    | none => s
    | some (k, y) => if y.finished ∧ y.core = c ∧ s.durableHere k y then s.completeCopy k y else s)

/-- CHAINED_WORD_PLACE c k (R184). -/
def execChainedWordPlace (s : State) : Answer :=
  let c := s.op 0
  .next (match s.copies.find? fun p => p.1 == s.op 1 with
    | none => s
    | some (k, y) => if y.core = c then s.placeChained k y else s)

/-! ### Answers -/

/-- An answer with a status reaches the remote operation that waits for it (R351). -/
def State.answer (s : State) (id : Nat) (p : Packet) : State :=
  match s.remotes.find? fun q => q.1 == id with
  | none => s
  | some (_, r) =>
    match r.kind with
    | 0 => s.endLf id r p.status p.party p.words
    | 3 => s.endPublish id r (if p.status = 0 then p.words else r.wins.map fun _ => p.status) p.party
    | _ => s.copyAnswer id r p

/-- A failure that this device finds ends a remote operation of its own (R408). -/
def State.failHere (s : State) (id : Nat) (p : Packet) : State :=
  match s.remotes.find? fun q => q.1 == id with
  | none => s
  | some (_, r) => if r.kind = 0 then s.failLf id r p.status p.party else s.answer id p

/-- What a lost packet tells its requester: status 9, fabric (R408, R444). -/
def lost (p : Packet) : Packet :=
  { Packet.blank with
    kind := 6, req := p.dst, win := p.win, status := 9, party := 2, rows := b2n (p.kind == 2 && p.hdr >= 256) }

/-- A packet that cannot go on: its requester learns of it; a lost reply leaves its requester to time out. -/
def State.losePacket (s : State) (p : Packet) : State :=
  if p.kind = 6 ∨ p.kind = 5 then s
  else if p.req = s.dev then s.failHere p.who (lost p)
  else s.send { lost p with dst := p.req, who := p.who }

/-- The reply in packet k, and whether it can be taken: words for a link FIFO in the order of their arrival, where there is
room (R318). -/
def State.replyFor (s : State) (k : Nat) (want : Remote → Packet → Bool) : Option (Packet × Bool) :=
  match s.packets.find? fun p => p.1 == k with
  | none => none
  | some (_, p) =>
    if p.kind ≠ 6 ∨ p.dst ≠ s.dev then none
    else
      match s.remotes.find? fun q => q.1 == p.who with
      | none => some (p, false)
      | some (_, r) => if r.lost then some (p, false) else if want r p then some (p, !r.replies || (s.lfRoom r && !s.lfWaiting r k)) else none

/-- A reply of the wanted sort ends its packet; one whose requester is gone, or belongs to an old binding, is dropped (R411), one
without room waits. -/
def State.takeReply (s : State) (k : Nat) (want : Remote → Packet → Bool) : Answer :=
  .next (match s.replyFor k want with
    | none => s
    | some (p, fits) =>
      if fits then (s.dropPacket k).answer p.who p
      else if s.remotes.any (fun q => q.1 == p.who && !q.2.lost) then s
      else s.dropPacket k)

/-- REMOTE_REPLY k (R351): to a load, amo or cas, or to a window read. -/
def execRemoteReply (s : State) : Answer :=
  s.takeReply (s.op 0) fun r p => (r.kind == 0 && bits r.op 60 4 != 1) || r.kind == 1 || (r.kind == 7 && p.party != 1)

/-- STORE_ACK k (R278, R351, R352). -/
def execStoreAck (s : State) : Answer := s.takeReply (s.op 0) fun r _ => r.kind == 0 && bits r.op 60 4 == 1

/-- RECIPIENT_ACK k (R286, R336, R343): of a window write, a channel send, a third-party read. -/
def execRecipientAck (s : State) : Answer :=
  s.takeReply (s.op 0) fun r p => r.kind == 2 || r.kind == 4 || (r.kind == 7 && p.party == 1)

/-- PUBLISH_STATUS_RETURN k (R254). -/
def execPublishStatusReturn (s : State) : Answer := s.takeReply (s.op 0) fun r _ => r.kind == 3

/-- Whether a reply to a request stands at this device's link (R318). -/
def State.replyHere (s : State) (id : Nat) : Bool := s.packets.any fun p => p.2.kind == 6 && p.2.dst == s.dev && p.2.who == id

/-- REMOTE_TIMEOUT k (R351, R408): 8 ms without a reply; one that waits for room is no timeout. -/
def execRemoteTimeout (s : State) : Answer :=
  .next (match s.remotes.find? fun q => q.1 == s.op 0 with
    | none => s
    | some (id, r) => if r.deadline ≤ s.ns ∧ s.replyHere id = false then s.failHere id { Packet.blank with kind := 6, status := 9, party := 2 } else s)

/-! ### Hops (R406 to R409) -/

/-- The words of a link FIFO leave in push order (R318); a release-ordered store or atomic waits for every earlier write of
its strand: stores and atomics at link FIFOs, and a pending release (R284). A copy's read of a window of this device waits for
the release store or atomic of its own bundle (R280). -/
def State.mayGo (s : State) (k : Nat) (p : Packet) : Bool :=
  if p.kind = 0 ∧ p.req = s.dev ∧ p.hops = 0 then
    !(s.packets.any fun q => q.2.kind == 0 && q.2.src == s.dev && q.2.hops == 0 && q.2.port == p.port && decide (q.1 < k)) &&
      (!bit p.hdr 55 || match s.remotes.find? fun q => q.1 == p.who with
        | none => true
        | some (id, r) =>
          !(s.remotes.any fun q => q.2.kind == 0 && q.2.uid == r.uid && decide (q.1 < id) && bits q.2.op 60 4 != 0) &&
            !(s.holds r.core r.ctx r.uid && (s.ctx r.core r.ctx).rel.isSome && decide ((s.ctx r.core r.ctx).relAt ≤ id)))
  else if (p.kind = 1 ∨ p.kind = 7) ∧ p.req = s.dev ∧ p.hops = 0 ∧ p.dst = s.dev then
    match s.remotes.find? fun q => q.1 == p.who with
    | some (_, r) => (match s.copies.find? fun q => q.1 == r.copy with | some (_, c) => !s.copyBehind c | none => true)
    | none => true
  else true

/-- The flits of a packet: one for its header, and one for each 256 bytes that it carries (DESIGN CHOICE, log entry 24). -/
def packetFlits (p : Packet) : Nat := 1 + ceilDiv (8 * p.words.length + p.data.length) 256

/-- Flits of a port that are not acknowledged. -/
def Link.unacked (l : Link) : Nat := l.flits.foldl (fun n f => n + f.2) 0

/-- A replay buffer takes a packet where its flits fit into 128; a longer packet goes through an empty one, flit after flit
(R444). -/
def Link.takes (l : Link) (p : Packet) : Bool := l.flits.isEmpty || decide (l.unacked + packetFlits p ≤ 128)

/-- The route of a packet in the table in force (R406), and whether it ends here: no route, or 16 hops. -/
def State.routeOf (s : State) (p : Packet) : Nat := if p.dst / 512 = s.dev / 512 then tget 0 s.routes p.dst else 0
def State.hopLost (s : State) (p : Packet) : Bool := !bit (s.routeOf p) 31 || decide (16 ≤ p.hops)

/-- The ports a packet can leave by: minimal ones, others while it may still take one (R407). -/
def State.hopPorts (s : State) (p : Packet) : List Nat :=
  let e := s.routeOf p
  let other := !p.nm && decide (p.hops + bits e 27 4 ≤ 14)
  (List.range 12).filter fun i => (bit e i || (other && bit e (12 + i))) && (tget .down s.links i).st == 2

/-- The port that a packet leaves by: of those it can take, the one with the most free credits, ties to the lowest (R408). -/
def State.hopPort (s : State) (p : Packet) (free : Nat → Nat) : Option Nat :=
  (s.hopPorts p).foldl (fun a i => match a with
    | none => some i
    | some b => if free b < free i then some i else a) none

/-- PACKET_HOP k free…: packet k leaves by the port with the most credits, once its replay buffer takes it (R444); operand
1 + p is what port p has free. -/
def execPacketHop (s : State) : Answer :=
  let k := s.op 0
  .next (match s.packets.find? fun p => p.1 == k with
    | none => s
    | some (_, p) =>
      if p.dst = s.dev ∨ !s.mayGo k p then s
      else
        if s.hopLost p then ((s.lfTaken p).dropPacket k).losePacket p
        else
          match s.hopPort p (fun i => s.op (1 + i)) with
          | none => s
          | some i =>
            if !(tget .down s.links i).takes p then s else
            let minimal := bit (s.routeOf p) i
            let s := (s.lfTaken p).dropPacket k
            let l := tget .down s.links i
            { s with links := tset s.links i { l with
                flits := l.flits ++ [({ p with vc := p.hops, hops := p.hops + 1, nm := p.nm || !minimal }, packetFlits p)] } })

/-- A write of RTLOAD (R409). -/
def State.loadRoutes (s : State) (v : Nat) : State := { s with rtLoad := some (bits v 17 27 * 131072) }

/-- RTLOAD v (R409). -/
def execRtload (s : State) : Answer := .next (s.loadRoutes (s.op 0))

/-- ROUTE_TABLE_SWITCH (R409): every port goes to the new table at once. -/
def execRouteTableSwitch (s : State) : Answer :=
  .next (match s.rtLoad with
    | none => s
    | some pa => { s with
        rtLoad := none
        routes := ((List.range 32768).map fun d => (d, (s.tableAt (pa + 4 * d) 4).getD 0)).filter fun p => p.2 != 0 })

/-- LINK_BINDING_WRITE c k v (R411). -/
def execLinkBindingWrite (s : State) : Answer := .next (s.rebind (s.op 0) (s.op 1 % 8) (wd (s.op 2)))

/-! ### Owners (R232, R253, R207) -/

/-- A request that writes a page being moved waits at translation (R230). -/
def State.ownerHeld (s : State) (p : Packet) : Bool :=
  p.kind == 0 && bits p.hdr 60 4 != 0 &&
    (List.range (bits p.hdr 48 4 + 1)).any fun i =>
      match s.lfPlace p i with
      | some (pa, _, _) => s.writesHeld pa
      | none => false

/-- OWNER_REQUEST k err (R232): err 1, an atomic cannot complete its write (R207). -/
def execOwnerRequest (s : State) : Answer :=
  .next (match s.packets.find? fun p => p.1 == s.op 0 with
    | none => s
    | some (k, p) =>
      if p.dst ≠ s.dev ∨ !(p.kind == 0 || p.kind == 1 || p.kind == 2 || p.kind == 7) ∨ !s.mayGo k p ∨ s.ownerHeld p then s
      else
        let s := if s.op 1 = 1 ∧ p.kind = 0 ∧ 2 ≤ bits p.hdr 60 4 then
            (match s.lfPlace p 0 with
              | some (pa, _, _) => { s with writeFails := s.writeFails.insert (pa / 64) }
              | none => s)
          else s
        (s.downAccess (s.windowPa p.win)).serve k p)

/-- PUBLISH_FLIP k (R253, R262): the owner's event for the handles of one publish, once accepted writes have landed (R233). -/
def execPublishFlip (s : State) : Answer :=
  .next (match s.packets.find? fun p => p.1 == s.op 0 with
    | none => s
    | some (k, p) => if p.dst = s.dev ∧ p.kind = 3 ∧ s.flipReady p then (s.publishAt p).dropPacket k else s)

/-! ### Tensor channels (R316, R317, R343) -/

/-- Where block i of a channel packet lands in its ring: the address in the stage's space. -/
def tcBlockAt (e : Nat) (p : Packet) (i : Nat) : Nat :=
  bits e 140 44 * 4096 + (nth 0 p.words 3 + i) % 2 ^ 32 % tcWin e * 4096

/-- The 64-byte granules of cellar pages that a channel packet's blocks reach. -/
def State.tcCellar (s : State) (e space : Nat) (p : Packet) : List Nat :=
  (List.range (nth 0 p.words 2)).flatMap fun i =>
    match s.ownerPa space (tcBlockAt e p i) false true with
    | some (pa, _, leaf) => if bit leaf 5 then granulesOf pa 4096 else []
    | none => []

/-- TC_BLOCK_LAND k: the next block of channel packet k, on behalf of the strand that sent it where that is this device's (R277);
after the last, the arrival, and the acknowledgement once what reached cellar pages is durable (R269). -/
def execTcBlockLand (s : State) : Answer :=
  .next (match s.packets.find? fun p => p.1 == s.op 0 with
    | none => s
    | some (k, p) =>
      if p.dst ≠ s.dev ∨ p.kind ≠ 4 then s
      else
        let w (i : Nat) : Nat := nth 0 p.words i
        let ch := w 0 % 256
        let s := (s.mbsRead (0x1800 + 32 * ch) 32).errorEnds
        let e := s.tch ch
        let st := bits e 217 6
        let refuse (s : State) (n : Nat) : State := (s.dropPacket k).reply p n 1 [] []
        if !tcEn e || tcPdev e != p.req || tcPch e != w 1 || !bit e 223 then refuse s 10
        else
          let space := stGraph (s.stageEntry st)
          match s.ownerPa space (tcBlockAt e p p.rows) false true with
          | none => refuse s 6
          | some (pa, key, leaf) =>
            if isPad pa then refuse s 6
            else if s.writesHeld pa then s
            else
              let l := (p.data.drop (4096 * p.rows)).take 4096
              let by_ := s.requester p
              let s := s.perform by_.1 (if by_.1 = 0 then 0 else 8 * k + by_.2) leaf key pa 4096 (pack 8 (plainBytes l))
              let s := if p.bales.contains (4096 * p.rows) then s.setForm pa 4096 2 else s
              let s := (l.zipIdx.filter fun q => decide (256 ≤ q.1)).foldl (fun s q => s.poisonRange (pa + q.2) 1) s
              if p.rows + 1 < w 2 then { s with packets := tset s.packets k { p with rows := p.rows + 1 } }
              else
                let s := s.smPut (0x1800 + 32 * ch + 4) 4 ((tcRseq e + w 2) % 2 ^ 32)
                ((s.dropPacket k).replyDurable p 1 (s.tcCellar e space p) []).arriveAt st (arrival (w 4) (w 5) (w 6) ch) none)

/-- TC_CREDIT_RETURN k (R317). -/
def execTcCreditReturn (s : State) : Answer :=
  .next (match s.packets.find? fun p => p.1 == s.op 0 with
    | none => s
    | some (k, p) =>
      if p.dst ≠ s.dev ∨ p.kind ≠ 5 then s
      else
        let ch := p.win % 256
        let s := (s.mbsRead (0x1800 + 32 * ch) 32).errorEnds
        let e := s.tch ch
        let s := s.dropPacket k
        if tcEn e && tcPdev e == p.req then s.smPut (0x1800 + 32 * ch + 8) 4 ((tcAcked e + p.len) % 2 ^ 32) else s)

/-! ### The Granary (R319, R345 to R348, R391 to R394) -/

/-- The stage instance and the default policy of the strand that issued a copy: its crew's, or what it left with. -/
def State.granStage (s : State) (c : Copy) : Nat × Nat :=
  let x := s.ctx c.core c.ctx
  let e := s.crewOf c.core c.crew
  let (st, n) := if c.crew = 0xFFFF then (x.stage, x.node) else (e.stage, e.node)
  (st, ndGpol (s.node (ghFirst (s.graph (stGraph (s.stageEntry st))) + n)))

/-- The head of the queue leaves it, and its track of the global engines is free; a request that waits for room comes in, then
prefetches (R307, R319). -/
def State.granPop (s : State) : State :=
  let k := s.granaryQ.headD 0
  (State.admitRequest { (s.freeGlobal (2 * k)) with granaryQ := s.granaryQ.drop 1 } 1).feedPrefetch

/-- The request at the head of the queue has a track of the global engines while it is served, or waits for one (R307). -/
def State.granTrack (s : State) (k : Nat) (serve : State → State) : State :=
  if s.gtracks.any fun p => p.2 == 2 * k then serve s
  else if s.globalFree then serve (s.takeGlobal (2 * k)) else s

/-- A request of copy k is served (R346 to R348); an unstash stays at the head until its data has been delivered; one that
keeps its entry ends the entry's prefetch (R393). An error in the directory ends the replay (R226). -/
def State.granServe (s : State) (k : Nat) (c : Copy) : State :=
  let s := (s.mbsRead 0x10000 131072).errorEnds
  let y := c.y.toNat
  let st := s.granStage c
  let tag := bits y 32 32
  let slot := bits y 0 4
  let put (s : State) (c : Copy) : State := { s with copies := tset s.copies k c }
  match c.mo with
  | 6 =>
    if c.stage ≠ 3 then s
    else if c.cut then s.granPop
    else
      let pol := if bits y 4 3 = 0 then st.2 else bits y 4 3 - 1
      let r := if 67108864 < c.buf.length then none else s.granStash st.1 tag slot pol c.buf
      match r with
      | some s => (put s { c with awaits := 0, buf := [] }).granPop
      | none => (put (s.noteFault c 4 0) { c with awaits := 0, buf := [], fault := some (c.fault.getD (4, 0)) }).granPop
  | 7 =>
    if c.stage = 1 then
      match s.gfind st.1 tag slot with
      | none => put s { c with stage := 2, awaits := 1, seq := 3 }
      | some (i, e) =>
        if gState e = 4 then put s { c with stage := 2, awaits := 1, seq := 2 + gSize e * 2 ^ 32 }
        else put s { c with
          stage := 2, awaits := 1, buf := (s.granData i).take c.total
          bales := (tget [] s.granForm i).zipIdx.filterMap fun f => if f.1 then some (4096 * f.2) else none
          seq := (if c.total < gSize e then 4 else 1) + gSize e * 2 ^ 32 }
    else if 3 ≤ c.stage then
      let s := put s { c with awaits := 0 }
      let s := match s.gfind st.1 tag slot with
        | some (i, _) => if c.cut then s else if bit y 8 then s.cancelPrefetch i else s.granRemove i
        | none => s
      s.granPop
    else s
  | _ =>
    let s := match s.gfind st.1 tag slot with
      | some (i, _) => s.granRemove i
      | none => s
    (put s { c with stage := 3 }).granPop

/-- GRANARY_REQUEST (R319): the request at the head of the queue; into an empty one, a request that waits for room. -/
def execGranaryRequest (s : State) : Answer :=
  .next (match s.granaryQ with
    | [] => s.admitRequest 1
    | k :: _ =>
      match s.copies.find? fun p => p.1 == k with
      | none => s.granPop
      | some (_, c) => s.granTrack k fun s => s.granServe k c)

/-- PREFETCH_COMPLETE i (R319, R393): the hidden copy of directory entry i, whose prefetch has its track. -/
def execPrefetchComplete (s : State) : Answer :=
  let s := s.feedPrefetch
  .next (if s.gtracks.any fun p => p.2 == 2 * s.op 0 + 3 then s.prefetchDone (s.op 0) else s)

/-! ### The Gleaner (R55, R349, R449, R450) -/

def Glean.idle : Glean := ⟨0, 0, [], [], 0, [], [], []⟩
def State.glean (s : State) (ring : Nat) : Glean := tget .idle s.gleans ring
def State.putGlean (s : State) (ring : Nat) (g : Glean) : State := { s with gleans := tset s.gleans ring g }

def rgEn (r : Nat) : Bool := bit r 255
def rgMembers (r : Nat) : Nat := bits r 242 12 + 1
def rgIdx (r : Nat) : Nat := bits r 230 12

/-- Fields of a glean's control word. -/
def glRing (y : Nat) : Nat := bits y 8 8
/-- Elements, and the signature of a glean (the layout of what is signed is the model's: log entry 7). -/
def Copy.gleanCount (c : Copy) : Nat := c.total / glBytes (bits c.y.toNat 0 2)
def Copy.gleanSig (c : Copy) : Nat :=
  let y := c.y.toNat
  crc32c (toBytes 4 c.gleanCount ++ [bits y 0 2, bits y 2 2, bits y 4 3, bits y 7 1])

/-- The chunk size of E elements over n members. -/
def chunkSize (e n : Nat) : Nat := 16 * ceilDiv e (16 * n)

/-- What a frame of this member holds: VER, RING, FROM, KIND, STEP, FMT, SEQ, OFF, CNT, SIG, then its elements. -/
def State.frame (s : State) (ring kind step fmt seq off sig : Nat) (vals : List Nat) : List Nat :=
  [1, ring, rgIdx (tget 0 s.ringCfg ring), kind, step, fmt, seq, off, vals.length, sig] ++ vals

/-- A frame goes to the next member: ring, kind, step, format, first element, signature, values. -/
def State.sendFrame (s : State) (ring kind step fmt off sig : Nat) (vals : List Nat) : State :=
  let g := s.glean ring
  s.putGlean ring { g with
    sendSeq := (g.sendSeq + 1) % 2 ^ 32
    unacked := g.unacked ++ [(g.sendSeq, s.ns, 0, s.frame ring kind step fmt g.sendSeq off sig vals)] }

/-- A frame that is accepted, or was before, is acknowledged to the member that sent it. -/
def State.sendAck (s : State) (ring seq : Nat) : State :=
  let g := s.glean ring
  s.putGlean ring { g with acks := g.acks ++ [s.frame ring 2 0 0 seq 0 0 []] }

/-- Elements lo to hi of a list in pieces that fit a frame of 8,192 bytes. -/
def framePieces (l : List Nat) (off : Nat) : List (Nat × List Nat) :=
  (List.range (ceilDiv l.length 2048)).map fun i => (off + 2048 * i, (l.drop (2048 * i)).take 2048)

/-- A glean's track of the global engines is free (R307). -/
def State.gleanFrees (s : State) (ring : Nat) : State := (s.freeGlobal (2 * (s.glean ring).copy)).startMove 256

/-- A glean ends without a result (R349, R450): its copy reports a status, PARTY fabric. -/
def State.gleanFail (s : State) (ring st : Nat) : State :=
  let g := s.glean ring
  let s := (s.gleanFrees ring).putGlean ring { g with copy := 0, terms := [], result := [], unacked := [] }
  match s.copies.find? fun p => p.1 == g.copy with
  | none => s
  | some (k, c) => s.refuseCopy k { c with stage := 3 } (rstatWord st 2 c.ch s.dev ring 11)

/-- GLEANER_REQUEST (R319, R349): the glean at the head of the queue, its data gathered and its ring free, is served: the
member sends its own terms of the chunk whose sum begins with them. It takes a track of the global engines (R307). -/
def execGleanerRequest (s : State) : Answer :=
  let pop (s : State) : State := State.admitRequest { s with gleanQ := s.gleanQ.drop 1 } 2
  .next (match s.gleanQ with
    | [] => s
    | k :: _ =>
      match s.copies.find? fun p => p.1 == k with
      | none => pop s
      | some (_, c) =>
        if c.stage = 3 then pop s
        else if c.stage ≠ 1 then s
        else
          let y := c.y.toNat
          let ring := glRing y
          let r := tget 0 s.ringCfg ring
          if !rgEn r then pop (s.refuseCopy k { c with stage := 3 } (rstatWord 9 2 c.ch s.dev ring 11))
          else if (s.glean ring).copy ≠ 0 ∨ !s.globalFree then s
          else
            let z := glBytes (bits y 0 2)
            let f := glFmt (bits y 0 2)
            let e := c.gleanCount
            let n := rgMembers r
            let terms := (split (8 * z) e (pack 8 (plainBytes c.buf))).map fun x => f.widen f32 x
            let s := (s.takeGlobal (2 * k)).putGlean ring { s.glean ring with copy := k, sig := c.gleanSig, terms := terms, result := [] }
            let ch := chunkSize e n
            let o := (rgIdx r + n - 1) % n
            pop ((framePieces ((terms.drop (o * ch)).take ch) (o * ch)).foldl (fun s p =>
              s.sendFrame ring 0 1 0 p.1 c.gleanSig p.2) s))

/-- Every element of a glean is there: its copy goes on to write them. -/
def State.gleanDone (s : State) (ring : Nat) : State :=
  let g := s.glean ring
  match s.copies.find? fun p => p.1 == g.copy with
  | none => (s.gleanFrees ring).putGlean ring { g with copy := 0, terms := [], result := [] }
  | some (k, c) =>
    if g.result.length < g.terms.length then s
    else
      let z := glBytes (bits c.y.toNat 2 2)
      let s := (s.gleanFrees ring).putGlean ring { g with copy := 0, terms := [], result := [] }
      -- an element whose own term was poisoned is delivered marked: no frame carries a mark (R211)
      let zi := glBytes (bits c.y.toNat 0 2)
      let bad (e : Nat) : Bool := ((c.buf.drop (zi * e)).take zi).any fun x => decide (256 ≤ x)
      { s with copies := tset s.copies k { c with
          stage := 2, src := .none, rows := 1, len := z * g.terms.length, row := 0, off := 0
          buf := g.result.flatMap fun p => (toBytes z p.2).map fun x => if bad p.1 then x + 256 else x } }

/-- A frame's elements become results here and go on to the members that lack them. -/
def State.gleanFinal (s : State) (ring off : Nat) (fmt step : Nat) (vals : List Nat) : State :=
  let g := s.glean ring
  let r := tget 0 s.ringCfg ring
  let n := rgMembers r
  let owner := off / chunkSize g.terms.length n
  let s := s.putGlean ring { g with result := (vals.zipIdx).foldl (fun t p => tset t (off + p.2) p.1) g.result }
  let s := if (rgIdx r + 1) % n = owner then s else s.sendFrame ring 1 step fmt off g.sig vals
  s.gleanDone ring

/-- GLEANER_FRAME ring kind step fmt seq off sig values… (R450): a frame arrives; kind 2 acknowledges seq. One that no glean here
takes up yet is not acknowledged, and comes again. -/
def execGleanerFrame (s : State) : Answer :=
  let ring := s.op 0
  let g := s.glean ring
  let r := tget 0 s.ringCfg ring
  let seq := s.op 4
  let off := s.op 5
  let vals := s.ev.drop 7
  .next (if s.op 1 = 2 then s.putGlean ring { g with unacked := g.unacked.filter fun u => u.1 != seq }
    else if !rgEn r then s
    else if g.seen.contains seq then s.sendAck ring seq
    else if g.copy == 0 then s
    else
      let s := (s.putGlean ring { g with seen := g.seen.insert seq }).sendAck ring seq
      match s.copies.find? fun p => p.1 == g.copy with
      | none => s
      | some (_, c) =>
        let o : Rnd := ⟨bits c.y.toNat 4 3, bit c.y.toNat 7⟩
        let out := bits c.y.toNat 2 2
        if s.op 6 ≠ g.sig then s.gleanFail ring 11
        else if s.op 1 = 1 then s.gleanFinal ring off (s.op 3) (s.op 2) vals
        else
          let sum := vals.zipIdx.map fun p =>
            f32.arith ⟨0, false⟩ 0 (FVal.add 0 (f32.decode p.1) (f32.decode (nth 0 g.terms (off + p.2))))
          let step := s.op 2 + 1
          if step < rgMembers r then s.sendFrame ring 0 step 0 off g.sig sum
          else s.gleanFinal ring off (out + 1) step (sum.map fun x => (glFmt out).convert o 0 (f32.decode x)))

/-- GLEANER_RESEND ring (R450): frames without an acknowledgement for 50 µs, at most 16 times each. -/
def execGleanerResend (s : State) : Answer :=
  let ring := s.op 0
  let g := s.glean ring
  .next (s.putGlean ring { g with unacked := g.unacked.map fun u =>
    if u.2.1 + 50000 ≤ s.ns ∧ u.2.2.1 < 16 then (u.1, s.ns, u.2.2.1 + 1, u.2.2.2) else u })

/-- GLEANER_RING_FAILURE ring told (R349, R450): a frame has been resent 16 times in vain; or another member tells of that
(told 1), or of a signature that differs (told 2): no frame kind of R450 carries that news, so it is an input. -/
def execGleanerRingFailure (s : State) : Answer :=
  let ring := s.op 0
  let g := s.glean ring
  .next (if s.op 1 = 2 then s.gleanFail ring 11
    else if s.op 1 = 1 ∨ g.unacked.any (fun u => decide (u.2.1 + 50000 ≤ s.ns ∧ 16 ≤ u.2.2.1)) then s.gleanFail ring 9 else s)

/-- ETHERNET_PORT_STATE_CHANGE p up (R440, R448). -/
def execEthernetPortStateChange (s : State) : Answer :=
  let up := s.op 1 == 1
  .next (if 2 ≤ s.op 0 ∨ tget false s.eth (s.op 0) = up then s else { (s.raise 4) with eth := tset s.eth (s.op 0) up })

end Sys2Proof.Machine
end

