-- ==== Sys2Proof/Machine/EvSched.lean ====
section
/-! DEFINITION. The scheduler's events from outside a core (R218, R312, R315, R358 to R368, R371, R385): arrivals,
aging, zeroed squares, triggers, and the supervisor's writes to scheduler memory and to a ring block. -/

namespace Sys2Proof.Machine

/-! ### Arrivals (R315, R371) -/

/-- ARRIVAL_POST, five operands for each record: stage, tag, kind, slot, source. Records of one cycle enter in
ascending source order, and all before the decision point. -/
def arrivalsOf : List Nat → List (Nat × Nat)
  | st :: tag :: kind :: slot :: src :: l => (st % 64, arrival tag kind slot src) :: arrivalsOf l
  | _ => []

def execArrivalPost (s : State) : Answer :=
  .next ((arrivalsOf s.ev).foldl (fun s p => s.arriveAt p.1 p.2 none) s)

/-- ARRIVAL_QUEUE_AGING st kind (R371): a queue passed over 256 times forces a pick. -/
def execArrivalQueueAging (s : State) : Answer :=
  let st := s.op 0
  let k := s.op 1
  .next (if 256 ≤ stPass (s.stageEntry st) k ∧ (s.arq st k).2 ≠ 0 then { s with deciding := true } else s)

/-! ### Squares (R218, R372) -/

/-- Squares of a cluster's cores become zero, after the transform commands that arrived there before (R219). -/
def State.zeroSquares (s : State) (cl base cnt : Nat) : State :=
  let s := (List.range 4).foldl (fun s k => s.flushXforms (4 * cl + k)) s
  let inside (a : Nat) : Bool := (List.range 4).any fun k =>
    let lo := padBase (4 * cl + k) + 16384 * base
    decide (lo ≤ a ∧ a < lo + 16384 * cnt)
  { s with mem := s.mem.filter fun p => !inside p.1, padPoison := s.padPoison.filter fun w => !inside (4 * w) }

/-- SQUARE_ZEROING_COMPLETE cl (R218): the range released first is zero; launches that wait for it proceed. -/
def execSquareZeroingComplete (s : State) : Answer :=
  let cl := s.op 0
  .next (match (s.cluster cl).zeroing with
    | [] => s
    | (base, cnt) :: rest =>
      let s := (s.zeroSquares cl base cnt).modCluster cl fun c => { c with zeroing := rest }
      s.launchWaiting cl)

/-! ### Triggers (R364, R367) -/

/-- What the MBS reads by physical address: none where no memory is or its data is lost. -/
def State.patchAt (s : State) (pa o n : Nat) : Option Nat :=
  if isGlobal (pa + o) && s.populated (pa + o) && !s.retired.contains ((pa + o) / 65536) && !s.poisonedAt (pa + o) n then
    some (s.readPa 0 (pa + o) n) else none

/-- Whether a trigger word's reserved bits are zero, and the patch list it names. -/
def triggerGood (v : Nat) : Bool := v >>> 44 == 0 && bits v 4 4 == 0
def State.patchList (s : State) (v : Nat) : Option (Nat → Nat → Option Nat) :=
  if bits v 8 36 = 0 then none else some (s.patchAt (bits v 8 36 * 256))

/-- A trigger as the register gives it. -/
def State.triggerWord (s : State) (v : Nat) : State :=
  if triggerGood v then (s.trigger (bits v 0 4) (s.patchList v)).2 else s.badTrigger

/-- TRIG v (R364, R365). -/
def execTrig (s : State) : Answer := .next (s.triggerWord (s.op 0))

/-- REPLAY_START (R21, R368): the first waiting trigger starts when no replay runs. -/
def execReplayStart (s : State) : Answer :=
  .next (match s.replay, s.triggers with
    | none, t :: l => State.startReplay { s with triggers := l } t
    | _, _ => s)

/-! ### Supervisor writes (R359, R385, R312) -/

/-- The graphs that a running or a waiting replay holds. -/
def State.heldGraphs (s : State) : List Nat := (s.replay.map (·.graph)).toList ++ s.triggers.map (·.graph)

/-- Whether a pin entry names a set (R386). -/
def State.setPinned (s : State) (k : Nat) : Bool :=
  (List.range 1024).any fun i => let e := s.sm (0x5800 + 16 * i) 16; bit e 127 && bits e 121 6 == k

/-- Which bits of the 8-byte word at an offset a supervisor write reaches (R358 to R363, R316, R370, R385). -/
def schedMask (o : Nat) : Nat :=
  if o < 0x400 then
    match o / 8 % 8 with | 7 => 2 ^ 63 + (2 ^ 29 - 1) * 2 ^ 16 | 6 => (2 ^ 44 - 1) * 2 ^ 20 | _ => 0
  else if o < 0x1400 then (match o / 8 % 8 with | 7 => (2 ^ 49 - 1) * 2 ^ 15 | _ => 0)
  else if o < 0x1800 then (match o / 8 % 2 with | 1 => (2 ^ 37 - 1) * 2 ^ 27 | _ => 0)
  else if o < 0x3800 then
    match o / 8 % 4 with | 3 => (2 ^ 39 - 1) * 2 ^ 25 | 2 => (2 ^ 44 - 1) * 2 ^ 12 | _ => 0
  else if o < 0x5800 then
    match o / 8 % 16 with | 15 => (2 ^ 10 - 1) * 2 ^ 54 | 14 => 2 ^ 64 - 1 | 13 => (2 ^ 32 - 1) * 2 ^ 32 | _ => 0
  else if 0x100000 ≤ o ∧ o < 0x300000 then 2 ^ 64 - 1
  else 0

/-- Whether the MBS refuses a write at an offset (R11, R359). -/
def State.schedRefuses (s : State) (o : Nat) : Bool :=
  if o < 0x400 then s.heldGraphs.contains (o / 64)
  else if o < 0x1800 then s.replay.isSome
  else if 0x3800 ≤ o ∧ o < 0x5800 then s.setPinned ((o - 0x3800) / 128)
  else if 0x100000 ≤ o ∧ o < 0x300000 then
    let i := (o - 0x100000) / 128
    s.heldGraphs.any fun g => decide (ghFirst (s.graph g) ≤ i ∧ i < ghFirst (s.graph g) + ghNodes (s.graph g))
  else false

/-- What a write that enables or reshapes a Silo set resets: versions, buffer states and pin totals. -/
def siloReset (old new : Nat) : Nat :=
  let shape (e : Nat) : Nat × Nat := (bits e 1019 4, bits e 864 96)
  if siloEn new && (!siloEn old || shape old != shape new) then setBits (setBits (setBits new 960 32 0) 464 400 0) 848 2 2
  else new

/-- An 8-byte write to scheduler memory by the supervisor; a rewritten word is no longer damaged nor poisoned, one of the
MBS's own among them, of which it keeps the bits (R226; DESIGN CHOICE, log entry 36). -/
def State.schedWrite (s : State) (o v : Nat) : State :=
  if s.schedRefuses o then { s with tflags := setBits s.tflags 6 1 1 }
  else
    let m := schedMask o
    let old := s.sm o 8
    let set := (o - 0x3800) / 128
    let before := s.silo set
    let s := s.smPut o 8 (old - (old &&& m) + (v &&& m))
    let s := { s with damaged := s.damaged.filter (· != schedBase + o) }
    let new := siloReset before (s.silo set)
    if 0x3800 ≤ o ∧ o < 0x5800 ∧ new ≠ s.silo set then s.putSilo set new else s

/-- SCHEDULER_MEMORY_WRITE o v (R359): offset o, a multiple of 8. -/
def execSchedulerMemoryWrite (s : State) : Answer := .next (s.schedWrite (s.op 0 % 0x800000 / 8 * 8) (s.op 1))

/-- A cluster is idle (R312). -/
def State.clusterIdle (s : State) (cl : Nat) : Bool :=
  let c := s.cluster cl
  !c.crews.any (·.2.live) && c.queue.isEmpty && c.rcnt == 0 && c.pushes.isEmpty &&
    (List.range 4).all fun k => !(s.core (4 * cl + k)).ctxs.any fun p => p.2.st == .dormant

/-- A write of a ring block at a byte offset (R312, R489); bits 11:0 of an RBASE are cleared (DESIGN CHOICE, log entry 37). -/
def State.ringBlockWrite (s : State) (cl o v : Nat) : State :=
  match o with
  | 0 => if s.clusterIdle cl then s.modCluster cl fun c => { c with rbase := bits v 12 32 * 4096 } else s
  | 8 => if s.clusterIdle cl ∧ bits v 0 5 ≤ 16 then s.modCluster cl fun c => { c with rsize := bits v 0 5 } else s
  | 40 => s.modCluster cl fun c => { c with rhigh := 0 }
  | _ => s

/-- RING_BLOCK_WRITE cl o v (R312, R489). -/
def execRingBlockWrite (s : State) : Answer := .next (s.ringBlockWrite (s.op 0) (s.op 1) (s.op 2))

end Sys2Proof.Machine
end

