-- ==== Sys2Proof/Machine/EvLink.lean ====
section
/-! DEFINITION. Caravan ports (R444 to R447): flits and their replay buffer, training by views, quarantine. A port's
state is 0 down, 1 training, 2 up, 3 down: asymmetric, 4 quarantined. -/

namespace Sys2Proof.Machine

def State.link (s : State) (p : Nat) : Link := tget .down s.links p
def State.putLink (s : State) (p : Nat) (l : Link) : State := { s with links := tset s.links p l }

/-- A port changes state: LINK (R440). -/
def State.linkState (s : State) (p st : Nat) : State :=
  if (s.link p).st = st then s else (s.putLink p { s.link p with st := st }).raise 4

/-- Packets that wait in the replay buffer when a link goes down are dropped; their requesters see status 9 (R444). -/
def State.dropFlits (s : State) (p : Nat) : State :=
  let fs := (s.link p).flits
  fs.foldl (fun s f => s.losePacket f.1) (s.putLink p { s.link p with flits := [], resends := 0 })

/-! ### Flits (R444) -/

/-- Fields of a packet as a flit's operands give them: 19 fields, then words, data, bales and recipients with their counts. -/
def packetOf (l : List Nat) : Packet :=
  let f (i : Nat) : Nat := nth 0 l i
  let rest := l.drop 19
  let words := rest.drop 1 |>.take (rest.headD 0)
  let rest := rest.drop (1 + rest.headD 0)
  let data := rest.drop 1 |>.take (rest.headD 0)
  let rest := rest.drop (1 + rest.headD 0)
  let bales := rest.drop 1 |>.take (rest.headD 0)
  let rest := (rest.drop (1 + rest.headD 0)).drop 1
  { kind := f 0, cls := f 1, src := f 2, dst := f 3, req := f 4, who := f 5, hops := f 6, nm := f 7 == 1, vc := f 8, port := f 9
    win := f 10, key := f 11, off := f 12, rows := f 13, len := f 14, stride := f 15, hdr := f 16, status := f 17, party := f 18
    words := words, data := data, bales := bales
    third := (List.range (rest.length / 4)).map fun i =>
      (nth 0 rest (4 * i), nth 0 rest (4 * i + 1), nth 0 rest (4 * i + 2), nth 0 rest (4 * i + 3))
    born := 0 }

/-- The replay buffer after n of its oldest flits are acknowledged. -/
def ackFlits : List (Packet × Nat) → Nat → List (Packet × Nat)
  | [], _ => []
  | f :: l, n => if n < f.2 then (f.1, f.2 - n) :: l else ackFlits l (n - f.2)

/-- FLIT_RECEIVE p good ack nak packet…: a flit whose CRC is good is accepted, acknowledges the oldest ack flits of
this end, and brings its packet, if any; nak 1 tells that the oldest of this end's failed and goes out again. -/
def execFlitReceive (s : State) : Answer :=
  let p := s.op 0
  let l := s.link p
  .next (if l.st ≠ 2 ∨ s.op 1 ≠ 1 then s
    else
      let ack := min (s.op 2) l.unacked
      let resends := if s.op 3 = 1 ∧ ack < l.unacked then (if ack = 0 then l.resends else 0) + 1 else if ack = 0 then l.resends else 0
      let s := s.putLink p { l with flits := ackFlits l.flits ack, resends := resends }
      if s.ev.length ≤ 4 then s
      else { s with packets := tset s.packets s.nextId { packetOf (s.ev.drop 4) with born := s.ns }, nextId := s.nextId + 1 })

/-- LINK_RETRAIN p: eight resends of one flit. -/
def execLinkRetrain (s : State) : Answer :=
  let p := s.op 0
  let l := s.link p
  .next (if l.st = 2 ∧ 8 ≤ l.resends then
    (s.putLink p { l with resends := 0, mine := none, theirs := none }).linkState p 1 else s)

/-- LINK_DOWN p. -/
def execLinkDown (s : State) : Answer :=
  let p := s.op 0
  .next (if (s.link p).st = 1 ∨ (s.link p).st = 2 then (s.linkState p 0).dropFlits p else s)

/-! ### Training (R445, R446) -/

/-- The view of one end: width, lane map, speed. -/
abbrev View := Nat × Nat × Nat

/-- The view formed from the lanes received cleanly: the largest aligned group that is wholly clean. -/
def viewOf (lanes speed : Nat) : Option View :=
  if bits lanes 0 8 = 0xFF then some (8, 0xFF, speed)
  else if bits lanes 0 4 = 0xF then some (4, 0xF, speed)
  else if bits lanes 0 2 = 3 then some (2, 3, speed)
  else none

/-- The proposal after an attempt: the narrower view at the lower speed. -/
def narrower (a b : View) : View :=
  let v := if b.1 < a.1 then b else a
  (v.1, v.2.1, min a.2.2 b.2.2)

/-- Bytes 0 to 3 of the frame that carries a view, and the view that such bytes carry. -/
def viewBytes (v : View) : Nat := v.1 + v.2.1 * 2 ^ 8 + v.2.2 * 2 ^ 16
def bytesView (n : Nat) : View := (bits n 0 8, bits n 8 8, bits n 16 8)

/-- The highest speed a port may train at: 56 Gb/s in reduced service (R451). -/
def State.topSpeed (s : State) (p : Nat) : Nat := if s.stage < 5 then 0 else min 2 (s.link p).spdMax

/-- LINK_STATE_FRAME p lo hash peer pport: the peer's bytes 0 to 3 and their hash. -/
def execLinkStateFrame (s : State) : Answer :=
  let p := s.op 0
  let lo := s.op 1
  let l := s.link p
  let good := crc32c (toBytes 4 lo) == s.op 2
  let view : Option Nat := if good then some (lo % 2 ^ 32) else none
  let l := if good then { l with peer := s.op 3 % 32768, pport := s.op 4 % 16 } else l
  .next (if (s.link p).st = 0 ∨ (s.link p).st = 1 then (s.putLink p { l with theirs := view }).linkState p 1 else s)

/-- LINK_TRAINING_ATTEMPT p lanes: the attempt ends; a first attempt forms its view from the lanes received cleanly. -/
def execLinkTrainingAttempt (s : State) : Answer :=
  let p := s.op 0
  let l := s.link p
  let mine := match l.mine with | some v => some v | none => viewOf (s.op 1) (s.topSpeed p)
  .next (if l.st ≠ 0 ∧ l.st ≠ 1 then s
    else
      match mine, l.theirs with
      | some a, some b =>
        if viewBytes a = b then
          (s.putLink p { l with fails := 0, width := a.1, lmap := a.2.1, speed := a.2.2, mine := none, theirs := none }).linkState p 2
        else ((s.putLink p { l with fails := min 3 (l.fails + 1), retryAt := s.ns + 100000000, mine := some a }).linkState p 3).dropFlits p
      | _, _ => ((s.putLink p { l with fails := min 3 (l.fails + 1), retryAt := s.ns + 100000000, mine := mine }).linkState p 3).dropFlits p)

/-- LINK_RETRY_TIMER p: 100 ms after a failed attempt the next begins. -/
def execLinkRetryTimer (s : State) : Answer :=
  let p := s.op 0
  let l := s.link p
  let mine := match l.mine, l.theirs with | some a, some b => some (narrower a (bytesView b)) | some a, none => some a | none, _ => none
  .next (if l.st = 3 ∧ l.fails < 3 ∧ l.retryAt ≤ s.ns then (s.putLink p { l with mine := mine, theirs := none }).linkState p 1 else s)

/-- LINK_QUARANTINE p: after three failed attempts. -/
def execLinkQuarantine (s : State) : Answer :=
  let p := s.op 0
  .next (if (s.link p).st = 3 ∧ 3 ≤ (s.link p).fails then s.linkState p 4 else s)

/-- A quarantine ends in a first attempt (R447). -/
def State.clearQuarantine (s : State) (p : Nat) : State :=
  if (s.link p).st = 4 then (s.putLink p { s.link p with fails := 0, mine := none, theirs := none }).linkState p 1 else s

/-- CLRQ p (R447). -/
def execClrq (s : State) : Answer := .next (s.clearQuarantine (s.op 0))

end Sys2Proof.Machine
end

