-- ==== Sys2Proof/Machine/Sha.lean ====
section
/-! DEFINITION. SHA-512 (R453, R454), as FIPS 180-4 gives it (PRESUMED, log entry 6): the manual names the function and does
not define it. -/

namespace Sys2Proof.Machine

/-- The first n primes, by trial division. -/
def primesTo (n : Nat) : List Nat :=
  ((List.range 410).drop 2).foldl (fun l k => if l.length < n ∧ l.all (fun p => k % p != 0) then l ++ [k] else l) []

/-- The greatest r with r^k at most x, one bit at a time from bit n down. -/
def rootBits (k x : Nat) : Nat → Nat → Nat
  | 0, r => r
  | n + 1, r => let r' := r + 2 ^ n; rootBits k x n (if r' ^ k ≤ x then r' else r)

/-- The initial hash words and the round constants: 64 bits of the fractions of square and cube roots of primes. -/
def shaInit : List Nat := (primesTo 8).map fun p => rootBits 2 (p * 2 ^ 128) 70 0 % 2 ^ 64
def shaRound : List Nat := (primesTo 80).map fun p => rootBits 3 (p * 2 ^ 192) 70 0 % 2 ^ 64

def rotr64 (x n : Nat) : Nat := (x / 2 ^ n + x * 2 ^ (64 - n)) % 2 ^ 64

/-- A block's schedule of 80 words, newest first. -/
def shaSchedule (ws : List Nat) : List Nat :=
  (List.range 64).foldl (fun l _ =>
    let a := l.getD 14 0
    let b := l.getD 1 0
    let s0 := rotr64 a 1 ^^^ rotr64 a 8 ^^^ a / 2 ^ 7
    let s1 := rotr64 b 19 ^^^ rotr64 b 61 ^^^ b / 2 ^ 6
    (l.getD 15 0 + s0 + l.getD 6 0 + s1) % 2 ^ 64 :: l) ws.reverse

/-- One round on the eight working words. -/
def shaStep (v : List Nat) (kw : Nat) : List Nat :=
  let g (i : Nat) : Nat := v.getD i 0
  let s1 := rotr64 (g 4) 14 ^^^ rotr64 (g 4) 18 ^^^ rotr64 (g 4) 41
  let ch := (g 4 &&& g 5) ^^^ ((2 ^ 64 - 1 - g 4) &&& g 6)
  let t1 := g 7 + s1 + ch + kw
  let s0 := rotr64 (g 0) 28 ^^^ rotr64 (g 0) 34 ^^^ rotr64 (g 0) 39
  let maj := (g 0 &&& g 1) ^^^ (g 0 &&& g 2) ^^^ (g 1 &&& g 2)
  [(t1 + s0 + maj) % 2 ^ 64, g 0, g 1, g 2, (g 3 + t1) % 2 ^ 64, g 4, g 5, g 6]

/-- A 128-byte block. -/
def shaBlock (h blk : List Nat) : List Nat :=
  let ws := (List.range 16).map fun i => ((blk.drop (8 * i)).take 8).foldl (fun a b => 256 * a + b) 0
  let v := (shaRound.zip (shaSchedule ws).reverse).foldl (fun v p => shaStep v (p.1 + p.2)) h
  (h.zip v).map fun p => (p.1 + p.2) % 2 ^ 64

/-- The digest of a list of bytes, 64 bytes. -/
def sha512 (l : List Nat) : List Nat :=
  let pad := l ++ 0x80 :: List.replicate ((239 - l.length % 128) % 128) 0 ++ (toBytes 16 (8 * l.length)).reverse
  let h := (List.range (pad.length / 128)).foldl (fun h i => shaBlock h ((pad.drop (128 * i)).take 128)) shaInit
  h.flatMap fun w => (toBytes 8 w).reverse

end Sys2Proof.Machine
end

