-- ==== Sys2Proof/Machine/EvSys.lean ====
section
/-! DEFINITION. The device as a whole and its outside (R102, R208, R226, R289 to R292, R405, R412, R438 to R440, R451 to
R455): resets, containment, bring-up, clock and temperature, firmware, interrupts. -/

namespace Sys2Proof.Machine

/-! ### What a reset leaves of memory (R212, R222, R290) -/

/-- A granule's poison mark. -/
def setPoison (l : List Nat) (g mark : Nat) : List Nat := if mark = 0 then l.filter (· != g) else l.insert g

/-- A dirty line is lost: the memory behind it holds its old bytes, keys and poison marks. -/
def State.loseLine (s : State) (line : Nat) (old : List Nat) : State :=
  { s with
    mem := memBytes s.mem (128 * line) (old.take 128)
    keyTags := tset (tset s.keyTags (2 * line) (nth 0 old 128)) (2 * line + 1) (nth 0 old 129)
    poison := setPoison (setPoison s.poison (2 * line) (nth 0 old 130)) (2 * line + 1) (nth 0 old 131) }

/-- Dirty lines of some home dies are lost. A line of a cellar page holds what was persisted; any other holds the old
bytes or the new, a free choice (log entry 3). What a strand or a copy that goes on elsewhere wrote there never becomes durable:
its record names no granule that can still be persisted, so no .rcv release that follows the write performs (R27). -/
def State.loseLines (s : State) (lost : Nat → Bool) : State :=
  let goesOn (x : CellarWrite) : Bool := thas s.copies (x.copy / 8) ||
    s.cores.any fun p => !lost (p.1 / 24) && p.2.ctxs.any fun q => q.2.uid == x.uid
  (s.l2.filter fun p => lost (homeDie (128 * p.1))).foldl (fun s p =>
    let d := s.drawNat
    let cel := s.cellarLines.contains (2 * p.1) || s.cellarLines.contains (2 * p.1 + 1)
    let s := if cel then s.loseLine p.1 p.2 else if d.1 % 2 = 0 then d.2.loseLine p.1 p.2 else d.2
    { s with
      l2 := tdel s.l2 p.1, cellarLines := s.cellarLines.filter fun x => x / 2 != p.1
      cellarOpen := s.cellarOpen.filterMap fun x =>
        if x.done || x.granule / 2 != p.1 then some x else if goesOn x then some { x with granule := x.granule + 2 ^ 38 } else none }) s

/-- The cores of a compute die, and whether a core is one of them. -/
def coresOf (d : Nat) : List Nat := (List.range 24).map (24 * d + ·)
def onDie (d c : Nat) : Bool := c / 24 == d && decide (c < 96)

/-- What a reset of its die leaves of a core: what the supervisor set, and its counters (R427). -/
def Core.afterReset (k : Core) : Core :=
  { Core.reset with
    split := k.split, counters := k.counters, counterNew := k.counterNew, cyc0 := k.cyc0, pcsel := k.pcsel, saBase := k.saBase
    lastIssue := k.lastIssue, leaveSeq := k.leaveSeq
    lf := k.lf.map fun p => (p.1, { Lf.unbound with bind := p.2.bind, rqn := p.2.rqn }) }

/-- The contexts of a die that a containment kills: core, slot, context. -/
def State.victims (s : State) (d : Nat) : List (Nat × Nat × Ctx) :=
  (coresOf d).flatMap fun c => ((s.core c).ctxs.filter fun p => p.2.st != .free && p.2.st != .dormant).map fun p => (c, p.1, p.2)

/-- Whether an address of a space is in a cellar page. -/
def State.inCellar (s : State) (space va : Nat) : Bool :=
  match s.ownerPa space va false false with
  | some (_, _, leaf) => bit leaf 5
  | none => false

/-- Whether any of some rows is in a cellar page. -/
def State.rowsCellar (s : State) (space base rows len stride : Nat) : Bool :=
  (List.range rows).any fun i => (pieces (base + i * stride) len).any (s.inCellar space)

/-- A copy whose bytes go to a cellar page, and a packet here whose data do: a window write, a store or atomic, channel blocks. -/
def State.copyToCellar (s : State) (c : Copy) : Bool :=
  c.dsts.any fun d => match d with | .virt space va => s.rowsCellar space va c.rows c.len c.dstr | _ => false

def State.packetToCellar (s : State) (p : Packet) : Bool :=
  let e := s.window p.win
  p.dst == s.dev && (match p.kind with
    | 0 => bits p.hdr 60 4 != 0 && !(s.lfCellar p).isEmpty
    | 2 => s.rowsCellar (bits e 499 4) (winBase e true + p.off) p.rows p.len p.stride
    | 4 =>
      let t := s.tch (nth 0 p.words 0 % 256)
      !(s.tcCellar t (stGraph (s.stageEntry (bits t 217 6))) p).isEmpty
    | _ => false)

/-- What a die reset takes from the fabric (R290): what the die's cores have sent and has not left this device, and data on their
way into cellar pages. -/
def State.lostInFabric (s : State) (d : Nat) (p : Packet) : Bool :=
  (p.src == s.dev && p.hops == 0 && p.kind != 6 && s.remotes.any fun r => r.1 == p.who && onDie d r.2.core) || s.packetToCellar p

/-- Gleans whose copy has gone end, and their tracks of the global engines are free. -/
def State.dropGleans (s : State) : State :=
  let gone (g : Glean) : Bool := g.copy != 0 && !s.copies.any fun p => p.1 == g.copy
  let s' := (s.gleans.filter fun p => gone p.2).foldl (fun s p => s.freeGlobal (2 * p.2.copy)) s
  { s' with gleans := s'.gleans.map fun p =>
      (p.1, if gone p.2 then { p.2 with copy := 0, terms := [], result := [], unacked := [] } else p.2) }

/-- A containment event on a die (R208): its contexts are killed with 0x43, and it resets; the replay that runs is interrupted,
and other dies go on with it. -/
def State.contain (s : State) (d : Nat) : State :=
  let vs := s.victims d
  let s := vs.foldl (fun s v => s.countFault v.1 v.2.2.crew v.2.2.replay 0x43) s
  let s := (coresOf d).foldl (fun s c => (s.countIdle c).countBusy c s.clk) s
  let inDie (a : Nat) : Bool := decide (padBase (24 * d) ≤ a ∧ a < padBase (24 * d + 24))
  let stays := s.copies.filter fun p => !onDie d p.2.core && !(p.2.core == 96 && s.copyToCellar p.2)
  let s := State.loseLines { s with
    cores := s.cores.map fun p => if onDie d p.1 then (p.1, p.2.afterReset) else p
    clusters := s.clusters.map fun p => if p.1 / 6 = d then (p.1, { p.2 with tlb := [] }) else p
    mem := s.mem.filter fun p => !inDie p.1
    padPoison := s.padPoison.filter fun w => !inDie (4 * w)
    replay := s.replay.map fun r => { r with cut := true }
    heat := [], heatPoison := []
    copies := stays
    packets := s.packets.filter fun p => !s.lostInFabric d p.2
    remotes := s.remotes.filter fun p => !onDie d p.2.core
    starts := s.starts.filter fun h => !onDie d h.core
    walks := (s.walks.map fun p => (p.1, { p.2 with
      cores := p.2.cores.filter (!onDie d ·), copies := p.2.copies.filter (thas stays) })).filter fun p =>
        !(p.2.cores.isEmpty && p.2.copies.isEmpty)
    pending := if onDie d s.bun.core then [] else s.pending } (· == d)
  let s := s.dropGleans
  vs.foldl (fun s v => (s.dropMember v.2.2.crew true).killDone v.1 v.2.1) s

/-- The die's cores go on with what waits for them. -/
def State.resumeDie (s : State) (d : Nat) : State := (coresOf d).foldl State.freed s

/-- CONTAINMENT_EVENT d (R208). -/
def execContainmentEvent (s : State) : Answer :=
  let d := s.op 0
  .next (if 4 ≤ d then s else (s.contain d).resumeDie d)

/-! ### Recovery (R292) -/

/-- Whether a recovery point stands: its body holds VALID with its GEN, and its records match the version words. -/
def State.pointGood (s : State) (r : Nat) : Bool :=
  let pa := bits r 64 56
  let gen := bits r 32 32
  let nent := s.readPa 0 (pa + 8) 4
  let n := s.readPa 0 (pa + 12) 4
  let recs := pa + 64 + 16 * nent
  bit r 127 && decide (n ≤ 65536) && !s.poisonedAt pa (64 + 16 * nent + 8 * n) &&
    s.readPa 0 (pa + 56) 8 == 0x5EA1 * 2 ^ 48 + gen &&
    (List.range n).all fun i =>
      let x := s.readPa 0 (recs + 8 * i) 8
      tget 0 s.versions (bits x 0 32) == bits x 32 32 && !s.cxlDown (bits x 0 32 * 65536)

/-- The newest recovery point that stands. -/
def State.newestPoint (s : State) : Option Nat :=
  ((List.range 4).filter fun n => s.pointGood (tget 0 s.rpt n)).foldl (fun a n => match a with
    | none => some n
    | some m => if bits (tget 0 s.rpt m) 32 32 < bits (tget 0 s.rpt n) 32 32 then some n else a) none

/-- Continuations that wait for a cluster's slots are dropped where gone says so. -/
def State.purgeQueue (s : State) (cl : Nat) (gone : List Word → Bool) : State :=
  let c := s.cluster cl
  let ring := (List.range c.rcnt).map fun i => (split 64 8 (s.readPa 0 (c.rbase + 64 * ((c.rhead + i) % c.ringSize)) 64)).map wd
  let s := s.modCluster cl fun c => { c with
    queue := c.queue.filter fun e => !gone e.1, rhead := c.rtail, rcnt := 0, pushes := c.pushes.filter fun r => !gone r }
  let s := (ring.filter fun r => !gone r).foldl (fun s r => s.place cl r) s
  ((c.queue.map (·.1) ++ ring ++ c.pushes).filter gone).foldl (fun s r => s.dropMember (recCrew r) true) s

/-- Whether a record's crew is one of a replay. -/
def Cluster.ofReplay (q : Cluster) (n : Nat) (r : List Word) : Bool :=
  let e := tget .free q.crews (recCrew r % 64)
  recCrew r != 0xFFFF && e.live && e.gen == bits (recCrew r) 6 5 && e.replay == n

/-- The interrupted replay ends for its successor, without a completion record: what it had under way on every die is dropped
(DESIGN CHOICE, log entry 35). -/
def State.abandon (s : State) (r : Replay) : State :=
  let s : State := { s with
    replay := none, held := s.held.filter (·.who.isNone), inbox := s.inbox.filter (·.who.isNone)
    clusters := s.clusters.map fun p => (p.1, { p.2 with waiting := p.2.waiting.filter fun l => l.crew.replay != r.number }) }
  let s := s.clusters.foldl (fun s p => s.purgeQueue p.1 (p.2.ofReplay r.number)) s
  let mine (x : Ctx) : Bool :=
    x.replay == r.number && x.st != .free && x.st != .dormant && (match x.wait with | .kill _ => false | _ => true)
  (s.cores.flatMap fun p => (p.2.ctxs.filter fun q => mine q.2).map fun q => (p.1, q.1)).foldl (fun s v => s.startKill v.1 v.2 0x43) s

/-- The replay that recovery triggers: an interrupted one is restarted at once, before any trigger that waits (R28, R208). -/
def State.replayAgain (s : State) (v : Nat) : State :=
  match s.replay.filter (·.cut) with
  | none => s.triggerWord v
  | some r =>
    let s := s.abandon r
    if triggerGood v then
      match s.newReplay (bits v 0 4) (s.patchList v) with
      | none => s.badTrigger
      | some (r, s) => s.startReplay r
    else s.badTrigger

/-- Firmware's recovery: it takes the newest point that stands, and has the MBS replay from its STEP, where v is the trigger word
that the job's firmware holds for step. -/
def State.recover (s : State) (v step : Nat) : State :=
  match s.newestPoint with
  | none => { s with recovery := none }
  | some n =>
    let at_ := bits (tget 0 s.rpt n) 0 32
    let s := { s with recovery := some (n, at_) }
    if step = at_ then s.replayAgain v else s

/-- REPLAY_FROM_SEAL v step (R292, R452): the graph and the patches that a step replays are the job's, so the trigger word comes
with the step it stands for, and is written only where that is the chosen seal's (log entry 35). -/
def execReplayFromSeal (s : State) : Answer := .next (if s.stage < 4 then s else s.recover (s.op 0) (s.op 1))

/-- RPT_FIRMWARE_WRITE n lo hi (R102). -/
def execRptFirmwareWrite (s : State) : Answer :=
  let v := s.op 1 % 2 ^ 64 + s.op 2 % 2 ^ 64 * 2 ^ 64
  .next (if 4 ≤ s.op 0 then s else { s with rpt := tset s.rpt (s.op 0) (setBits v 120 7 0) })

/-! ### Device reset and power (R89, R208, R212, R412, R451) -/

/-- Whether memory at an address keeps its data while the device resets: cellar granules, persistent expanders, and
other expanders by a free choice d (log entry 3). -/
def State.keeps (s : State) (d a : Nat) : Bool :=
  if isHbm a then thas s.versions (a / 65536)
  else (s.expander a).any (·.persistent) || (isCxl 0 a && bit d 0) || (isCxl 1 a && bit d 1)

/-- The granules of the newest copy of the retirement table whose CRC is good (R412). -/
def State.newestFlash (s : State) : List Nat :=
  let best := (s.flash.filter Flash.good).foldl (fun (a : Flash) f => if a.seq ≤ f.seq then f else a) ⟨0, [], 0⟩
  (best.entries.filter (bit · 31)).map (bits · 0 23)

/-- Whether an image is one that boots: signed under the root key whose hash the boot ROM holds, its version not below the rollback
counter (R453). -/
def State.imageGood (s : State) (version : Nat) (image : List Nat) : Bool :=
  sha512 (Config.publicKeyOf (ofBytes image)) == Config.rootKeyHash && Config.signatureGood (ofBytes image) &&
    decide (s.fwRollback ≤ version)

/-- The state after a device reset: reset values, and what R212 keeps; d tells which other expanders keep theirs. -/
def State.afterReset (s : State) (d : Nat) : State :=
  let s := s.loseLines fun _ => true
  { State.reset with
    mem := s.mem.filter fun p => s.keeps d p.1
    poison := s.poison.filter fun g => s.keeps d (64 * g)
    keyTags := s.keyTags.filter fun p => s.keeps d (64 * p.1)
    baleBits := s.baleBits.filter fun b => s.keeps d (4096 * b)
    versions := s.versions, journal := s.journal, rpt := s.rpt
    cxl := s.cxl.map fun p => (p.1, { p.2 with down := false })
    flash := s.flash, retired := s.newestFlash, retCnt := s.newestFlash.length, dev := s.dev
    fwVersion := s.fwVersion, fwRollback := s.fwRollback, fwImage := s.fwImage, fwFlash := s.fwFlash
    agenda := s.agenda, ev := s.ev, free := s.free, nextId := s.nextId }

/-- DEVICE_RESET (R208, R455): every context ends and nothing is counted; dies that the temperature holds in reset stay held. -/
def execDeviceReset (s : State) : Answer :=
  .next (if !s.powered then s
    else
      let d := s.drawNat
      { (d.2.afterReset d.1) with dieHeld := s.dieHeld })

/-- IO_DIE_RESET d (R226): scheduler memory is zero, and with it goes what the MBS was doing. The rule tells the two I/O dies
apart in nothing. -/
def execIoDieReset (s : State) : Answer :=
  .next (if 2 ≤ s.op 0 then s
    else { s with
      mem := s.mem.filter fun p => !isSched p.1, padPoison := s.padPoison.filter fun w => !isSched (4 * w)
      replay := none, triggers := [], aq := [], held := [], inbox := [], deciding := false, damaged := [], predB := []
      resident := [], granForm := [], prefetch := [], prefetchWait := [], hidden := []
      gtracks := s.gtracks.filter fun t => t.2 % 2 == 0 || t.2 == 1 })

/-- POWER_LOSS torn (R412): 1, power goes while the older copy of the retirement table is being written, whose CRC then fails. -/
def execPowerLoss (s : State) : Answer :=
  let newest := s.flash.foldl (fun a f => max a f.seq) 0
  let flash := if s.op 0 = 1 then s.flash.map fun f => if f.seq = newest then f else { f with crc := (Flash.made f.seq f.entries).crc + 1 }
    else s.flash
  .next { ({ s with flash := flash }.afterReset 0) with powered := false, stage := 0, hbmTrained := 0, keyValid := [] }

/-- POWER_ON (R451), one event for each part of the bring-up before the first stack trains: with the power, the boot ROM verifies the
image in flash (step 1), and a device whose image it refuses goes no further; the I/O dies and the host link come up in reduced
service, and tstamp runs (step 2); firmware loads key 0 and the retirement table (step 3). -/
def execPowerOn (s : State) : Answer :=
  .next (if !s.powered then
      { (s.afterReset 0) with
        powered := true, stage := if s.imageGood s.fwFlash.1 s.fwFlash.2 then 1 else 0, mhz := 800, hbmTrained := 0, cxl := []
        keyValid := [], retired := [], retCnt := 0, fwVersion := s.fwFlash.1, fwImage := s.fwFlash.2 }
    else match s.stage with
      | 1 => { s with stage := 2 }
      | 2 => { s with stage := 3, keyValid := [0], retired := s.newestFlash, retCnt := s.newestFlash.length }
      | _ => s)

/-- The expanders of a port, from their sizes and properties in enumeration order, as far as they find room: bit 0 of the properties
is persistent, bit 1 bale-capable (R442). -/
def expandersOf (room : Nat) : List Nat → List Expander
  | size :: props :: l => ⟨min size room, bit props 0, bit props 1⟩ :: expandersOf (room - size) l
  | _ => []

/-- HBM_STACK_TRAINED k n0 … (R442, R451, R452): after the last stack, firmware enumerates the expanders of port 0, whose number
is n0, with size and properties of each, and then those of port 1; the ports reach 4 TiB together (R4). -/
def execHbmStackTrained (s : State) : Answer :=
  let near : Cxl := ⟨expandersOf (2 ^ 42) ((s.ev.drop 2).take (2 * s.op 1)), false⟩
  let far : Cxl := ⟨expandersOf (2 ^ 42 - near.size) (s.ev.drop (2 + 2 * s.op 1)), false⟩
  .next (if s.stage ≠ 3 ∨ s.op 0 ≠ s.hbmTrained ∨ 8 ≤ s.hbmTrained then s
    else
      let s := { s with hbmTrained := s.hbmTrained + 1, capGen := s.capGen + 1 }
      if s.hbmTrained < 8 then s else { s with stage := 4, cxl := [(0, near), (1, far)] })

/-- A wait with the cycle by which it ends changed. -/
def Wait.mapUntil (f : Nat → Nat) : Wait → Wait
  | .line pa d n key l => .line pa (f d) n key l
  | .bar pa d => .bar pa (f d)
  | .fence t d => .fence t (f d)
  | .seal l va n d => .seal l va n (f d)
  | .valid l n pa key gen d => .valid l n pa key gen (f d)
  | .drain ch d => .drain ch (f d)
  | w => w

/-- The clock changes; tstamp keeps its rate (R2, R428), and what is left of a wait's millisecond is as long as before. -/
def State.setClock (s : State) (mhz : Nat) : State :=
  let f (d : Nat) : Nat := s.clk + ceilDiv ((d - s.clk) * mhz) s.mhz
  { s with
    mhz := mhz, tacc := s.tacc * mhz / s.mhz
    cores := s.cores.map fun p => (p.1, { p.2 with
      ctxs := p.2.ctxs.map fun q => (q.1, { q.2 with wait := q.2.wait.mapUntil f, after := q.2.after.mapUntil f }) }) }

/-- A link trains anew at the speed it may have now (R451); one that is quarantined waits for CLRQ (R447). -/
def State.retrain (s : State) (p : Nat) : State :=
  if (s.link p).st = 0 ∨ (s.link p).st = 4 then s else (s.putLink p { s.link p with mine := none, theirs := none }).linkState p 1

/-- REDUCED_SERVICE_END (R451 step 5): all clusters at the clock; links train again. -/
def execReducedServiceEnd (s : State) : Answer :=
  .next (if s.stage ≠ 4 then s
    else
      let s := s.setClock (1600 - 100 * s.throttle)
      let s := { s with stage := 5, capGen := s.capGen + 1 }
      (List.range 12).foldl State.retrain s)

/-! ### Clock and temperature (R455) -/

/-- The junctions are at a temperature, which TEMP shows: above 115 °C every compute die is contained and held in reset; below
95 °C they are held no more. Every event that tells it has this effect. -/
def State.feel (s : State) (temp : Nat) : State :=
  let s := { s with temp := temp % 2 ^ 16 }
  if 115 < temp then (List.range 4).foldl State.contain { s with dieHeld := [0, 1, 2, 3] }
  else if temp < 95 ∧ s.dieHeld ≠ [] then (List.range 4).foldl State.resumeDie { s with dieHeld := [] }
  else s

/-- THROTTLE_DOWN temp power. -/
def execThrottleDown (s : State) : Answer :=
  let s := s.feel (s.op 0)
  .next (if (s.powerCap < s.op 1 ∨ 105 < s.op 0) ∧ s.throttle < 8 ∧ 800 < s.mhz then
    { (s.setClock (s.mhz - 100)) with throttle := s.throttle + 1, stepAt := s.ns + 1000000 } else s)

/-- THROTTLE_STEP_UP temp power: both 5 % below their limits, at most a step each millisecond. -/
def execThrottleStepUp (s : State) : Answer :=
  let s := s.feel (s.op 0)
  .next (if 20 * s.op 0 ≤ 19 * 105 ∧ 20 * s.op 1 ≤ 19 * s.powerCap ∧ 0 < s.throttle ∧ s.stage = 5 ∧ s.stepAt ≤ s.ns then
    { (s.setClock (s.mhz + 100)) with throttle := s.throttle - 1, stepAt := s.ns + 1000000 } else s)

/-- THERMAL_CONTAINMENT temp: every compute die is contained and held in reset. -/
def execThermalContainment (s : State) : Answer := .next (s.feel (s.op 0))

/-- THERMAL_RELEASE temp. -/
def execThermalRelease (s : State) : Answer := .next (s.feel (s.op 0))

/-! ### Firmware (R405, R453, R454) -/

/-- A mailbox command is answered in place, and MBOX is set. -/
def State.mailAnswer (s : State) (reply : Nat) : State := { (s.raise 5) with mailbox := reply % 2 ^ 32768, mailAsked := false }

/-- Firmware answers a command of a kind that stands in the mailbox: one whose signature is good by its effect, another, which it
refuses, by a free value alone (log entries 3, 6). -/
def State.mailCommand (s : State) (kind : Nat) (effect : State → State) : State :=
  if !s.mailAsked || Config.mailKind s.mailbox != kind then s
  else if Config.signatureGood s.mailbox then effect s
  else
    let d := s.drawWord
    d.2.mailAnswer d.1.toNat

/-- KEY_LOAD (R396, R405, R453): firmware has the command go through KEYMB, and the entry it names holds its keys. The answer is a
free value (log entry 3). -/
def execKeyLoad (s : State) : Answer :=
  .next (s.mailCommand 1 fun s =>
    let k := Config.mailEntry s.mailbox % 256
    let keys := Config.mailKeys s.mailbox % 2 ^ 512
    let d := s.drawWord
    { (d.2.mailAnswer d.1.toNat) with
      keyMb := s.mailbox % 2 ^ 1024, keyValid := s.keyValid.insert k, keyHeld := tset s.keyHeld k keys })

/-- What an attestation reply says before its signature: the 64-byte nonce, the device number, the stepping, the digests of the
firmware image and of the valid-key bitmap, the rollback counter (their order and widths are the model's: log entry 6). -/
def State.attestation (s : State) (nonce : Nat) : List Nat :=
  let keys := s.keyValid.foldl (fun m k => setBits m (k % 256) 1 1) 0
  toBytes 64 nonce ++ toBytes 2 s.dev ++ toBytes 2 Config.stepping ++ sha512 s.fwImage ++ sha512 (toBytes 32 keys) ++
    toBytes 4 s.fwRollback

/-- ATTESTATION (R454): the reply to the command in the mailbox, then its signature under the identity key (log entry 6). -/
def execAttestation (s : State) : Answer :=
  .next (s.mailCommand 2 fun s =>
    let reply := s.attestation (Config.mailNonce s.mailbox)
    s.mailAnswer (ofBytes reply + 2 ^ (8 * reply.length) * Config.attest (ofBytes reply)))

/-- FIRMWARE_UPDATE version image… (R453): the version and the bytes of a signed image, which becomes the running one and the one in
flash; a refused one changes neither. -/
def execFirmwareUpdate (s : State) : Answer :=
  let image := s.ev.drop 1
  .next (if s.imageGood (s.op 0) image then { s with fwVersion := s.op 0, fwImage := image, fwFlash := (s.op 0, image) } else s)

/-! ### The host (R440) -/

/-- A write of ones to INTSTAT: a bit whose event has occurred again sets again (R440). -/
def State.clearInterrupts (s : State) (v : Nat) : State :=
  let again := (List.range 6).filter fun k => bit v k && bit s.intStat k && bit s.intAgain k
  let clear (x : Nat) : Nat := (List.range 6).foldl (fun m k => if bit v k then setBits m k 1 0 else m) x
  again.foldl State.raise { s with intStat := clear s.intStat, intAgain := clear s.intAgain }

/-- INTSTAT_CLEAR v (R440). -/
def execIntstatClear (s : State) : Answer := .next (s.clearInterrupts (s.op 0))

end Sys2Proof.Machine
end

