-- ==== Sys2Proof/Machine/Window.lean ====
section
/-! DEFINITION. The register window (R213, R396, R414 to R416, R427, R429, R432, R434, R436, R438, R440, R447, R449,
R455, R489): what the supervisor's write of a register does, and what a read returns; the host's BARs. -/

namespace Sys2Proof.Machine

/-! ### Writes -/

/-- A write through a copy of a counter: it takes effect as the one counter next counts (R427). Cycles is cyc, which only time
changes (R105, R437; DEDUCED, log entry 36), so a write of it does nothing. -/
def State.counterWrite (s : State) (c n : Nat) (w : Word) : State :=
  if n = 0x000 then { s with nsNew := some w.toNat }
  else if n = 0x020 then s.modCore (c / 4 * 4) fun k => { k with counterNew := tset k.counterNew n w }
  else if n = 0x010 ∨ n = 0x011 ∨ (0x018 ≤ n ∧ n < 0x023) ∨ (0x028 ≤ n ∧ n < 0x02D) ∨ (0x030 ≤ n ∧ n < 0x043) then
    (if 0x030 ≤ n ∧ n < 0x040 then (s.countIdle c).countBusy c s.clk else s).modCore c fun k => { k with counterNew := tset k.counterNew n w }
  else s

/-- Bits of a ring configuration word that a write reaches (R449). -/
def ringMask (j : Nat) : Nat :=
  match j with | 3 => (2 ^ 26 - 1) * 2 ^ 38 | 2 => (2 ^ 48 - 1) * 2 ^ 16 | 1 => 2 ^ 32 - 1 | _ => (2 ^ 16 - 1) * 2 ^ 48

/-- A write of a Gleaner ring; configuring one changes the capability list (R416, R417). -/
def State.ringWrite (s : State) (k j v : Nat) : State :=
  let old := tget 0 s.ringCfg k
  let new := setBits old (64 * j) 64 (v &&& ringMask j)
  { s with ringCfg := tset s.ringCfg k new, capGen := if rgEn old = rgEn new then s.capGen else s.capGen + 1 }

/-- Pool k of the Granary (R389): its base and size in 64 KiB chunks; only while no replay runs. The resident pool
takes 8 MiB steps, and takes them from L2. The places of these registers are the model's (log entry 20). -/
def State.poolWrite (s : State) (k j v : Nat) : State :=
  if s.replay.isSome ∨ 3 ≤ k then s
  else
    let p := s.pool k
    if j = 0 then { s with pools := tset s.pools k (bits v 16 28 * 65536, p.2) }
    else if k = 0 ∧ (v % 8388608 ≠ 0 ∨ 67108864 < v) then s
    else State.trimL2 { s with pools := tset s.pools k (p.1, bits v 0 44 / 65536) }

/-- An 8-byte write at offset o of the register window. A command written to the mailbox stands there until firmware answers it
in an event of its own, KEY_LOAD or ATTESTATION (R453). -/
def State.regWrite (s : State) (o v : Nat) : State :=
  let m (lo n : Nat) : Word := wd (bits v lo n * 2 ^ lo)
  if o = 0x100000 then s.triggerWord v
  else if o = 0x200108 then s.loadRoutes v
  else if 0x210000 ≤ o ∧ o < 0x211800 then s.rebind ((o - 0x210000) / 64) (o % 64 / 8) (wd v)
  else if o = 0x220018 then s.postMove v
  else if o = 0x280000 then s.clearInterrupts v
  else if 0x290000 ≤ o ∧ o < 0x290600 then s.ringBlockWrite ((o - 0x290000) / 64) (o % 64) v
  else if o = 0x2B0000 then s.killRequest v
  else if 0x800000 ≤ o ∧ o < 0x1000000 then s.schedWrite (o - 0x800000) v
  else if o = 0x100008 then
    { s with tflags := (List.range 3).foldl (fun t i => if bit v (6 + i) then setBits t (6 + i) 1 0 else t) s.tflags }
  else if 0x200000 ≤ o ∧ o < 0x200100 ∧ o % 16 = 0 then
    { s with sproot := tset s.sproot ((o - 0x200000) / 16) (m 58 6 ||| m 12 32) }
  else if o = 0x200100 then { s with wtBase := m 18 26 }
  else if o = 0x200110 then { s with mcBase := m 16 28 }
  else if o = 0x220000 then { s with heatCtl := m 63 1 ||| m 32 28, decayAt := s.ns + 1000 * 2 ^ heatDecay v }
  else if o = 0x220010 then
    let r := s.migRing.toNat
    let size := if bits v 16 4 ≤ 8 then bits v 16 4 else bits r 16 4
    { s with migRing := wd (bits v 20 24 * 2 ^ 20 + size * 2 ^ 16 + bits r 0 16 % 2 ^ (size + 8)) }
  else if 0x240000 ≤ o ∧ o < 0x243000 then
    let i := o - 0x240000
    ((s.countIdle (i / 0x80)).countBusy (i / 0x80) s.clk).modCore (i / 0x80) fun k => { k with pcsel := tset k.pcsel (i % 0x80 / 8) (m 0 16) }
  else if 0x260000 ≤ o ∧ o < 0x278000 then
    let i := o - 0x260000
    s.counterWrite (i / 0x400) (i % 0x400 / 8) (m 0 64)
  else if o = 0x280008 then
    let en := bits v 0 6
    let newly := (List.range 6).filter fun k => bit en k && !bit s.intEn k && bit s.intStat k
    newly.foldl State.sendVector { s with intEn := en }
  else if o = 0x280018 then { s with apBase := m 36 28 }
  else if 0x281000 ≤ o ∧ o < 0x2810C0 ∧ o % 16 = 8 then
    let p := (o - 0x281000) / 16
    let s := s.putLink p { s.link p with spdMax := bits v 0 2 }
    if bit v 2 then s.clearQuarantine p else s
  else if 0x282000 ≤ o ∧ o < 0x284000 then s.ringWrite ((o - 0x282000) / 32) (o % 32 / 8) v
  else if 0x284000 ≤ o ∧ o < 0x285000 then
    { s with mailbox := setBits s.mailbox (8 * (o - 0x284000)) 64 v, mailAsked := true }
  else if o = 0x285000 then
    if 600 ≤ bits v 0 12 ∧ bits v 0 12 ≤ 2400 then { s with powerCap := bits v 0 12 } else s
  else if 0x2C0000 ≤ o ∧ o < 0x2C0300 then
    let c := (o - 0x2C0000) / 8
    (s.modCore c fun k => { k with saBase := m 63 1 ||| m 18 26 }).choose c
  else if 0x10000000 ≤ o ∧ o < 0x10000030 then s.poolWrite ((o - 0x10000000) / 16) (o % 16 / 8) v
  else s

/-- REGISTER_WINDOW_WRITE o v (R396): offset o, a multiple of 8. -/
def execRegisterWindowWrite (s : State) : Answer := .next (s.regWrite (s.op 0 / 8 * 8) (s.op 1 % 2 ^ 64))

/-! ### Reads -/

/-- A capability record of 32 bytes at offset o (R414): ID, whether it is the last, its two body words. -/
def capRecord (o id : Nat) (last : Bool) (a b : Nat) : Nat :=
  id + 2 ^ 16 + 32 * 2 ^ 32 + (if last then 0 else o + 32) * 2 ^ 64 + a % 2 ^ 64 * 2 ^ 128 + b % 2 ^ 64 * 2 ^ 192

/-- A mask of the expanders that have a property, in enumeration order, those of port 0 first (R415, R442; log entry 36). -/
def State.expanderMask (s : State) (p : Expander → Bool) : Nat :=
  pack 1 (((tget Cxl.absent s.cxl 0).exps ++ (tget Cxl.absent s.cxl 1).exps).map fun e => b2n (p e))

/-- The capability list (R415): the device first, reduced service last while it lasts; then the others tell what is available now. The
places of slots and store bytes in 0x0010, and of the expanders in 0x0022, are the model's (log entry 36). -/
def State.capList (s : State) : List Nat :=
  let x (p : Nat) : Cxl := tget .absent s.cxl p
  let reduced := decide (s.stage < 5)
  let pop (p : Nat) : Nat := if reduced && (x p).down then 0 else (x p).size
  let rings := (s.ringCfg.filter fun p => rgEn p.2).length
  let recs : List (Nat × Nat × Nat) :=
    [(0x0001, s.capGen % 2 ^ 32 * 2 ^ 32 + s.dev % 2 ^ 16 * 2 ^ 16 + Config.stepping % 2 ^ 16, 0), (0x0010, 8 + 1048576 * 2 ^ 32, 0), (0x0011, 1, 0),
     (0x0020, Config.journalBytes, s.expanderMask (·.persistent)), (0x0021, pop 0, pop 1),
     (0x0022, Config.baleHops % 2 ^ 32 + s.expanderMask (·.baleCap) * 2 ^ 32, 0), (0x0030, rings, 0)] ++
      if reduced then [(0x0040, 2 ^ 40 + s.hbmTrained * 2 ^ 32 + s.mhz * 2 ^ 16 + 56, 0)] else []
  recs.zipIdx.map fun r => capRecord (32 * r.2) r.1.1 (r.2 + 1 == recs.length) r.1.2.1 r.1.2.2

/-- TSTAT (R365). -/
def State.tstat (s : State) : Nat :=
  let r := s.replay
  (match r with | some r => r.number | none => s.replayNo) * 2 ^ 32 + (match r with | some r => r.graph * 4096 | none => 0) +
    s.triggers.length * 1024 + b2n r.isSome * 512 + bits s.tflags 6 3 * 64

/-- Crew entry e of a cluster (R373). -/
def Crew.entry (c : Crew) : Nat :=
  c.tag + c.replay * 2 ^ 32 + c.node * 2 ^ 66 + c.stage * 2 ^ 78 + c.accm * 2 ^ 84 + c.sqCnt * 2 ^ 88 + c.sqBase * 2 ^ 97 +
    c.memb * 2 ^ 106 + c.gen * 2 ^ 122 + b2n c.live * 2 ^ 127

/-- LSTAT of a port (R447). -/
def Link.status (l : Link) : Nat :=
  l.peer * 2 ^ 49 + l.pport * 2 ^ 45 + l.st * 2 ^ 42 + l.fails * 2 ^ 40 + l.lmap * 2 ^ 32 + l.width * 2 ^ 24 + l.speed * 2 ^ 22

/-- A cluster's ring block (R489), word j. -/
def Cluster.ringWord (c : Cluster) (j : Nat) : Nat :=
  match j with
  | 0 => c.rbase | 1 => c.rsize | 2 => c.rhead + c.rtail * 2 ^ 17 + c.rcnt * 2 ^ 34 | 3 => c.spills | 4 => c.refills
  | 5 => c.rhigh | _ => 0

/-- Eight bytes of the heat table (R433). -/
def State.heatBytes (s : State) (g : Nat) : Nat :=
  pack 8 ((List.range 8).map fun i => if s.populated (65536 * (g + i)) then tget 0 s.heat (g + i) else 0)

/-- What an 8-byte read at offset o of the register window returns; KEYMB is the firmware's alone and reads 0 (R396). The place of the
migration stall counter (R433) is the model's (log entry 20), and so is RTLOAD's 0 while no load is in progress (DESIGN CHOICE, log
entry 37). -/
def State.regRead (s : State) (o : Nat) : Nat :=
  if o < 0x10000 then bits (nth 0 s.capList (o / 32)) (64 * (o % 32 / 8)) 64
  else if o = 0x100008 then s.tstat
  else if 0x200000 ≤ o ∧ o < 0x200100 then (if o % 16 = 0 then (tget 0 s.sproot ((o - 0x200000) / 16)).toNat else 0)
  else if o = 0x200100 then s.wtBase.toNat
  else if o = 0x200108 then 0
  else if o = 0x200110 then s.mcBase.toNat
  else if o = 0x200400 then s.retCnt
  else if 0x210000 ≤ o ∧ o < 0x211800 then
    let l := tget Lf.unbound (s.core ((o - 0x210000) / 64)).lf (o % 64 / 8)
    l.bind.toNat + l.rqn % 2 ^ 16
  else if o = 0x220000 then s.heatCtl.toNat
  else if o = 0x220008 then s.migStall
  else if o = 0x220010 then s.migRing.toNat
  else if 0x220100 ≤ o ∧ o < 0x2201F0 then tget 0 s.errCnt ((o - 0x220100) / 8)
  else if 0x220400 ≤ o ∧ o < 0x220800 then
    let e := tget (0, 0) s.mchk ((o - 0x220400) / 16)
    if o % 16 = 0 then e.1 else e.2
  else if o = 0x220800 then s.mhead
  else if 0x240000 ≤ o ∧ o < 0x243000 then (tget 0 (s.core ((o - 0x240000) / 0x80)).pcsel (o % 0x80 / 8)).toNat
  else if 0x260000 ≤ o ∧ o < 0x278000 then (s.counter ((o - 0x260000) / 0x400) (o % 0x400 / 8)).toNat
  else if o = 0x280000 then s.intStat
  else if o = 0x280008 then s.intEn
  else if o = 0x280010 then s.cmpCnt
  else if o = 0x280018 then s.apBase.toNat
  else if o = 0x280020 then s.hostErr
  else if 0x281000 ≤ o ∧ o < 0x2810C0 then
    let l := s.link ((o - 0x281000) / 16)
    if o % 16 = 0 then l.status else l.spdMax
  else if 0x282000 ≤ o ∧ o < 0x284000 then bits (tget 0 s.ringCfg ((o - 0x282000) / 32)) (64 * (o % 32 / 8)) 64
  else if 0x284000 ≤ o ∧ o < 0x285000 then bits s.mailbox (8 * (o - 0x284000)) 64
  else if o = 0x285000 then s.temp * 2 ^ 16 + s.throttle * 2 ^ 12 + s.powerCap
  else if 0x290000 ≤ o ∧ o < 0x290600 then (s.cluster ((o - 0x290000) / 64)).ringWord (o % 64 / 8)
  else if 0x2A0000 ≤ o ∧ o < 0x2A6000 then
    let i := o - 0x2A0000
    bits (tget Crew.free (s.cluster (i / 1024)).crews (i % 1024 / 16)).entry (64 * (o % 16 / 8)) 64
  else if o = 0x2B0008 then s.killSt.toNat
  else if 0x2C0000 ≤ o ∧ o < 0x2C0300 then (s.core ((o - 0x2C0000) / 8)).saBase.toNat
  else if 0x800000 ≤ o ∧ o < 0x1000000 then s.sm (o - 0x800000) 8
  else if 0x7000000 ≤ o ∧ o < 0x7800000 then s.heatBytes (o - 0x7000000)
  else if 0x7800000 ≤ o ∧ o < 0x10000000 then s.heatBytes (0x1000000 + (o - 0x7800000))
  else 0

/-! ### The host's BARs (R438) -/

/-- A host read of the register window returns once every earlier write has taken effect (R439): a counter that the supervisor wrote
holds what was written, though it has counted nothing since (R427; how the two rules meet is DEDUCED, log entry 36). -/
def State.settleCounters (s : State) : State :=
  let s := s.cores.foldl (fun s p => match p.2.counterNew.find? (·.1 == 0x020) with
    | some q => s.modCluster (p.1 / 4) fun c => { c with rqst := q.2 }
    | none => s) s
  { s with
    ns := s.nsNew.getD s.ns, nsNew := none
    cores := s.cores.map fun p => (p.1, { p.2 with
      counters := (p.2.counterNew.filter (·.1 != 0x020)).foldl (fun t q => tset t q.1 q.2) p.2.counters, counterNew := [] }) }

/-- Whether n bytes of the aperture from an address are device memory that the host reaches: every 4 KiB of them. -/
def State.hostReaches (s : State) (pa n : Nat) : Bool :=
  (List.range ((pa + (n - 1)) / 4096 - pa / 4096 + 1)).all fun i =>
    let a := (pa / 4096 + i) * 4096
    isGlobal a && s.populated a && !s.retired.contains (a / 65536)

/-- BAR 4: the MSI-X table's eight entries of 16 bytes from its start, the pending-bit array from its middle; the places and an
entry's fields are those of PCIe (PRESUMED, log entry 25). Only aligned accesses of 4 or 8 bytes reach it. -/
def barFour (b n : Nat) : Bool := (n == 4 || n == 8) && b % n == 0
def State.msixRead (s : State) (b n : Nat) : Nat :=
  if b < 128 then bits (tget msixMasked s.msixTable (b / 16)) (8 * (b % 16)) (8 * n)
  else if b = 0x8000 then s.msixPending
  else 0

/-- A vector whose entry masks it no longer is sent if it is pending. -/
def State.msixWrite (s : State) (b n v : Nat) : State :=
  if b < 128 then
    let k := b / 16
    let e := setBits (tget msixMasked s.msixTable k) (8 * (b % 16)) (8 * n) v
    let s := { s with msixTable := tset s.msixTable k e }
    if bit s.msixPending k && !bit e 96 then { s with msixPending := setBits s.msixPending k 1 0, msix := s.msix ++ [k] } else s
  else s

/-- HOST_APERTURE_READ b n, and operand 3 where another BAR than 2 is read, 1 for BAR 0 and 2 for BAR 4: what it returns is noted. -/
def execHostApertureRead (s : State) : Answer :=
  let pa := s.apBase.toNat + s.op 0
  let n := s.op 1
  .next (match s.op 3 with
    | 1 =>
      if s.op 0 < 2 ^ 28 then
        let s := if 0x260000 ≤ s.op 0 ∧ s.op 0 < 0x278000 then s.settleCounters else s
        { s with hostData := s.regRead (s.op 0 / 8 * 8) }
      else s
    | 2 => if barFour (s.op 0) n then { s with hostData := s.msixRead (s.op 0) n } else s
    | _ =>
      if n = 0 ∨ 2 ^ 36 < s.op 0 + n then s
      else if s.hostReaches pa n then { (s.downAccess pa) with hostData := s.readPa 0 pa n }
      else { s with hostData := 2 ^ (8 * n) - 1, hostErr := s.hostErr + 1 })

/-- HOST_APERTURE_WRITE b n v, and operand 3 as of a read: a .sys agent's write; to a page being moved it waits (R230). -/
def execHostApertureWrite (s : State) : Answer :=
  let pa := s.apBase.toNat + s.op 0
  let n := s.op 1
  .next (if s.op 3 = 1 then (if s.op 0 < 2 ^ 28 then s.regWrite (s.op 0 / 8 * 8) (s.op 2 % 2 ^ 64) else s)
    else if s.op 3 = 2 then (if barFour (s.op 0) n then s.msixWrite (s.op 0) n (s.op 2) else s)
    else if n = 0 ∨ 2 ^ 36 < s.op 0 + n then s
    else if !s.hostReaches pa n then { s with hostErr := s.hostErr + 1 }
    else if (List.range ((pa + n - 1) / 65536 - pa / 65536 + 1)).any (fun i => s.writesHeld (65536 * (pa / 65536 + i))) then s
    else s.perform 0 0 0 0 pa n (s.op 2))

end Sys2Proof.Machine
end

