-- ==== Sys2Proof/Machine/Dispatch.lean ====
section
/-! DEFINITION. Each instruction and each event, to its meaning. -/

namespace Sys2Proof.Machine

def exec (i : Instr) (s : State) : Host.Outcome State Fault Refusal :=
  match i with
  | .add d a b => Sys2Proof.Machine.execAdd d a b s
  | .sub d a b => Sys2Proof.Machine.execSub d a b s
  | .and d a b => Sys2Proof.Machine.execAnd d a b s
  | .or d a b => Sys2Proof.Machine.execOr d a b s
  | .xor d a b => Sys2Proof.Machine.execXor d a b s
  | .andn d a b => Sys2Proof.Machine.execAndn d a b s
  | .shl d a b => Sys2Proof.Machine.execShl d a b s
  | .shr d a b => Sys2Proof.Machine.execShr d a b s
  | .sar d a b => Sys2Proof.Machine.execSar d a b s
  | .ror d a b => Sys2Proof.Machine.execRor d a b s
  | .minI64 d a b => Sys2Proof.Machine.execMinI64 d a b s
  | .minN64 d a b => Sys2Proof.Machine.execMinN64 d a b s
  | .maxI64 d a b => Sys2Proof.Machine.execMaxI64 d a b s
  | .maxN64 d a b => Sys2Proof.Machine.execMaxN64 d a b s
  | .addsI64 d a b => Sys2Proof.Machine.execAddsI64 d a b s
  | .addsN64 d a b => Sys2Proof.Machine.execAddsN64 d a b s
  | .subsI64 d a b => Sys2Proof.Machine.execSubsI64 d a b s
  | .subsN64 d a b => Sys2Proof.Machine.execSubsN64 d a b s
  | .mul d a b => Sys2Proof.Machine.execMul d a b s
  | .mulhI64 d a b => Sys2Proof.Machine.execMulhI64 d a b s
  | .mulhN64 d a b => Sys2Proof.Machine.execMulhN64 d a b s
  | .clz d a => Sys2Proof.Machine.execClz d a s
  | .ctz d a => Sys2Proof.Machine.execCtz d a s
  | .popc d a => Sys2Proof.Machine.execPopc d a s
  | .neg d a => Sys2Proof.Machine.execNeg d a s
  | .not d a => Sys2Proof.Machine.execNot d a s
  | .abs d a => Sys2Proof.Machine.execAbs d a s
  | .sx8 d a => Sys2Proof.Machine.execSx8 d a s
  | .sx16 d a => Sys2Proof.Machine.execSx16 d a s
  | .sx32 d a => Sys2Proof.Machine.execSx32 d a s
  | .zx8 d a => Sys2Proof.Machine.execZx8 d a s
  | .zx16 d a => Sys2Proof.Machine.execZx16 d a s
  | .zx32 d a => Sys2Proof.Machine.execZx32 d a s
  | .brev d a => Sys2Proof.Machine.execBrev d a s
  | .bswap d a => Sys2Proof.Machine.execBswap d a s
  | .divI64 d a b => Sys2Proof.Machine.execDivI64 d a b s
  | .divN64 d a b => Sys2Proof.Machine.execDivN64 d a b s
  | .remI64 d a b => Sys2Proof.Machine.execRemI64 d a b s
  | .remN64 d a b => Sys2Proof.Machine.execRemN64 d a b s
  | .cmp d a b c => Sys2Proof.Machine.execCmp d a b c s
  | .addi d a im => Sys2Proof.Machine.execAddi d a im s
  | .andi d a im => Sys2Proof.Machine.execAndi d a im s
  | .ori d a im => Sys2Proof.Machine.execOri d a im s
  | .xori d a im => Sys2Proof.Machine.execXori d a im s
  | .shli d a n => Sys2Proof.Machine.execShli d a n s
  | .shri d a n => Sys2Proof.Machine.execShri d a n s
  | .sari d a n => Sys2Proof.Machine.execSari d a n s
  | .rori d a n => Sys2Proof.Machine.execRori d a n s
  | .cmpi d a c im => Sys2Proof.Machine.execCmpi d a c im s
  | .movi d im => Sys2Proof.Machine.execMovi d im s
  | .movk d a im => Sys2Proof.Machine.execMovk d a im s
  | .lea d a im => Sys2Proof.Machine.execLea d a im s
  | .bextN64 d a l p => Sys2Proof.Machine.execBextN64 d a l p s
  | .bextI64 d a l p => Sys2Proof.Machine.execBextI64 d a l p s
  | .bins d a l p => Sys2Proof.Machine.execBins d a l p s
  | .crd d n => Sys2Proof.Machine.execCrd d n s
  | .cwr a n => Sys2Proof.Machine.execCwr a n s
  | .gset a f im => Sys2Proof.Machine.execGset a f im s
  | .gget d f im => Sys2Proof.Machine.execGget d f im s
  | .ld d a t o => Sys2Proof.Machine.execLd d a t o s
  | .st d a t o => Sys2Proof.Machine.execSt d a t o s
  | .ldx d o => Sys2Proof.Machine.execLdx d o s
  | .stx d o => Sys2Proof.Machine.execStx d o s
  | .ldAcq d a sc z o => Sys2Proof.Machine.execLdAcq d a sc z o s
  | .stRel d a sc z o => Sys2Proof.Machine.execStRel d a sc z o s
  | .amoAdd d a b sc o z => Sys2Proof.Machine.execAmoAdd d a b sc o z s
  | .amoAnd d a b sc o z => Sys2Proof.Machine.execAmoAnd d a b sc o z s
  | .amoOr d a b sc o z => Sys2Proof.Machine.execAmoOr d a b sc o z s
  | .amoXor d a b sc o z => Sys2Proof.Machine.execAmoXor d a b sc o z s
  | .amoMinI d a b sc o z => Sys2Proof.Machine.execAmoMinI d a b sc o z s
  | .amoMaxI d a b sc o z => Sys2Proof.Machine.execAmoMaxI d a b sc o z s
  | .amoMinN d a b sc o z => Sys2Proof.Machine.execAmoMinN d a b sc o z s
  | .amoMaxN d a b sc o z => Sys2Proof.Machine.execAmoMaxN d a b sc o z s
  | .amoSwap d a b sc o z => Sys2Proof.Machine.execAmoSwap d a b sc o z s
  | .amoFadd d a b sc o z => Sys2Proof.Machine.execAmoFadd d a b sc o z s
  | .cas d a b sc o z => Sys2Proof.Machine.execCas d a b sc o z s
  | .fence d sc => Sys2Proof.Machine.execFence d sc s
  | .fwait a => Sys2Proof.Machine.execFwait a s
  | .publish a sc => Sys2Proof.Machine.execPublish a sc s
  | .xformSplit d a b f => Sys2Proof.Machine.execXformSplit d a b f s
  | .xformMerge d a b f => Sys2Proof.Machine.execXformMerge d a b f s
  | .xformConv d a b f g => Sys2Proof.Machine.execXformConv d a b f g s
  | .xformZero d b => Sys2Proof.Machine.execXformZero d b s
  | .xformBpack d a b => Sys2Proof.Machine.execXformBpack d a b s
  | .xformBunpack d a b => Sys2Proof.Machine.execXformBunpack d a b s
  | .phaseStart a n m => Sys2Proof.Machine.execPhaseStart a n m s
  | .ckseal d a n => Sys2Proof.Machine.execCkseal d a n s
  | .spawn d a n => Sys2Proof.Machine.execSpawn d a n s
  | .suspend sc p f => Sys2Proof.Machine.execSuspend sc p f s
  | .crewJoin d a => Sys2Proof.Machine.execCrewJoin d a s
  | .crewInfo d a => Sys2Proof.Machine.execCrewInfo d a s
  | .wvpin d a => Sys2Proof.Machine.execWvpin d a s
  | .wvpinT d a b => Sys2Proof.Machine.execWvpinT d a b s
  | .wvget d a => Sys2Proof.Machine.execWvget d a s
  | .wvgetT d a b => Sys2Proof.Machine.execWvgetT d a b s
  | .wvrel d a => Sys2Proof.Machine.execWvrel d a s
  | .wvrelT d a b => Sys2Proof.Machine.execWvrelT d a b s
  | .wvnewStage d a => Sys2Proof.Machine.execWvnewStage d a s
  | .wvnewPub a => Sys2Proof.Machine.execWvnewPub a s
  | .arrive d a b => Sys2Proof.Machine.execArrive d a b s
  | .mwaitN32 d a b => Sys2Proof.Machine.execMwaitN32 d a b s
  | .mwaitN64 d a b => Sys2Proof.Machine.execMwaitN64 d a b s
  | .gtrig d a b => Sys2Proof.Machine.execGtrig d a b s
  | .barInit a b => Sys2Proof.Machine.execBarInit a b s
  | .barExpect a b => Sys2Proof.Machine.execBarExpect a b s
  | .barArrive d a b => Sys2Proof.Machine.execBarArrive d a b s
  | .barWait d a b => Sys2Proof.Machine.execBarWait d a b s
  | .barTest d a b => Sys2Proof.Machine.execBarTest d a b s
  | .rdcnt d n => Sys2Proof.Machine.execRdcnt d n s
  | .rbeg l => Sys2Proof.Machine.execRbeg l s
  | .chkt a b => Sys2Proof.Machine.execChkt a b s
  | .dormArm d a => Sys2Proof.Machine.execDormArm d a s
  | .dormDisarm d a => Sys2Proof.Machine.execDormDisarm d a s
  | .dormCount d => Sys2Proof.Machine.execDormCount d s
  | .vfadd d a b => Sys2Proof.Machine.execVfadd d a b s
  | .vfsub d a b => Sys2Proof.Machine.execVfsub d a b s
  | .vfmul d a b => Sys2Proof.Machine.execVfmul d a b s
  | .vfmin d a b => Sys2Proof.Machine.execVfmin d a b s
  | .vfmax d a b => Sys2Proof.Machine.execVfmax d a b s
  | .vfsgn d a b => Sys2Proof.Machine.execVfsgn d a b s
  | .vfma d a b c => Sys2Proof.Machine.execVfma d a b c s
  | .vfms d a b c => Sys2Proof.Machine.execVfms d a b c s
  | .vnfma d a b c => Sys2Proof.Machine.execVnfma d a b c s
  | .vnfms d a b c => Sys2Proof.Machine.execVnfms d a b c s
  | .viadd d a b => Sys2Proof.Machine.execViadd d a b s
  | .visub d a b => Sys2Proof.Machine.execVisub d a b s
  | .vimul d a b => Sys2Proof.Machine.execVimul d a b s
  | .vimulh d a b => Sys2Proof.Machine.execVimulh d a b s
  | .vand d a b => Sys2Proof.Machine.execVand d a b s
  | .vor d a b => Sys2Proof.Machine.execVor d a b s
  | .vxor d a b => Sys2Proof.Machine.execVxor d a b s
  | .vandn d a b => Sys2Proof.Machine.execVandn d a b s
  | .vshl d a b => Sys2Proof.Machine.execVshl d a b s
  | .vshr d a b => Sys2Proof.Machine.execVshr d a b s
  | .vsar d a b => Sys2Proof.Machine.execVsar d a b s
  | .vimin d a b => Sys2Proof.Machine.execVimin d a b s
  | .vimax d a b => Sys2Proof.Machine.execVimax d a b s
  | .viadds d a b => Sys2Proof.Machine.execViadds d a b s
  | .visubs d a b => Sys2Proof.Machine.execVisubs d a b s
  | .viabs d a => Sys2Proof.Machine.execViabs d a s
  | .vineg d a => Sys2Proof.Machine.execVineg d a s
  | .vcmp d a b k => Sys2Proof.Machine.execVcmp d a b k s
  | .vcmpm a b k => Sys2Proof.Machine.execVcmpm a b k s
  | .vsel d a b c => Sys2Proof.Machine.execVsel d a b c s
  | .vsels d a b c => Sys2Proof.Machine.execVsels d a b c s
  | .vcvt d a p sc => Sys2Proof.Machine.execVcvt d a p sc s
  | .vcvtTote d a m => Sys2Proof.Machine.execVcvtTote d a m s
  | .vcvtFrte d a m => Sys2Proof.Machine.execVcvtFrte d a m s
  | .vfabs d a => Sys2Proof.Machine.execVfabs d a s
  | .vfneg d a => Sys2Proof.Machine.execVfneg d a s
  | .vsqrt d a => Sys2Proof.Machine.execVsqrt d a s
  | .vrcp d a => Sys2Proof.Machine.execVrcp d a s
  | .vrsqrt d a => Sys2Proof.Machine.execVrsqrt d a s
  | .vexp2 d a => Sys2Proof.Machine.execVexp2 d a s
  | .vexp d a => Sys2Proof.Machine.execVexp d a s
  | .vlog2 d a => Sys2Proof.Machine.execVlog2 d a s
  | .vtanh d a => Sys2Proof.Machine.execVtanh d a s
  | .vsigm d a => Sys2Proof.Machine.execVsigm d a s
  | .vperm d a b => Sys2Proof.Machine.execVperm d a b s
  | .vperm2 d a b c => Sys2Proof.Machine.execVperm2 d a b c s
  | .vzipl d a b => Sys2Proof.Machine.execVzipl d a b s
  | .vziph d a b => Sys2Proof.Machine.execVziph d a b s
  | .vunze d a b => Sys2Proof.Machine.execVunze d a b s
  | .vunzo d a b => Sys2Proof.Machine.execVunzo d a b s
  | .vrot d a n => Sys2Proof.Machine.execVrot d a n s
  | .vshd d a n => Sys2Proof.Machine.execVshd d a n s
  | .vcat d a b n => Sys2Proof.Machine.execVcat d a b n s
  | .vredadd d a => Sys2Proof.Machine.execVredadd d a s
  | .vredmin d a => Sys2Proof.Machine.execVredmin d a s
  | .vredmax d a => Sys2Proof.Machine.execVredmax d a s
  | .vredand d a => Sys2Proof.Machine.execVredand d a s
  | .vredor d a => Sys2Proof.Machine.execVredor d a s
  | .vredxor d a => Sys2Proof.Machine.execVredxor d a s
  | .vscanadd d a => Sys2Proof.Machine.execVscanadd d a s
  | .vscanmin d a => Sys2Proof.Machine.execVscanmin d a s
  | .vscanmax d a => Sys2Proof.Machine.execVscanmax d a s
  | .vscanxadd d a => Sys2Proof.Machine.execVscanxadd d a s
  | .vscanxmin d a => Sys2Proof.Machine.execVscanxmin d a s
  | .vscanxmax d a => Sys2Proof.Machine.execVscanxmax d a s
  | .vcomp d a => Sys2Proof.Machine.execVcomp d a s
  | .vexpd d a => Sys2Proof.Machine.execVexpd d a s
  | .vm2v d => Sys2Proof.Machine.execVm2v d s
  | .vnzm a => Sys2Proof.Machine.execVnzm a s
  | .vmovi d im => Sys2Proof.Machine.execVmovi d im s
  | .vmovih d im => Sys2Proof.Machine.execVmovih d im s
  | .vext d a l => Sys2Proof.Machine.execVext d a l s
  | .vexts d a l => Sys2Proof.Machine.execVexts d a l s
  | .vext64 d a l => Sys2Proof.Machine.execVext64 d a l s
  | .vaccr d b q u => Sys2Proof.Machine.execVaccr d b q u s
  | .vaccw a b q u => Sys2Proof.Machine.execVaccw a b q u s
  | .vaccrF64 d b q u => Sys2Proof.Machine.execVaccrF64 d b q u s
  | .vaccwF64 a b q u => Sys2Proof.Machine.execVaccwF64 a b q u s
  | .vld d a m => Sys2Proof.Machine.execVld d a m s
  | .vst a c m => Sys2Proof.Machine.execVst a c m s
  | .vgat d a b => Sys2Proof.Machine.execVgat d a b s
  | .vscat a b c => Sys2Proof.Machine.execVscat a b c s
  | .vqh d k => Sys2Proof.Machine.execVqh d k s
  | .vchk a b => Sys2Proof.Machine.execVchk a b s
  | .tmm g x y => Sys2Proof.Machine.execTmm g x y s
  | .tmmt g x y => Sys2Proof.Machine.execTmmt g x y s
  | .tlx g x y => Sys2Proof.Machine.execTlx g x y s
  | .tlxT g x y => Sys2Proof.Machine.execTlxT g x y s
  | .tlxX g x y => Sys2Proof.Machine.execTlxX g x y s
  | .tlxTx g x y => Sys2Proof.Machine.execTlxTx g x y s
  | .tla g x y => Sys2Proof.Machine.execTla g x y s
  | .tlaT g x y => Sys2Proof.Machine.execTlaT g x y s
  | .tproj g x y => Sys2Proof.Machine.execTproj g x y s
  | .tlplE g x y => Sys2Proof.Machine.execTlplE g x y s
  | .tlplA g x y => Sys2Proof.Machine.execTlplA g x y s
  | .tlplEa g x y => Sys2Proof.Machine.execTlplEa g x y s
  | .tzero m => Sys2Proof.Machine.execTzero m s
  | .tldacc f x y u => Sys2Proof.Machine.execTldacc f x y u s
  | .tstacc f x y u => Sys2Proof.Machine.execTstacc f x y u s
  | .tstaccG f x y u => Sys2Proof.Machine.execTstaccG f x y u s
  | .tscale x y m => Sys2Proof.Machine.execTscale x y m s
  | .cpy c g x y f => Sys2Proof.Machine.execCpy c g x y f s
  | .cpym c g x y m f => Sys2Proof.Machine.execCpym c g x y m f s
  | .rdx c g x y m f => Sys2Proof.Machine.execRdx c g x y m f s
  | .drain c => Sys2Proof.Machine.execDrain c s
  | .qpush k x y => Sys2Proof.Machine.execQpush k x y s
  | .stash c g x y => Sys2Proof.Machine.execStash c g x y s
  | .unstash c g x y f => Sys2Proof.Machine.execUnstash c g x y f s
  | .sdrop c y => Sys2Proof.Machine.execSdrop c y s
  | .chsend c g x y => Sys2Proof.Machine.execChsend c g x y s
  | .chack c y => Sys2Proof.Machine.execChack c y s
  | .glean c g x y => Sys2Proof.Machine.execGlean c g x y s
  | .br c a o => Sys2Proof.Machine.execBr c a o s
  | .call o => Sys2Proof.Machine.execCall o s
  | .jr a => Sys2Proof.Machine.execJr a s
  | .jrl a => Sys2Proof.Machine.execJrl a s
  | .loopEnter a o => Sys2Proof.Machine.execLoopEnter a o s
  | .loop a o => Sys2Proof.Machine.execLoop a o s
  | .mpush a => Sys2Proof.Machine.execMpush a s
  | .mpushRaw a => Sys2Proof.Machine.execMpushRaw a s
  | .mpop n => Sys2Proof.Machine.execMpop n s
  | .bnone o => Sys2Proof.Machine.execBnone o s
  | .fmtw a => Sys2Proof.Machine.execFmtw a s
  | .fmtwVty v => Sys2Proof.Machine.execFmtwVty v s
  | .fmtwMab b a => Sys2Proof.Machine.execFmtwMab b a s
  | .fmtwRnd im sc r => Sys2Proof.Machine.execFmtwRnd im sc r s
  | .trap c a k => Sys2Proof.Machine.execTrap c a k s
  | .sysc k => Sys2Proof.Machine.execSysc k s
  | .ebrk k => Sys2Proof.Machine.execEbrk k s
  | .halt k => Sys2Proof.Machine.execHalt k s
  | .nopS => Sys2Proof.Machine.execNopS s
  | .phaseCommitCore => Sys2Proof.Machine.execPhaseCommitCore s
  | .phaseCommitClu => Sys2Proof.Machine.execPhaseCommitClu s
  | .phaseCommitDev => Sys2Proof.Machine.execPhaseCommitDev s
  | .phaseCommitSys => Sys2Proof.Machine.execPhaseCommitSys s
  | .phaseCommitRcv => Sys2Proof.Machine.execPhaseCommitRcv s
  | .phaseAbort => Sys2Proof.Machine.execPhaseAbort s
  | .exit => Sys2Proof.Machine.execExit s
  | .crewLeave => Sys2Proof.Machine.execCrewLeave s
  | .rcom => Sys2Proof.Machine.execRcom s
  | .nopV => Sys2Proof.Machine.execNopV s
  | .nopM => Sys2Proof.Machine.execNopM s
  | .twait => Sys2Proof.Machine.execTwait s
  | .nopC => Sys2Proof.Machine.execNopC s
  | .nopX => Sys2Proof.Machine.execNopX s
  | .minv => Sys2Proof.Machine.execMinv s
  | .fmtwBlk00 => Sys2Proof.Machine.execFmtwBlk00 s
  | .fmtwBlk01 => Sys2Proof.Machine.execFmtwBlk01 s
  | .fmtwBlk10 => Sys2Proof.Machine.execFmtwBlk10 s
  | .fmtwBlk11 => Sys2Proof.Machine.execFmtwBlk11 s
  | .yield => Sys2Proof.Machine.execYield s
  | .bundleIssue => Sys2Proof.Machine.execBundleIssue s
  | .bundleCommit => Sys2Proof.Machine.execBundleCommit s
  | .resultLanding => Sys2Proof.Machine.execResultLanding s
  | .globalLoadReturn => Sys2Proof.Machine.execGlobalLoadReturn s
  | .phaseReissue => Sys2Proof.Machine.execPhaseReissue s
  | .walkComplete => Sys2Proof.Machine.execWalkComplete s
  | .killComplete => Sys2Proof.Machine.execKillComplete s
  | .contextLeave => Sys2Proof.Machine.execContextLeave s
  | .preemptionSwitch => Sys2Proof.Machine.execPreemptionSwitch s
  | .dispatch => Sys2Proof.Machine.execDispatch s
  | .readyEntryAging => Sys2Proof.Machine.execReadyEntryAging s
  | .arrivalPost => Sys2Proof.Machine.execArrivalPost s
  | .arrivalQueueAging => Sys2Proof.Machine.execArrivalQueueAging s
  | .squareZeroingComplete => Sys2Proof.Machine.execSquareZeroingComplete s
  | .trig => Sys2Proof.Machine.execTrig s
  | .replayStart => Sys2Proof.Machine.execReplayStart s
  | .prefetchComplete => Sys2Proof.Machine.execPrefetchComplete s
  | .granaryRequest => Sys2Proof.Machine.execGranaryRequest s
  | .killreq => Sys2Proof.Machine.execKillreq s
  | .schedulerMemoryWrite => Sys2Proof.Machine.execSchedulerMemoryWrite s
  | .ringBlockWrite => Sys2Proof.Machine.execRingBlockWrite s
  | .splitChange => Sys2Proof.Machine.execSplitChange s
  | .tlbInvalidate => Sys2Proof.Machine.execTlbInvalidate s
  | .invalidationComplete => Sys2Proof.Machine.execInvalidationComplete s
  | .rtload => Sys2Proof.Machine.execRtload s
  | .routeTableSwitch => Sys2Proof.Machine.execRouteTableSwitch s
  | .migcmd => Sys2Proof.Machine.execMigcmd s
  | .migrationMoveComplete => Sys2Proof.Machine.execMigrationMoveComplete s
  | .migrationReport => Sys2Proof.Machine.execMigrationReport s
  | .memoryControllerAccess => Sys2Proof.Machine.execMemoryControllerAccess s
  | .heatDecay => Sys2Proof.Machine.execHeatDecay s
  | .clrq => Sys2Proof.Machine.execClrq s
  | .keyLoad => Sys2Proof.Machine.execKeyLoad s
  | .attestation => Sys2Proof.Machine.execAttestation s
  | .firmwareUpdate => Sys2Proof.Machine.execFirmwareUpdate s
  | .granuleRetire => Sys2Proof.Machine.execGranuleRetire s
  | .hostApertureRead => Sys2Proof.Machine.execHostApertureRead s
  | .hostApertureWrite => Sys2Proof.Machine.execHostApertureWrite s
  | .intstatClear => Sys2Proof.Machine.execIntstatClear s
  | .registerWindowWrite => Sys2Proof.Machine.execRegisterWindowWrite s
  | .parkTimeout => Sys2Proof.Machine.execParkTimeout s
  | .contextWake => Sys2Proof.Machine.execContextWake s
  | .spinPark => Sys2Proof.Machine.execSpinPark s
  | .remoteTimeout => Sys2Proof.Machine.execRemoteTimeout s
  | .packetHop => Sys2Proof.Machine.execPacketHop s
  | .ownerRequest => Sys2Proof.Machine.execOwnerRequest s
  | .remoteReply => Sys2Proof.Machine.execRemoteReply s
  | .storeAck => Sys2Proof.Machine.execStoreAck s
  | .publishFlip => Sys2Proof.Machine.execPublishFlip s
  | .tcBlockLand => Sys2Proof.Machine.execTcBlockLand s
  | .tcCreditReturn => Sys2Proof.Machine.execTcCreditReturn s
  | .recipientAck => Sys2Proof.Machine.execRecipientAck s
  | .copySegment => Sys2Proof.Machine.execCopySegment s
  | .copyComplete => Sys2Proof.Machine.execCopyComplete s
  | .handlerStart => Sys2Proof.Machine.execHandlerStart s
  | .chainedWordPlace => Sys2Proof.Machine.execChainedWordPlace s
  | .chainedWordAccept => Sys2Proof.Machine.execChainedWordAccept s
  | .mtWordStart => Sys2Proof.Machine.execMtWordStart s
  | .sequencerStep => Sys2Proof.Machine.execSequencerStep s
  | .mtWordComplete => Sys2Proof.Machine.execMtWordComplete s
  | .xformComplete => Sys2Proof.Machine.execXformComplete s
  | .releasePerformed => Sys2Proof.Machine.execReleasePerformed s
  | .fwaitComplete => Sys2Proof.Machine.execFwaitComplete s
  | .cksealComplete => Sys2Proof.Machine.execCksealComplete s
  | .cellarPersist => Sys2Proof.Machine.execCellarPersist s
  | .l2Eviction => Sys2Proof.Machine.execL2Eviction s
  | .containmentEvent => Sys2Proof.Machine.execContainmentEvent s
  | .replayFromSeal => Sys2Proof.Machine.execReplayFromSeal s
  | .deviceReset => Sys2Proof.Machine.execDeviceReset s
  | .ioDieReset => Sys2Proof.Machine.execIoDieReset s
  | .powerOn => Sys2Proof.Machine.execPowerOn s
  | .reducedServiceEnd => Sys2Proof.Machine.execReducedServiceEnd s
  | .thermalContainment => Sys2Proof.Machine.execThermalContainment s
  | .thermalRelease => Sys2Proof.Machine.execThermalRelease s
  | .throttleDown => Sys2Proof.Machine.execThrottleDown s
  | .throttleStepUp => Sys2Proof.Machine.execThrottleStepUp s
  | .linkDown => Sys2Proof.Machine.execLinkDown s
  | .flitReceive => Sys2Proof.Machine.execFlitReceive s
  | .linkRetrain => Sys2Proof.Machine.execLinkRetrain s
  | .linkStateFrame => Sys2Proof.Machine.execLinkStateFrame s
  | .linkTrainingAttempt => Sys2Proof.Machine.execLinkTrainingAttempt s
  | .linkRetryTimer => Sys2Proof.Machine.execLinkRetryTimer s
  | .linkQuarantine => Sys2Proof.Machine.execLinkQuarantine s
  | .cxlPortDown => Sys2Proof.Machine.execCxlPortDown s
  | .gleanerFrame => Sys2Proof.Machine.execGleanerFrame s
  | .gleanerResend => Sys2Proof.Machine.execGleanerResend s
  | .gleanerRingFailure => Sys2Proof.Machine.execGleanerRingFailure s
  | .patrolScrub => Sys2Proof.Machine.execPatrolScrub s
  | .rptFirmwareWrite => Sys2Proof.Machine.execRptFirmwareWrite s
  | .linkBindingWrite => Sys2Proof.Machine.execLinkBindingWrite s
  | .powerLoss => Sys2Proof.Machine.execPowerLoss s
  | .hbmStackTrained => Sys2Proof.Machine.execHbmStackTrained s
  | .ethernetPortStateChange => Sys2Proof.Machine.execEthernetPortStateChange s
  | .gleanerRequest => Sys2Proof.Machine.execGleanerRequest s
  | .publishStatusReturn => Sys2Proof.Machine.execPublishStatusReturn s

end Sys2Proof.Machine
end

