-- ==== Sys2Proof/Machine/Run.lean ====
section
/-! DEFINITION. What the device does next (R22 to R28, R73): the events it can take by itself, a bundle's slots one after
another, and the place of an instruction word for the host's probe. -/

namespace Sys2Proof.Machine

/-! ### Events that the device takes by itself -/

/-- The cycle by which a wait ends (R25). -/
def Wait.until_ : Wait → Option Nat
  | .line _ d _ _ _ => some d
  | .bar _ d => some d
  | .fence _ d => some d
  | .seal _ _ _ d => some d
  | .valid _ _ _ _ _ d => some d
  | .drain _ d => some d
  | _ => .none

/-- The event that a context's wait ends in. -/
def State.waitEvents (s : State) (c j : Nat) (x : Ctx) : List (Instr × List Nat) :=
  let late : List (Instr × List Nat) := if (x.wait.until_.map fun d => decide (d ≤ s.clk)).getD false then [(.parkTimeout, [c, j])] else []
  match x.wait with
  | .kill _ => if s.copiesOf x.uid then [] else [(.killComplete, [c, j])]
  | .rollback n => if x.bank.isNone || (n == 0 && s.phaseCopies c x.uid) then [] else [(.phaseReissue, [c, j])]
  | .fence t _ => if s.fwaitReady c j t then [(.fwaitComplete, [c, j])] else late
  | .seal .. => if s.fwaitReady c j (wd (4 * 2 ^ 61 + 2 ^ 48 - 1)) then [(.cksealComplete, [c, j])] else late
  | .valid .. => [(.cksealComplete, [c, j])]
  | _ => if s.wakeDue c j then [(.contextWake, [c, j])] else late

/-- What a context comes to by itself: the end of its wait, a result, a release. -/
def State.ctxEvents (s : State) (c j : Nat) (x : Ctx) : List (Instr × List Nat) :=
  s.waitEvents c j x ++
    (if x.bank.isNone then []
      else (List.range (x.loads.filter fun l => l.done.isSome && !l.held).length).map fun i => (.globalLoadReturn, [c, j, i])) ++
    (if s.releaseReady c j then [(.releasePerformed, [c, j])] else [])

/-- The earliest cycle by which a context's wait ends. -/
def State.deadline (s : State) : Option Nat :=
  (s.cores.flatMap fun p => p.2.ctxs.filterMap fun q => q.2.wait.until_).foldl (fun a d => match a with
    | none => some d
    | some b => some (min b d)) none

/-- Whether no context's wait must end before a cycle. -/
def State.inTime (s : State) (t : Nat) : Bool := (s.deadline.map fun d => decide (t ≤ d)).getD true

/-- The waits that must end now (R25). -/
def State.dueWakes (s : State) : List (Instr × List Nat) :=
  s.cores.flatMap fun p => (p.2.ctxs.filter fun q => (q.2.wait.until_.map fun d => decide (d ≤ s.clk)).getD false).flatMap fun q =>
    s.waitEvents p.1 q.1 q.2

/-- What the running context of a core comes to, but for issuing. -/
def State.runningEvents (s : State) (c j : Nat) (x : Ctx) : List (Instr × List Nat) :=
  (if s.canLeave c j then [(.contextLeave, [c])] else []) ++
    (if x.wait == .none && s.safeNext c j && x.land.isEmpty && !s.seqBusyAt c then [(.preemptionSwitch, [c])] else []) ++
    (if s.spinDue c j then [(.spinPark, [c])] else []) ++
    (if x.wait != .none && x.wait != .trans && (x.land.head?.map fun l => s.inTime l.due).getD false then [(.resultLanding, [c])] else [])

/-- What a core's sequencer and bank units come to. -/
def State.unitEvents (s : State) (c : Nat) (k : Core) : List (Instr × List Nat) :=
  (if k.seqr.frozen then []
    else match k.seqr.run with
      | some w =>
        if s.wordWaits w then []
        else if k.seqr.step < mtSteps w then [(.sequencerStep, [c, 0])]
        else if k.seqr.start + mtCycles w ≤ s.clk then [(.mtWordComplete, [c])] else []
      | none => if k.seqr.wait.isSome then [(.mtWordStart, [c])] else if k.seqr.chained.isEmpty then [] else [(.chainedWordAccept, [c])]) ++
    k.xforms.map fun x => (.xformComplete, [c, x.id])

/-- Whether a copy can move: not while it waits for a walk, or for the store of its own bundle. -/
def State.copyMoves (s : State) (k : Nat) (y : Copy) : Bool :=
  y.stage == 2 && !s.copyBehind y && !s.walks.any fun w => w.2.copies.contains k

/-- An engine's tracks take their turns (R25, R306): whether no other copy of the engine comes before this one. -/
def State.hasTurn (s : State) (y : Copy) : Bool :=
  let place (z : Copy) : Nat := (z.track + 8 - tget 0 (s.core y.core).turn y.engine % 8) % 8
  !s.copies.any fun p => p.2.core == y.core && p.2.engine == y.engine && s.copyMoves p.1 p.2 && !p.2.allRead && decide (place p.2 < place y)

/-- What a copy comes to. -/
def State.copyEvents (s : State) (k : Nat) (y : Copy) : List (Instr × List Nat) :=
  (if s.copyMoves k y && (y.core == 96 || s.hasTurn y) && (!y.allRead || y.flight.isEmpty) then [(.copySegment, [y.core, k, 0])] else []) ++
    (if s.copyMoves k y then (List.range y.flight.length).map fun i => (.copySegment, [y.core, k, i + 1]) else []) ++
    (if y.finished && s.durableHere k y then [(.copyComplete, [y.core, k])] else []) ++
    (if 3 ≤ y.stage ∧ y.mt.isSome then [(.chainedWordPlace, [y.core, k])] else [])

/-- Free credits of port i where the event is the device's own: a free value (log entry 3). -/
def State.credits (s : State) (i : Nat) : Nat := Config.freeNat (s.free + 2 ^ 64 * (i + 1))

/-- Whether a packet can take its next hop. -/
def State.canHop (s : State) (k : Nat) (p : Packet) : Bool :=
  p.dst != s.dev && s.mayGo k p && (s.hopLost p || match s.hopPort p s.credits with
    | some i => (tget .down s.links i).takes p
    | none => false)

/-- When a packet counts as sent: one of this device's expedited link FIFOs 1 µs before the others (R411). -/
def State.sentAt (s : State) (p : Packet) : Nat :=
  p.born + if p.kind = 0 ∧ p.src = s.dev ∧ bit ((s.core (p.port / 8)).lfOf (p.port % 8)).bind.toNat 62 then 0 else 1000

/-- The hop that comes next: of the packet sent first (R25). -/
def State.nextHop (s : State) : List (Instr × List Nat) :=
  match (s.packets.filter fun p => s.canHop p.1 p.2).foldl (fun (a : Option (Nat × Nat)) p =>
    let n := s.sentAt p.2
    match a with
    | none => some (n, p.1)
    | some b => if n < b.1 ∨ (n = b.1 ∧ p.1 < b.2) then some (n, p.1) else a) none with
  | none => []
  | some (_, k) => [(.packetHop, k :: (List.range 12).map s.credits)]

/-- What a packet that is for this device comes to. -/
def State.packetEvents (s : State) (k : Nat) (p : Packet) : List (Instr × List Nat) :=
  if p.dst ≠ s.dev then []
  else
    match p.kind with
    | 3 => if s.flipReady p then [(.publishFlip, [k])] else []
    | 4 => [(.tcBlockLand, [k])]
    | 5 => [(.tcCreditReturn, [k])]
    | 6 => [(.remoteReply, [k]), (.storeAck, [k]), (.recipientAck, [k]), (.publishStatusReturn, [k])]
    | _ => if s.mayGo k p && !s.ownerHeld p then [(.ownerRequest, [k, 0])] else []

/-- What a port comes to (R444, R446). -/
def Link.events (l : Link) (p ns : Nat) : List (Instr × List Nat) :=
  if l.st = 2 ∧ 8 ≤ l.resends then [(.linkRetrain, [p])]
  else if l.st = 3 ∧ 3 ≤ l.fails then [(.linkQuarantine, [p])]
  else if l.st = 3 ∧ l.retryAt ≤ ns then [(.linkRetryTimer, [p])]
  else []

/-- What a Gleaner ring comes to (R450). -/
def Glean.events (g : Glean) (ring ns : Nat) : List (Instr × List Nat) :=
  let late := g.unacked.filter fun u => decide (u.2.1 + 50000 ≤ ns)
  if late.any fun u => decide (16 ≤ u.2.2.1) then [(.gleanerRingFailure, [ring, 0])]
  else if late.isEmpty then [] else [(.gleanerResend, [ring])]

/-- What the Granary comes to: the request at its head, one that waits for the room of prefetches, or a prefetch (R319, R393). -/
def State.granaryEvents (s : State) : List (Instr × List Nat) :=
  (if s.granaryQ.isEmpty then s.prefetch.map fun i => (.prefetchComplete, [i]) else []) ++
    (if !s.granaryQ.isEmpty || s.copies.any fun p => p.2.stage == 0 && p.2.queue == 1 then [(.granaryRequest, [])] else [])

/-- The core that issues next: the one whose running context is due first, before any wait must end. -/
def State.nextIssue (s : State) : List (Instr × List Nat) :=
  let due := s.cores.filterMap fun p =>
    match p.2.running with
    | some j => if s.canIssue p.1 && !((p.2.ctx j).land.isEmpty && s.safeNext p.1 j && !s.seqBusyAt p.1) then
        some (p.1, max (p.2.ctx j).nextAt p.2.busyTill) else none
    | none => none
  match due with
  | [] => []
  | d :: l =>
    let first := l.foldl (fun a b => if b.2 < a.2 then b else a) d
    if s.inTime first.2 then [(.bundleIssue, [first.1])] else []

/-- The events that the device can take without an input from outside, but for issuing (the log's entry on steps says which others
only the agenda brings). -/
def State.internal (s : State) : List (Instr × List Nat) :=
  (s.cores.flatMap fun p =>
    (p.2.ctxs.flatMap fun q => s.ctxEvents p.1 q.1 q.2) ++ s.unitEvents p.1 p.2 ++
      (match p.2.running with | some j => s.runningEvents p.1 j (p.2.ctx j) | none => [])) ++
    (s.clusters.flatMap fun p =>
      (if p.2.queue.isEmpty || (s.nextDispatch p.1).isNone then [] else [(.dispatch, [p.1])]) ++
      (if p.2.zeroing.isEmpty then [] else [(.squareZeroingComplete, [p.1])])) ++
    ((List.range s.starts.length).map fun k => (.handlerStart, [k])) ++
    ((s.walks.take 64).map fun p => (.walkComplete, [p.1])) ++
    (s.copies.flatMap fun p => s.copyEvents p.1 p.2) ++
    (s.packets.flatMap fun p => s.packetEvents p.1 p.2) ++ s.nextHop ++
    ((s.remotes.filter fun p => decide (p.2.deadline ≤ s.ns) && !s.replyHere p.1).map fun p => (.remoteTimeout, [p.1])) ++
    s.granaryEvents ++
    (if s.gleanQ.isEmpty then [] else [(.gleanerRequest, [])]) ++
    (s.gleans.flatMap fun p => p.2.events p.1 s.ns) ++
    (s.links.flatMap fun p => p.2.events p.1 s.ns) ++
    (s.cellarLines.map fun x => (.cellarPersist, [64 * x])) ++
    (if s.rtLoad.isSome then [(.routeTableSwitch, [])] else []) ++
    (if s.invals.isEmpty then [] else [(.invalidationComplete, [])]) ++
    (if heatEn s.heatCtl.toNat && !s.heatDue && decide (s.decayAt ≤ s.ns) then [(.heatDecay, [])] else []) ++
    (if s.moves.isEmpty then (if s.migQ.isEmpty then [] else [(.migrationReport, [])]) else [(.migrationMoveComplete, [])]) ++
    (if s.replay.isNone && !s.triggers.isEmpty then [(.replayStart, [])] else [])

/-! ### Running -/

/-- The slots of a bundle that wait run in slot order; each reads its operands' marks first (R84, R189). -/
def runSlots : List (Nat × Instr) → State → Answer
  | [], s => .next s
  | (k, i) :: l, s =>
    match exec i (State.readMarks { s with bun := { s.bun with slot := k }, pending := l } i) with
    | .next s => runSlots l s
    | o => o

/-- A bundle whose slots wait runs to its end. -/
def finishSlots (s : State) : Answer :=
  if s.bun.words.isEmpty then .next s
  else
    match runSlots s.pending s with
    | .next s => exec .bundleCommit { s with ev := [s.bun.core] }
    | o => o

/-- An event with its operands, and the bundle that it issues, if any. -/
def runEvent (i : Instr) (ops : List Nat) (s : State) : Answer :=
  match exec i { s with ev := ops } with
  | .next s => finishSlots s
  | o => o

/-- Cores that run nothing choose (R24). -/
def State.chooseAll (s : State) : State := s.cores.foldl (fun s p => s.choose p.1) s

/-- What can come next, none standing for the passing of a cycle: waits that must end now do (R25); else an event, the bundle due
first, or, with no bundle due, time. -/
def State.choices (s : State) : List (Option (Instr × List Nat)) :=
  match s.dueWakes with
  | [] =>
    match s.nextIssue with
    | [] => none :: s.internal.map some
    | l => (s.internal ++ l).map some
  | l => l.map some

/-- A choice is taken; a cycle that passes ends with the decision point of its arrivals (R28, R315). -/
def State.take (s : State) : Option (Instr × List Nat) → Answer
  | none => .next (s.timeTo (s.clk + 1))
  | some e => runEvent e.1 e.2 s

/-- The inputs that come over the host link, a Caravan port or an Ethernet port. -/
def overLinks : Instr → Bool
  | .hostApertureRead | .hostApertureWrite | .registerWindowWrite | .trig | .killreq | .schedulerMemoryWrite | .ringBlockWrite
  | .intstatClear | .rtload | .linkBindingWrite | .tlbInvalidate | .migcmd | .clrq | .granuleRetire | .splitChange | .flitReceive
  | .linkRetrain | .linkDown | .linkStateFrame | .linkTrainingAttempt | .gleanerFrame | .gleanerRingFailure
  | .ethernetPortStateChange => true
  | _ => false

/-- What comes next: the input at the head of the agenda, which over a link that is not up yet brings nothing (R451);
else a free choice among what can (log entry 3). -/
def State.advance (s : State) : Answer :=
  match s.agenda with
  | (i, ops) :: l => if overLinks i ∧ s.stage < 2 then .next { s with agenda := l } else runEvent i ops { s with agenda := l }
  | [] =>
    let s := s.chooseAll
    match s.choices with
    | [] => s.take none
    | [e] => State.take { s with free := s.free + 1 } e
    | e :: l =>
      let d := s.drawNat
      d.2.take ((e :: l).getD (d.1 % (l.length + 1)) e)

/-- One step. -/
def State.go (s : State) : Answer :=
  if !s.powered && s.agenda.isEmpty then .fault .noPower else s.advance

/-! ### A place for one instruction word -/

/-- The page that holds the probe's bundle: virtual and physical 0x1_0000, fetched, read and written under key 0. -/
def probePc : Nat := 0x10000
def probeLeaf : Word := wd (2 ^ 16 + 0x1F)

/-- A bundle of nops but for one slot. -/
def probeBundle (k w : Nat) : Nat := w % 2 ^ 32 * 2 ^ (32 * k)

/-- A running context on core 0 whose next bundle holds word w in slot k, and that bundle next on the agenda. -/
def State.probe (s : State) (k w : Nat) : State :=
  let core := s.core 0
  let x : Ctx := { Ctx.empty with st := .running, bank := some 0, uid := s.nextId, pc := probePc, nextAt := s.clk }
  let core : Core := { core with
    ctxs := tset (core.ctxs.map fun p => if p.2.st = .running then (p.1, { p.2 with st := .ready }) else p) 0 x
    banks := tset core.banks 0 { core.bank 0 with owner := some 0 }
    tlb := ⟨0, 1, 16, probeLeaf⟩ :: core.tlb }
  { s with
    powered := true, nextId := s.nextId + 1, bun := .none, pending := [], agenda := [(.bundleIssue, [0])]
    cores := tset s.cores 0 core
    retired := s.retired.filter (· != 1), poison := s.poison.filter (· != 1024)
    keyTags := tset s.keyTags 1024 (s.keyMark 0), mem := memWrite s.mem probePc 32 (probeBundle k w) }

end Sys2Proof.Machine
end

