-- ==== Sys2Proof/Machine/Step.lean ====
section
/-! DEFINITION. One step of the device, and the place of the host's probe word. -/

namespace Sys2Proof.Machine

/-- One step: an event, or a bundle from its fetch to its end. -/
def step (s : State) : Host.Outcome State Fault Refusal := s.go

/-- s with an instruction word in the bundle that the next step issues on core 0, in the first slot whose map decodes
it; a word that no map decodes stands in slot SA. -/
def State.withFetchWord (s : State) (nbits w : Nat) : State :=
  match decodeTableWord nbits w, tableSlot w with
  | some _, some (k, _) => s.probe k w
  | _, _ => s.probe 1 w

end Sys2Proof.Machine
end

