-- ==== Sys2Proof/Safety.lean ====
section
/-! DEFINITION. The terms in which claims are stated: what a slot form collects for its bundle's commit, elements of
vectors, what a write may touch, what an event is given, and the invariant that every step keeps. -/

namespace Sys2Proof.Safety

open Sys2Proof.Machine

/-! ### Slot forms -/

/-- The forms that slot words encode; every other constructor is an event (R60). -/
def isSlotForm (i : Instr) : Bool := (encode i).isSome

/-- The form's slot finds nothing wrong and gives the bundle these effects, which its commit performs (R73). -/
def Collects (i : Instr) (s : State) (es : List Eff) : Prop :=
  exec i s = .next { s with bun := { s.bun with effs := s.bun.effs ++ es } }

/-- The form's one effect is word w in scalar register d after lat cycles (R75). -/
def Gives (i : Instr) (s : State) (d lat : Nat) (w : Word) : Prop := Collects i s [.land lat (.s d) (.word w 0)]

/-- The bundle traps, with this slot's word in tinfo (R84, R187). -/
def Traps (i : Instr) (s : State) (cause detail : Nat) : Prop :=
  exec i s = .next { s with bun := { s.bun with trap := some ⟨cause, detail, s.bun.slot⟩ } }

/-- The bundle waits before its issue cycle (R78, R304). -/
def Waits (i : Instr) (s : State) (why counter : Nat) : Prop :=
  exec i s = .next { s with bun := { s.bun with hold := some ⟨why, counter, .none, []⟩ } }

/-- No earlier slot of the bundle has trapped or made it wait. -/
def untouched (s : State) : Bool := s.bun.trap.isNone && s.bun.hold.isNone

/-- Two states differ at most in the bundle in hand and in the count of free values drawn. -/
def SameButBundle (s t : State) : Prop := { t with bun := s.bun, free := s.free } = s

/-- No release or acquire of the strand holds a memory form (R247, R284). -/
def gateOpen (s : State) : Bool :=
  s.memOpen

/-! ### Vectors -/

/-- Element e of w bits of a vector register (R132). -/
def elemAt (w : Nat) (v : VReg) (e : Nat) : Nat := v.toNat / 2 ^ (w * e) % 2 ^ w

/-- Element e of a source field, the broadcast port among them (R61, R69). -/
def src (s : State) (w a e : Nat) : Nat := elemAt w (s.rv w a) e

/-- The number that a finite value is. -/
def valueOf : FVal → ℚ
  | .fin s m e => (if s then -1 else 1) * m * 2 ^ e
  | _ => 0

/-- The order of values that are no NaN (R139). -/
def below : FVal → FVal → Prop
  | .inf s, .inf t => s = true ∧ t = false
  | .inf s, .fin .. => s = true
  | .fin .., .inf t => t = false
  | x, y => valueOf x < valueOf y

/-- The natural k that a magnitude y rounds to under a sign t (R48): to nearest with ties to even, towards zero, upwards, downwards,
or by the 16 random bits r. -/
def RoundsInt (mode r : Nat) (t : Bool) (y : ℚ) (k : Nat) : Prop :=
  let below : Prop := (k : ℚ) ≤ y ∧ y < k + 1
  let above : Prop := y ≤ k ∧ (k : ℚ) < y + 1
  match mode with
  | 0 => |y - k| ≤ 1 / 2 ∧ (|y - k| = 1 / 2 → k % 2 = 0)
  | 1 => below
  | 2 => if t then below else above
  | 3 => if t then above else below
  | _ => (k : ℚ) ≤ y + r / 2 ^ 16 ∧ y + r / 2 ^ 16 < k + 1

/-- The largest finite magnitude of a format. -/
def largest (f : Fmt) : ℚ := f.maxSig * 2 ^ f.maxExp

/-- The pattern b is the value (-1)^t times x, rounded once into the format (R30 to R34, R47, R48): in units of 2^q, of which x
holds as many as a significand can tell apart and no unit is below the format's least; past the largest finite value it
is that value where the mode asks for it, else an infinity. -/
def RoundsTo (f : Fmt) (o : Rnd) (r : Nat) (t : Bool) (x : ℚ) (b : Nat) : Prop :=
  ∃ (q : Int) (k : Nat),
    1 - f.bias - f.mw ≤ q ∧ x < 2 ^ (q + f.mw + 1) ∧ (q = 1 - f.bias - f.mw ∨ 2 ^ (q + f.mw) ≤ x) ∧
    RoundsInt o.mode r t (x / 2 ^ q) k ∧
    ((k : ℚ) * 2 ^ q ≤ largest f → ∃ m e, f.decode b = .fin t m e ∧ (m : ℚ) * 2 ^ e = k * 2 ^ q) ∧
    (largest f < (k : ℚ) * 2 ^ q →
      b = if o.sat = true ∨ o.mode = 1 ∨ (o.mode = 2 ∧ t = true) ∨ (o.mode = 3 ∧ t = false) then f.maxBits t else f.infBits t)

/-- e is the biased binary exponent of a magnitude rounded to m significant bits (R42). -/
def RoundedExponent (m mode r : Nat) (t : Bool) (x : ℚ) (e : Int) : Prop :=
  ∃ (q : Int) (k : Nat), 2 ^ (q + m - 1) ≤ x ∧ x < 2 ^ (q + m) ∧ RoundsInt mode r t (x / 2 ^ q) k ∧
    2 ^ (e - 127) ≤ (k : ℚ) * 2 ^ q ∧ (k : ℚ) * 2 ^ q < 2 ^ (e - 126)

/-- A value at most 2^t away from an exact one. -/
def near (t : Int) (x y : FVal) : Prop := |valueOf x - valueOf y| ≤ 2 ^ t

/-- The form's effect on vector register d: after lat cycles each element e of w bits that `on` enables is f e; and, where
`draws` and fmt asks for stochastic rounding, one counter value is reserved (R50, R134). -/
def GivesVec (i : Instr) (s : State) (d lat w : Nat) (draws : Bool) (on : Nat → Bool) (f : Nat → Nat) : Prop :=
  ∃ en v,
    Collects i s (.land lat (.v d) (.vec en v 0) ::
      if draws && fmtRnd s.fmtn == 4 then [.srTake (fmtSri s.fmtn) 1] else []) ∧
    (∀ k, k < 2048 → en.getLsbD k = on (k / w)) ∧
    ∀ e, e < 2048 / w → elemAt w v e = f e % 2 ^ w

/-- The usual effect: the top of the mask stack enables. -/
def GivesElems (i : Instr) (s : State) (d lat w : Nat) (draws : Bool) (f : Nat → Nat) : Prop :=
  GivesVec i s d lat w draws (elemOn w s.top) f

/-- The effect that no mask predicates. -/
def GivesAll (i : Instr) (s : State) (d lat w : Nat) (draws : Bool) (f : Nat → Nat) : Prop :=
  GivesVec i s d lat w draws (fun _ => true) f

/-! ### Bundles -/

/-- A bundle in hand whose slots have all run and found nothing wrong, neither it nor one of them illegal. -/
def readyToCommit (s : State) : Bool :=
  !s.bun.words.isEmpty && s.pending.isEmpty && s.bun.hold.isNone && s.bun.miss.isEmpty && s.bun.trap.isNone &&
    s.illegalTrap.isNone

/-- A bundle in hand whose slots have all run and that ends in this trap: one that a slot found, or that of an illegal bundle or of its
first illegal slot, which come before every other (R84). -/
def trapping (s : State) (tr : Trap) : Prop :=
  s.bun.words ≠ [] ∧ s.pending = [] ∧ s.bun.hold = none ∧
    ((s.illegalTrap = none ∧ s.bun.miss = [] ∧ s.bun.trap = some tr) ∨ s.illegalTrap = some tr)

/-- The context that issues it, seen from a later state. -/
def issuer (s t : State) : Ctx := t.ctx s.bun.core s.bun.ctx
def issuerBank (s t : State) : Bank := t.bankOf s.bun.core s.bun.ctx

/-- Every register, mark and spill word of a bank but scalar register d. -/
def SameBankBut (d : Nat) (b c : Bank) : Prop :=
  (∀ k, k ≠ d → c.sr k = b.sr k) ∧ c.v = b.v ∧ c.mask = b.mask ∧ c.fmt = b.fmt ∧ c.mg = b.mg ∧ c.cg = b.cg ∧
    c.qc = b.qc ∧ c.present = b.present ∧ c.cr = b.cr ∧ c.spill = b.spill

/-- The bundle in hand commits these effects, whose performing is all it does beside going on; it gives up no queue head. -/
def committing (s : State) (es : List Eff) : Prop := readyToCommit s = true ∧ hdrPop s.header = 0 ∧ s.bun.effs = es

/-! ### Memory -/

/-- The byte that memory holds at an address. -/
def byteAt (s : State) (a : Nat) : Byte := memGet s.mem a

/-- Every byte outside n bytes from an address is as it was. -/
def SameBytesBut (pa n : Nat) (s t : State) : Prop := ∀ a, a < pa ∨ pa + n ≤ a → byteAt t a = byteAt s a

/-- The granules of a range hold data of this key already, so that a write changes the key of none (R237), and they lie in the
window of no CXL port that went down (R443). -/
def keyHeld (s : State) (key pa n : Nat) : Bool :=
  !s.cxlDown pa && (List.range ((pa + n - 1) / 64 - pa / 64 + 1)).all fun i => tget 0 s.keyTags (pa / 64 + i) == s.keyMark key

/-- Memory in its canonical form. -/
def MemoryCanonical (s : State) : Prop := Memory.wf s.mem = true

/-- Scheduler memory and the scratchpads hold no uncorrectable error, and none is ending the replay (R226). -/
def schedulerSound (s : State) : Prop := s.padPoison = [] ∧ (s.replay.map (·.dataError)).getD false = false

/-- A block of 32 elements read from p magnitude planes, a sign plane, a selector plane and a pair of exponents (R39 to R41). -/
def BlockOf (p : Nat) (plane : Nat → Nat) (exps : Nat) (b : TeBlock) : Prop :=
  b.e1 = exps / 256 % 256 ∧ b.e0 = exps % 256 ∧ b.el.length = 32 ∧
  ∀ i y, b.el[i]? = some y → y.s = (plane 0).testBit i ∧ y.x = (plane 1).testBit i ∧ y.m < 2 ^ p ∧
    ∀ j, j < p → y.m.testBit (p - 1 - j) = (plane (2 + j)).testBit i

/-- The number an element of a block is, read with p planes (R37, R41). -/
def teValue (b : TeBlock) (p : Nat) (y : TeElem) : ℚ :=
  (if y.s then -1 else 1) * y.m * 2 ^ (((if y.x then b.e1 else b.e0 : Nat) : Int) - 126 - p)

/-- Whether an element of the block selects the exponent 255 (R38). -/
def hasNan (b : TeBlock) : Prop := ∃ y, y ∈ b.el ∧ (if y.x then b.e1 else b.e0) = 255

/-- Element j of row i of accumulator u, or of the pair u and u + 1 (R96). -/
def accElem (s : State) (c : Nat) (pair : Bool) (u i j : Nat) : Nat :=
  let at_ (v : Nat) : Nat := (s.core c).accRow v i / 2 ^ (32 * j) % 2 ^ 32
  if pair then at_ u + 2 ^ 32 * at_ (u + 1) else at_ u

/-- Element (i, j) of every accumulator but those that `on` names is as it was. -/
def SameAccsBut (s t : State) (c : Nat) (on : Nat → Nat → Nat → Prop) : Prop :=
  ∀ u i j, i < 128 → j < 128 → ¬on u i j → accElem t c false u i j = accElem s c false u i j

/-- Little-endian bytes from an address. -/
def at_ (s : State) (pa n : Nat) : Nat := memRead s.mem pa n

/-! ### Events -/

/-- The event with its operands is next. -/
def given (s : State) (ops : List Nat) : State := { s with ev := ops }

/-- The event answers t. -/
def Answers (i : Instr) (ops : List Nat) (s t : State) : Prop := exec i (given s ops) = .next t

/-- The bundle in hand ends in t (R73). -/
def Ends (s t : State) : Prop := Answers .bundleCommit [s.bun.core] s t

/-- Two ranges have no byte in common. -/
def apart (a n b k : Nat) : Bool := decide (a + n ≤ b ∨ b + k ≤ a)

end Sys2Proof.Safety
end

