-- ==== Sys2Proof/Certificates/Slice0/Obligations.lean ====
section
/-! DEFINITION. The statements for the provers. Each docstring names the rules of spec/ that its statement formalises. -/

section
open Sys2Proof Sys2Proof.Machine Sys2Proof.Safety

/-! ### Scalar forms (S map) -/

/-- R107: each alu form's value, latency and word, in slots SA and SB. -/
def Obligations.AluFormsGiveTheirValues : Prop :=
  ∀ (s : State) (d a b : Nat),
    let x := s.rs a
    let y := s.rs b
    (∃ w, Gives (.add d a b) s d 2 w ∧ w.toNat = (x.toNat + y.toNat) % 2 ^ 64) ∧
    (∃ w, Gives (.sub d a b) s d 2 w ∧ w.toNat = (x.toNat + 2 ^ 64 - y.toNat) % 2 ^ 64) ∧
    (∃ w, Gives (.and d a b) s d 2 w ∧ ∀ k, w.getLsbD k = (x.getLsbD k && y.getLsbD k)) ∧
    (∃ w, Gives (.or d a b) s d 2 w ∧ ∀ k, w.getLsbD k = (x.getLsbD k || y.getLsbD k)) ∧
    (∃ w, Gives (.xor d a b) s d 2 w ∧ ∀ k, w.getLsbD k = (x.getLsbD k != y.getLsbD k)) ∧
    (∃ w, Gives (.andn d a b) s d 2 w ∧ ∀ k, w.getLsbD k = (x.getLsbD k && !y.getLsbD k)) ∧
    (∃ w, Gives (.shl d a b) s d 2 w ∧ w.toNat = x.toNat * 2 ^ (y.toNat % 64) % 2 ^ 64) ∧
    (∃ w, Gives (.shr d a b) s d 2 w ∧ w.toNat = x.toNat / 2 ^ (y.toNat % 64)) ∧
    (∃ w, Gives (.sar d a b) s d 2 w ∧ w.toInt = x.toInt / ((2 ^ (y.toNat % 64) : Nat) : Int)) ∧
    (∃ w, Gives (.ror d a b) s d 2 w ∧ ∀ k, k < 64 → w.getLsbD k = x.getLsbD ((k + y.toNat % 64) % 64)) ∧
    (∃ w, Gives (.minI64 d a b) s d 2 w ∧ w.toInt = min x.toInt y.toInt) ∧
    (∃ w, Gives (.minN64 d a b) s d 2 w ∧ w.toNat = min x.toNat y.toNat) ∧
    (∃ w, Gives (.maxI64 d a b) s d 2 w ∧ w.toInt = max x.toInt y.toInt) ∧
    (∃ w, Gives (.maxN64 d a b) s d 2 w ∧ w.toNat = max x.toNat y.toNat) ∧
    (∃ w, Gives (.addsI64 d a b) s d 2 w ∧ w.toInt = max (-2 ^ 63) (min (2 ^ 63 - 1) (x.toInt + y.toInt))) ∧
    (∃ w, Gives (.addsN64 d a b) s d 2 w ∧ w.toNat = min (2 ^ 64 - 1) (x.toNat + y.toNat)) ∧
    (∃ w, Gives (.subsI64 d a b) s d 2 w ∧ w.toInt = max (-2 ^ 63) (min (2 ^ 63 - 1) (x.toInt - y.toInt))) ∧
    (∃ w, Gives (.subsN64 d a b) s d 2 w ∧ w.toNat = x.toNat - y.toNat) ∧
    (∃ w, Gives (.mul d a b) s d 4 w ∧ w.toNat = x.toNat * y.toNat % 2 ^ 64) ∧
    (∃ w, Gives (.mulhI64 d a b) s d 4 w ∧ w.toInt = x.toInt * y.toInt / 2 ^ 64) ∧
    (∃ w, Gives (.mulhN64 d a b) s d 4 w ∧ w.toNat = x.toNat * y.toNat / 2 ^ 64) ∧
    (∀ p, p ∈ [(0, Instr.add d a b), (1, .sub d a b), (2, .and d a b), (3, .or d a b), (4, .xor d a b),
        (5, .andn d a b), (6, .shl d a b), (7, .shr d a b), (8, .sar d a b), (9, .ror d a b),
        (10, .minI64 d a b), (11, .minN64 d a b), (12, .maxI64 d a b), (13, .maxN64 d a b),
        (14, .addsI64 d a b), (15, .addsN64 d a b), (16, .subsI64 d a b), (17, .subsN64 d a b),
        (18, .mul d a b), (19, .mulhI64 d a b), (20, .mulhN64 d a b)] →
      encode p.2 = some (.s, 1 * 2 ^ 26 + d * 2 ^ 21 + a * 2 ^ 16 + b * 2 ^ 11 + p.1) ∧ saOnly p.2 = false)

/-- R108: the value of each form of one source, and its word, in slots SA and SB. -/
def Obligations.UnaryFormsGiveTheirValues : Prop :=
  ∀ (s : State) (d a : Nat),
    let x := s.rs a
    (∃ w, Gives (.clz d a) s d 2 w ∧ w.toNat ≤ 64 ∧ x.toNat < 2 ^ (64 - w.toNat) ∧ (x ≠ 0 → 2 ^ (63 - w.toNat) ≤ x.toNat) ∧
      (x = 0 → w.toNat = 64)) ∧
    (∃ w, Gives (.ctz d a) s d 2 w ∧ w.toNat ≤ 64 ∧ (∀ k, k < w.toNat → x.getLsbD k = false) ∧
      (w.toNat < 64 → x.getLsbD w.toNat = true)) ∧
    (∃ w, Gives (.popc d a) s d 2 w ∧ w.toNat = ((List.range 64).filter fun k => x.getLsbD k).length) ∧
    (∃ w, Gives (.neg d a) s d 2 w ∧ w.toNat = (2 ^ 64 - x.toNat) % 2 ^ 64) ∧
    (∃ w, Gives (.not d a) s d 2 w ∧ w.toNat = 2 ^ 64 - 1 - x.toNat) ∧
    (∃ w, Gives (.abs d a) s d 2 w ∧ w.toNat = x.toInt.natAbs) ∧
    (∃ w, Gives (.sx8 d a) s d 2 w ∧ w.toInt = (x.truncate 8).toInt) ∧
    (∃ w, Gives (.sx16 d a) s d 2 w ∧ w.toInt = (x.truncate 16).toInt) ∧
    (∃ w, Gives (.sx32 d a) s d 2 w ∧ w.toInt = (x.truncate 32).toInt) ∧
    (∃ w, Gives (.zx8 d a) s d 2 w ∧ w.toNat = x.toNat % 2 ^ 8) ∧
    (∃ w, Gives (.zx16 d a) s d 2 w ∧ w.toNat = x.toNat % 2 ^ 16) ∧
    (∃ w, Gives (.zx32 d a) s d 2 w ∧ w.toNat = x.toNat % 2 ^ 32) ∧
    (∃ w, Gives (.brev d a) s d 2 w ∧ ∀ k, k < 64 → w.getLsbD k = x.getLsbD (63 - k)) ∧
    (∃ w, Gives (.bswap d a) s d 2 w ∧ ∀ k, k < 64 → w.getLsbD k = x.getLsbD (8 * (7 - k / 8) + k % 8)) ∧
    (∀ p, p ∈ [(0, Instr.clz d a), (1, .ctz d a), (2, .popc d a), (3, .neg d a), (4, .not d a), (5, .abs d a),
        (6, .sx8 d a), (7, .sx16 d a), (8, .sx32 d a), (9, .zx8 d a), (10, .zx16 d a), (11, .zx32 d a),
        (12, .brev d a), (13, .bswap d a)] →
      encode p.2 = some (.s, 2 * 2 ^ 26 + d * 2 ^ 21 + a * 2 ^ 16 + p.1) ∧ saOnly p.2 = false)

/-- R109: quotients and remainders on every pair of operands, division by zero among them, and their words, in slot SA alone. -/
def Obligations.DivideFormsGiveTheirValues : Prop :=
  ∀ (s : State) (d a b : Nat),
    let x := s.rs a
    let y := s.rs b
    (∃ w, Gives (.divI64 d a b) s d 24 w ∧ (y = 0 → w.toInt = -1) ∧
      (y ≠ 0 → ¬(x.toInt = -2 ^ 63 ∧ y.toInt = -1) → w.toInt = x.toInt.tdiv y.toInt) ∧
      (x.toInt = -2 ^ 63 ∧ y.toInt = -1 → w.toInt = -2 ^ 63)) ∧
    (∃ w, Gives (.divN64 d a b) s d 24 w ∧ (y = 0 → w.toNat = 2 ^ 64 - 1) ∧ (y ≠ 0 → w.toNat = x.toNat / y.toNat)) ∧
    (∃ w, Gives (.remI64 d a b) s d 24 w ∧ (y = 0 → w = x) ∧ (y ≠ 0 → w.toInt = x.toInt.tmod y.toInt) ∧
      (x.toInt = -2 ^ 63 ∧ y.toInt = -1 → w = 0)) ∧
    (∃ w, Gives (.remN64 d a b) s d 24 w ∧ (y = 0 → w = x) ∧ (y ≠ 0 → w.toNat = x.toNat % y.toNat)) ∧
    (∀ p, p ∈ [(0, Instr.divI64 d a b), (1, .divN64 d a b), (2, .remI64 d a b), (3, .remN64 d a b)] →
      encode p.2 = some (.s, 3 * 2 ^ 26 + d * 2 ^ 21 + a * 2 ^ 16 + b * 2 ^ 11 + p.1) ∧ saOnly p.2 = true)

/-- R110: cmp and cmpi, by the comparison that each condition code names, and their words; the mask stack is not touched. -/
def Obligations.CompareFormsGiveOneOrZero : Prop :=
  let holds (c : Nat) (x y : Word) : Prop :=
    match c with
    | 0 => x.toNat = y.toNat
    | 1 => x.toNat ≠ y.toNat
    | 2 => x.toInt < y.toInt
    | 3 => x.toNat < y.toNat
    | 4 => x.toInt ≤ y.toInt
    | 5 => x.toNat ≤ y.toNat
    | 6 => y.toInt < x.toInt
    | _ => y.toNat < x.toNat
  (∀ (s : State) (d a b c : Nat), c ≤ 5 →
    ∃ w, Gives (.cmp d a b c) s d 2 w ∧ (holds c (s.rs a) (s.rs b) → w = 1) ∧ (¬holds c (s.rs a) (s.rs b) → w = 0) ∧
      encode (.cmp d a b c) = some (.s, 4 * 2 ^ 26 + d * 2 ^ 21 + a * 2 ^ 16 + b * 2 ^ 11 + c) ∧ saOnly (.cmp d a b c) = false) ∧
  (∀ (s : State) (d a c i : Nat), c ≤ 7 → i < 2 ^ 13 →
    ∃ w y, Gives (.cmpi d a c i) s d 2 w ∧ (holds c (s.rs a) y → w = 1) ∧ (¬holds c (s.rs a) y → w = 0) ∧
      (c = 3 ∨ c = 5 ∨ c = 7 → y.toNat = i) ∧
      (¬(c = 3 ∨ c = 5 ∨ c = 7) → y.toInt = if i < 2 ^ 12 then (i : Int) else (i : Int) - 2 ^ 13) ∧
      encode (.cmpi d a c i) = some (.s, 10 * 2 ^ 26 + d * 2 ^ 21 + a * 2 ^ 16 + c * 2 ^ 13 + i) ∧ saOnly (.cmpi d a c i) = false)

/-- R111 to R115: immediates, moves, the address of a label, bit fields. -/
def Obligations.ImmediateAndFieldFormsGiveTheirValues : Prop :=
  (∀ (s : State) (d a i : Nat), i < 2 ^ 16 →
    let x := s.rs a
    (∃ w, Gives (.addi d a i) s d 2 w ∧
      w.toNat = (x.toNat + if i < 2 ^ 15 then i else 2 ^ 64 - 2 ^ 16 + i) % 2 ^ 64) ∧
    (∃ w, Gives (.andi d a i) s d 2 w ∧ w.toNat = x.toNat &&& i) ∧
    (∃ w, Gives (.ori d a i) s d 2 w ∧ w.toNat = x.toNat ||| i) ∧
    (∃ w, Gives (.xori d a i) s d 2 w ∧ w.toNat = x.toNat ^^^ i) ∧
    (∃ w, Gives (.movk d a i) s d 2 w ∧ w.toNat = x.toNat * 2 ^ 16 % 2 ^ 64 + i) ∧
    (∃ w, Gives (.lea d a i) s d 2 w ∧
      w.toNat = (s.bun.pc + x.toNat + 32 * if i < 2 ^ 15 then i else 2 ^ 64 - 2 ^ 16 + i) % 2 ^ 64)) ∧
  (∀ (s : State) (d a n : Nat), n < 64 →
    let x := s.rs a
    (∃ w, Gives (.shli d a n) s d 2 w ∧ w.toNat = x.toNat * 2 ^ n % 2 ^ 64) ∧
    (∃ w, Gives (.shri d a n) s d 2 w ∧ w.toNat = x.toNat / 2 ^ n) ∧
    (∃ w, Gives (.sari d a n) s d 2 w ∧ w.toInt = x.toInt / ((2 ^ n : Nat) : Int)) ∧
    (∃ w, Gives (.rori d a n) s d 2 w ∧ ∀ k, k < 64 → w.getLsbD k = x.getLsbD ((k + n) % 64))) ∧
  (∀ (s : State) (d i : Nat), i < 2 ^ 21 →
    ∃ w, Gives (.movi d i) s d 2 w ∧ w.toInt = if i < 2 ^ 20 then (i : Int) else (i : Int) - 2 ^ 21) ∧
  (∀ (s : State) (d a l p : Nat), p + l + 1 ≤ 64 →
    let x := s.rs a
    (∃ w, Gives (.bextN64 d a l p) s d 2 w ∧ w.toNat = x.toNat / 2 ^ p % 2 ^ (l + 1)) ∧
    (∃ w, Gives (.bextI64 d a l p) s d 2 w ∧
      w.toInt = if x.toNat / 2 ^ p % 2 ^ (l + 1) < 2 ^ l then ((x.toNat / 2 ^ p % 2 ^ (l + 1) : Nat) : Int)
        else ((x.toNat / 2 ^ p % 2 ^ (l + 1) : Nat) : Int) - ((2 ^ (l + 1) : Nat) : Int)) ∧
    (∃ w, Gives (.bins d a l p) s d 2 w ∧
      ∀ k, k < 64 → w.getLsbD k = if p ≤ k ∧ k ≤ p + l then x.getLsbD (k - p) else (s.rs d).getLsbD k))

/-- R99, R100, R101, R116 to R119, R309, R350, R427, R430: control registers, geometry, the counters, chkt; what crd finds
in each register, at a queue's head and in each counter; the checks of a queue's enabling and of a packet's first words.
The narrow qmode, scb and spin land by R100 (LandingWritesItsRegisterOnly). A counter that the supervisor wrote counts on
from what it wrote (log entry 36). -/
def Obligations.ControlAndGeometryFormsGiveTheirValues : Prop :=
  (∀ (s : State) (n k : Nat), n < 4 → k < 8 →
    s.crRead 0x004 = wd s.me.tag ∧ s.crRead 0x005 = wd s.me.crew ∧
    s.crRead 0x006 = wd (s.bun.core * 512 + s.me.pri * 64 + s.me.bank.getD 0 * 8 + s.bun.ctx) ∧
    s.crRead 0x00C = wd s.bun.t - (s.core s.bun.core).cyc0 ∧ s.crRead 0x00D = wd s.mb.mask.length ∧
    s.crRead (0x030 + 2 * n) = wd (tget 0 s.rpt n % 2 ^ 64) ∧ s.crRead (0x031 + 2 * n) = wd (tget 0 s.rpt n / 2 ^ 64 % 2 ^ 64) ∧
    s.crRead (0x040 + k) = tget 0 s.mb.qc k ∧
    ∀ r, r ∉ [0x004, 0x005, 0x006, 0x00C, 0x00D] → ¬(0x030 ≤ r ∧ r < 0x038) → ¬(0x040 ≤ r ∧ r < 0x048) →
      s.crRead r = tget 0 s.mb.cr r) ∧
  (∀ (s : State) (k : Nat),
    let q := (tget 0 s.mb.qc k).toNat
    let n := 4 * (q / 2 ^ 23 % 64 + 1)
    let pa := (s.allot s.bun.core s.me.crew).1 + q % 2 ^ 23 + q / 2 ^ 54 % 256 * n
    isGlobal pa = false → s.qHeadValue k = (memRead s.mem pa n, s.poisonedAt pa n)) ∧
  (∀ (s : State) (c n j : Nat),
    let x := s.core c
    let p := (tget 0 x.pcsel (n - 0x030)).toNat
    s.counter c 0x000 = wd s.ns ∧ s.counter c 0x001 = wd s.clk - x.cyc0 ∧ s.counter c 0x020 = (s.cluster (c / 4)).rqst ∧
    (2 ≤ n → n ≠ 0x020 → n < 0x030 ∨ 0x040 ≤ n → s.counter c n = tget 0 x.counters n) ∧
    (0x030 ≤ n → n < 0x040 →
      s.counter c n = (if s.uncounted c p = 0 then tget 0 x.counters n
        else tget (tget 0 x.counters n) x.counterNew n + wd (s.uncounted c p)) ∧
      (p % 256 ≠ 2 → p % 256 ≠ 6 → s.uncounted c p = 0) ∧
      (p % 256 = 2 → x.running = some j → p / 256 % 256 = 0 ∨ (j < 8 ∧ p.testBit (8 + j) = true) →
        s.uncounted c p = s.clk - x.lastIssue - 1) ∧
      (∀ w, p % 256 = 6 → x.seqr.run = some w → p / 256 % 256 = 0 ∨ (w.ctx < 8 ∧ p.testBit (8 + w.ctx) = true) →
        s.uncounted c p = s.clk - x.seqr.since))) ∧
  ∀ (s : State) (d a : Nat),
    (∀ n, ¬(0x048 ≤ n ∧ n < 0x058) → Gives (.crd d n) s d 2 (s.crRead n)) ∧
    (∀ k, k < 8 → s.qReady k = true →
      Collects (.crd d (0x048 + k)) s [.land 2 (.s d) (.word (wd (s.qHeadValue k).1) (b2n (s.qHeadValue k).2))]) ∧
    (∀ k e l, k < 8 → s.lfBound k = true → (s.lf k).inq = e :: l → (e.len = 0 ∨ bits e.stat 40 8 = 0 ∨ e.region = true) →
      Collects (.crd d (0x050 + k)) s [.land 2 (.s d) (.word e.w 0), .lfPop d k]) ∧
    (∀ n, ¬(0x040 ≤ n ∧ n < 0x048) → ¬(0x050 ≤ n ∧ n < 0x058) →
      Collects (.cwr a n) s [.land 2 (.cr n) (.word (s.rs a) 0)]) ∧
    (∀ k, k < 8 →
      let q := (s.rs a).toNat
      let depth := q / 2 ^ 29 % 256 + 1
      let last := q % 2 ^ 23 + depth * (4 * (q / 2 ^ 23 % 64 + 1))
      let size := (s.allot s.bun.core s.me.crew).2
      let count := q / 2 ^ 37 % 512
      (q.testBit 62 = false → (q.testBit 63 = true → count ≤ depth ∧ last ≤ size) →
        Collects (.cwr a (0x040 + k)) s [.land 2 (.cr (0x040 + k)) (.word (s.rs a) 0)]) ∧
      (untouched s = true →
        (q.testBit 62 = true → Traps (.cwr a (0x040 + k)) s 0x01 0) ∧
        (q.testBit 63 = true → depth < count → Traps (.cwr a (0x040 + k)) s 0x01 0) ∧
        (q.testBit 62 = false → q.testBit 63 = true → count ≤ depth → size < last →
          Traps (.cwr a (0x040 + k)) s 0x06 (last - 1)))) ∧
    (∀ k, k < 8 →
      let w := (s.rs a).toNat
      let l := s.lf k
      let size := if (l.part.headD 0).toNat.testBit 53 then 8 else 4
      let good := (l.part = [] → packetHeaderGood w = true) ∧ (l.part.length = 1 → w % size = 0)
      (s.lfBound k = true → good → l.outq.length + l.part.length < 32 →
        Collects (.cwr a (0x050 + k)) s [.lfPush k (s.rs a)]) ∧
      (untouched s = true →
        (s.lfBound k = true → good → 32 ≤ l.outq.length + l.part.length → Waits (.cwr a (0x050 + k)) s 3 0) ∧
        (s.lfBound k = false → Traps (.cwr a (0x050 + k)) s 0x06 (0x050 + k)) ∧
        (s.lfBound k = true → l.part = [] → packetHeaderGood w = false → Traps (.cwr a (0x050 + k)) s 0x01 0) ∧
        (s.lfBound k = true → l.part.length = 1 → w % size ≠ 0 → Traps (.cwr a (0x050 + k)) s 0x05 w))) ∧
    (∀ i, Collects (.gset a 0 i) s [.land 2 (.mg i) (.word (s.rs a) 0)]) ∧
    (∀ i, Collects (.gset a 1 i) s [.land 2 (.cg i) (.word (s.rs a) 0)]) ∧
    (∀ i, Gives (.gget d 0 i) s d 2 (tget 0 s.mb.mg i)) ∧
    (∀ i, Gives (.gget d 1 i) s d 2 (tget 0 s.mb.cg i)) ∧
    (∀ n, Gives (.rdcnt d n) s d 2 (s.counter s.bun.core n)) ∧
    (∀ b, s.rs a = s.rs b → Collects (.chkt a b) s []) ∧
    (∀ b, s.rs a ≠ s.rs b → untouched s = true → Traps (.chkt a b) s 0x0C (a + 32 * b)) ∧
    Collects .nopS s [] ∧ Collects .nopV s [] ∧ Collects .nopM s [] ∧ Collects .nopC s [] ∧ Collects .nopX s []

/-! ### Memory forms -/

/-- R84, R239 to R246: loads and stores whose address is found hand it to the commit; where it cannot be used, the
bundle traps with the cause and detail of the check, or is held for translation; a store at an address that a mirage
window shows goes to its shadow (R233, R283). The model's own choices in it: log entries 9 and 36. -/
def Obligations.LoadsAndStoresReachTheCommitOrTrap : Prop :=
  (∀ (s : State) (d a t o sc z pa key : Nat) (g : Bool), gateOpen s = true →
       (s.locate (s.ea a 13 o) (typeBytes t) (typeBytes t) true false = .at_ pa key g →
         Collects (.ld d a t o) s [if g then .loadGlobal d t pa (s.ea a 13 o) key none else .loadPad d t pa]) ∧
       (s.locate (s.shadowed s.me.space (s.ea a 13 o)) (typeBytes t) (typeBytes t) false true = .at_ pa key g →
         Collects (.st d a t o) s [.store (typeBytes t) pa (s.shadowed s.me.space (s.ea a 13 o)) key (s.rs d) g]) ∧
       Collects (.ldx d o) s [.spillLoad d o] ∧
       Collects (.stx d o) s [.spillStore o (s.rs d) 0] ∧
       (s.locate (s.ea a 11 o) (4 + 4 * z) (4 + 4 * z) true false = .at_ pa key g →
         Collects (.ldAcq d a sc z o) s (if g then [.loadGlobal d (4 + 2 * z) pa (s.ea a 11 o) key (some sc)]
           else [.loadPad d (4 + 2 * z) pa, .acquirePad sc])) ∧
       (s.locate (s.shadowed s.me.space (s.ea a 11 o)) (4 + 4 * z) (4 + 4 * z) false true = .at_ pa key g →
         Collects (.stRel d a sc z o) s
           [.storeRel sc (4 + 4 * z) pa (s.shadowed s.me.space (s.ea a 11 o)) key (s.rs d) g])) ∧
  (∀ (s : State) (d a t o : Nat), gateOpen s = true → untouched s = true →
       let n := typeBytes t
       ∀ i ea, (i = .ld d a t o ∧ ea = s.ea a 13 o) ∨ (i = .st d a t o ∧ ea = s.shadowed s.me.space (s.ea a 13 o)) →
         let off := ea % 2 ^ 40
         (2 ^ 56 ≤ ea → Traps i s 0x03 (ea % 2 ^ 56)) ∧
         (isAperture ea = true → ea % n ≠ 0 → Traps i s 0x05 ea) ∧
         (isAperture ea = true → ea % n = 0 → (s.allot s.bun.core s.me.crew).2 < off + n → Traps i s 0x06 off) ∧
         (ea < 2 ^ 56 → isAperture ea = false → tlbFind (s.core s.bun.core).tlb s.me.space ea = none →
           exec i s = .next { s with bun := { s.bun with miss := s.bun.miss ++ [(s.me.space, ea)] } })) ∧
  (∀ (s : State) (space ea v h n : Nat),
       (isAperture ea = true → s.shadowed space ea = ea) ∧
       (s.mirages space = [] → s.shadowed space ea = ea) ∧
       (s.mirages space = [(v, h, n)] → isAperture ea = false →
         s.shadowed space ea = if v ≤ ea ∧ ea < v + n then h + (ea - v) else ea))

/-- R248, R249: the atomics hand their operation to the commit, orders 2 and 3 as a release and 1 and 3 as an acquire;
what each operation leaves in a location of 4 or 8 bytes that holds x; of amo.fadd the sum of the two values rounded once, to
nearest with ties to even, in f32 or f64. -/
def Obligations.AtomicsReachTheCommitWithTheirNewValue : Prop :=
  (∀ (s : State) (d a b sc o z pa key : Nat) (g : Bool), gateOpen s = true →
       let ea := s.shadowed s.me.space (s.rs a).toNat
       s.locate ea (4 + 4 * z) (4 + 4 * z) true true = .at_ pa key g →
       let rel := if 2 ≤ o then some sc else none
       let acq := if o % 2 = 1 then some sc else none
       let eff (op : Nat) (e : Word) : List Eff := [.rmw d ⟨op, 4 + 4 * z, s.rs b, e⟩ pa ea key g rel acq]
       Collects (.amoAdd d a b sc o z) s (eff 0 0) ∧ Collects (.amoAnd d a b sc o z) s (eff 1 0) ∧
       Collects (.amoOr d a b sc o z) s (eff 2 0) ∧ Collects (.amoXor d a b sc o z) s (eff 3 0) ∧
       Collects (.amoMinI d a b sc o z) s (eff 4 0) ∧ Collects (.amoMaxI d a b sc o z) s (eff 5 0) ∧
       Collects (.amoMinN d a b sc o z) s (eff 6 0) ∧ Collects (.amoMaxN d a b sc o z) s (eff 7 0) ∧
       Collects (.amoSwap d a b sc o z) s (eff 8 0) ∧ Collects (.amoFadd d a b sc o z) s (eff 9 0) ∧
       Collects (.cas d a b sc o z) s (eff 10 (s.rs d))) ∧
  (∀ (z x : Nat) (b e : Word), z = 4 ∨ z = 8 → x < 2 ^ (8 * z) →
       let w := 8 * z
       let y := b.toNat % 2 ^ w
       let signed (v : Nat) : Int := if v < 2 ^ (w - 1) then (v : Int) else (v : Int) - ((2 ^ w : Nat) : Int)
       (Rmw.mk 0 z b e).new x = some ((x + y) % 2 ^ w) ∧
       (Rmw.mk 1 z b e).new x = some (x &&& y) ∧
       (Rmw.mk 2 z b e).new x = some (x ||| y) ∧
       (Rmw.mk 3 z b e).new x = some (x ^^^ y) ∧
       (∃ v, (Rmw.mk 4 z b e).new x = some v ∧ signed v = min (signed x) (signed y) ∧ (v = x ∨ v = y)) ∧
       (∃ v, (Rmw.mk 5 z b e).new x = some v ∧ signed v = max (signed x) (signed y) ∧ (v = x ∨ v = y)) ∧
       (Rmw.mk 6 z b e).new x = some (min x y) ∧
       (Rmw.mk 7 z b e).new x = some (max x y) ∧
       (Rmw.mk 8 z b e).new x = some y ∧
       (let f := if z = 8 then f64 else f32
        (Rmw.mk 9 z b e).new x = some (f.arith ⟨0, false⟩ 0 (FVal.add 0 (f.decode x) (f.decode y)))) ∧
       (let f := if z = 8 then f64 else f32
        ∀ (t u : Bool) (m n : Nat) (g h : Int), f.decode x = .fin t m g → f.decode y = .fin u n h →
          let sum := valueOf (.fin t m g) + valueOf (.fin u n h)
          ∃ (v : Nat) (neg : Bool), (Rmw.mk 9 z b e).new x = some v ∧ RoundsTo f ⟨0, false⟩ 0 neg |sum| v ∧
            (sum < 0 → neg = true) ∧ (0 < sum → neg = false) ∧ (sum = 0 → neg = (t && u))) ∧
       (x = e.toNat % 2 ^ w → (Rmw.mk 10 z b e).new x = some y) ∧
       (x ≠ e.toNat % 2 ^ w → (Rmw.mk 10 z b e).new x = none))

/-- R197, R251 to R254, R261 to R264: fences, publish, phases and seals reach the commit. The model's own choices in
it: log entry 16. -/
def Obligations.FencesPhasesAndSealsReachTheCommit : Prop :=
  ∀ (s : State), gateOpen s = true → ∀ (d a sc n m : Nat),
    let v := (s.rs a).toNat
    Collects (.fence d sc) s [.fence sc d] ∧
    (v / 2 ^ 48 % 2 ^ 13 = 0 → v / 2 ^ 61 % 8 ≤ 4 → Collects (.fwait a) s [.fwait (s.rs a)]) ∧
    (v / 2 ^ 27 % 32 = 0 → (handleDev v = s.dev → s.publishCheck v s.dev = 0) → Collects (.publish a sc) s [.publish sc [s.rs a]]) ∧
    (s.me.phase.opened = false → m &&& s.myCrew.accm = m → (m = 0 ∨ s.me.crew ≠ 0xFFFF) →
      Collects (.phaseStart a 0 m) s [.phaseStart m 0 0]) ∧
    (s.me.phase.opened = false → m &&& s.myCrew.accm = m → (m = 0 ∨ s.me.crew ≠ 0xFFFF) → n ≠ 0 →
      ∀ pa key g, s.locatePad v (8 * n) 8 = .at_ pa key g → Collects (.phaseStart a n m) s [.phaseStart m pa n]) ∧
    (s.me.phase.opened = true → s.phaseCopies s.bun.core s.me.uid = false →
      (∀ h ∈ s.me.phase.windows, bits h.toNat 27 5 = 0) → s.phaseRefusal = 0 →
      Collects .phaseCommitCore s [.phaseCommit 0] ∧ Collects .phaseCommitClu s [.phaseCommit 1] ∧
      Collects .phaseCommitDev s [.phaseCommit 2] ∧ Collects .phaseCommitSys s [.phaseCommit 3] ∧
      Collects .phaseCommitRcv s [.phaseCommit 4]) ∧
    (s.me.phase.opened = true → Collects .phaseAbort s [.phaseAbort]) ∧
    (isAperture v = false → ∀ pa key g, s.locate v 64 64 true true = .at_ pa key g → Collects (.ckseal d a n) s [.ckseal d v n])

/-- R45, R158, R234, R255 to R258: a transform command whose size word, addresses and ranges are in order goes to the banks with its
physical ranges (s0 as its size word is a command of no elements); what each command, as it performs, leaves in the bytes of its
destination, and that it changes no other; what a bale holds, and the exact conversions from MX blocks. -/
def Obligations.TransformCommandsReachTheBanks : Prop :=
  (∀ (s : State) (d a b f g : Nat), gateOpen s = true → s.me.crew ≠ 0xFFFF →
    let dst := (s.rs d).toNat
    let src := (s.rs a).toNat
    let z := (s.rs b).toNat
    let dOff := dst % 2 ^ 40
    let sOff := src % 2 ^ 40
    let base := (s.allot s.bun.core s.me.crew).1
    let size := (s.allot s.bun.core s.me.crew).2
    let fits (sLen dLen sAl dAl : Nat) : Prop :=
      isAperture dst = true ∧ isAperture src = true ∧ dst % dAl = 0 ∧ src % sAl = 0 ∧ dOff + dLen ≤ size ∧ sOff + sLen ≤ size ∧
        (dOff + dLen ≤ sOff ∨ sOff + sLen ≤ dOff)
    let x (i : Instr) (from_ : Nat) : Xform :=
      { id := 0, ctx := s.bun.ctx, core := s.bun.core, instr := i, dst := base + dOff, src := base + from_, size := s.rs b
        fmt := s.mb.fmt, seed := (s.stream s.fmtn).1, ctr := (s.stream s.fmtn).2, seq := 0, uid := s.me.uid }
    let draws (n : Nat) : List Eff := if n ≠ 0 ∧ fmtRnd s.fmtn = 4 then [.srTake (fmtSri s.fmtn) ((n + 63) / 64)] else []
    (szTeGood z = true → fits (xfRowsBytes f z) (xfTeBytes z) 4 4 →
      Collects (.xformSplit d a b f) s (draws (szQ z * szK z) ++ [.xform (x (.xformSplit d a b f) sOff)])) ∧
    (szTeGood z = true → fits (xfTeBytes z) (xfRowsBytes f z) 4 4 →
      Collects (.xformMerge d a b f) s (draws (szQ z * szK z) ++ [.xform (x (.xformMerge d a b f) sOff)])) ∧
    (z < 2 ^ 32 → fits (z * xfBits f / 8) (z * xfBits g / 8) 4 4 →
      Collects (.xformConv d a b f g) s (draws (if f = g then 0 else z) ++ [.xform (x (.xformConv d a b f g) sOff)])) ∧
    (z < 2 ^ 32 → z % 4 = 0 → isAperture dst = true → dst % 4 = 0 → dOff + z ≤ size →
      Collects (.xformZero d b) s [.xform (x (.xformZero d b) dOff)]) ∧
    (z < 2 ^ 16 → fits (4096 * z) (4160 * z) 4 64 → Collects (.xformBpack d a b) s [.xform (x (.xformBpack d a b) sOff)]) ∧
    (z < 2 ^ 16 → fits (4160 * z) (4096 * z) 64 4 → Collects (.xformBunpack d a b) s [.xform (x (.xformBunpack d a b) sOff)])) ∧
  (∀ (s : State) (x : Xform), padBase 0 ≤ x.dst → padBase 0 ≤ x.src → MemoryCanonical s →
    let z := x.size.toNat
    let t := s.xformRun x
    let o := fmtR x.fmt.toNat
    let r (j : Nat) : Nat := if fmtRnd x.fmt.toNat = 4 then sr16 x.seed x.ctr j 0 else 0
    let fmtOf (f : Nat) : Fmt := [bf16, f16, e4m3, e5m2].getD f f32
    let block (i b : Nat) : Nat := i * szK z + 32 * b
    let te (base : Nat) : TeSrc :=
      ⟨base, base + szQ z * (szK z / 32) * (szM z + 2) * 4, szM z + 2, szK z / 32, szM z, []⟩
    let within (i b : Nat) : Prop := i < szQ z ∧ b < szK z / 32
    (∀ c, s.xformPerform c x = (s.xformRun x).modCore c fun k => { k with xforms := k.xforms.filter fun y => y.id != x.id }) ∧
    (∀ d a b f g, x.instr = .xformConv d a b f g → f < 4 ∨ f = 9 → g < 4 ∨ g = 9 →
      let v := xfBits f / 8
      let w := xfBits g / 8
      apart x.src (z * v) x.dst (z * w) = true →
      SameBytesBut x.dst (z * w) s t ∧ ∀ j, j < z →
        let y := at_ s (x.src + j * v) v
        at_ t (x.dst + j * w) w = if f = g then y else (fmtOf g).convert o (r j) ((fmtOf f).decode y)) ∧
    (∀ d a b f, x.instr = .xformSplit d a b f → f ≤ 8 → szK z % 32 = 0 → szQ z % 128 = 0 →
      apart x.src (xfRowsBytes f z) x.dst (xfTeBytes z) = true →
      SameBytesBut x.dst (xfTeBytes z) s t ∧ ∀ i b, within i b →
        let e (k : Nat) : Nat := at_ s (x.src + block i b * xfBits f / 8) (4 * xfBits f) / 2 ^ (xfBits f * k) % 2 ^ xfBits f
        let scale := at_ s (x.src + szQ z * szK z * xfBits f / 8 + i * (szK z / 32) + b) 1
        let blk : TeBlock :=
          match [MxKind.e2m1, .e2m3, .e3m2, .e4m3, .e5m2][f - 4]?, decide (4 ≤ f) with
          | some kind, true => mxConvert kind (szM z) o scale ((List.range 32).map fun k => (e k, r (block i b + k)))
          | _, _ => teConvert (szM z) o ((List.range 32).map fun k => ((fmtOf f).decode (e k), r (block i b + k)))
        (∀ q, q < szM z + 2 → at_ t ((te x.dst).planeAt i b q) 4 = blk.plane (szM z) q) ∧
        at_ t ((te x.dst).expsAt i b) 2 = blk.exps) ∧
    (∀ d a b f, x.instr = .xformMerge d a b f → f = 0 ∨ f = 1 ∨ f = 9 → szK z % 32 = 0 → szQ z % 128 = 0 →
      apart x.src (xfTeBytes z) x.dst (xfRowsBytes f z) = true →
      SameBytesBut x.dst (xfRowsBytes f z) s t ∧ ∀ i b, within i b →
        let blk := s.teBlock (te x.src) i b
        let w := xfBits f / 8
        ∀ k y, blk.el[k]? = some y →
          at_ t (x.dst + (block i b + k) * w) w = (fmtOf f).convert o (r (block i b + k)) (blk.value (szM z) (szM z) y)) ∧
    (∀ d b, x.instr = .xformZero d b → SameBytesBut x.dst z s t ∧ ∀ i, i < z → byteAt t (x.dst + i) = 0) ∧
    (∀ d a b, x.instr = .xformBpack d a b → apart x.src (4096 * z) x.dst (4160 * z) = true →
      let bale (j : Nat) : List Nat := baleEncode (memList s.mem (x.src + 4096 * j) 4096)
      (∀ j, j < z → memList t.mem (x.dst + 4160 * j) (bale j).length = bale j) ∧
      ∀ a, (∀ j, j < z → a < x.dst + 4160 * j ∨ x.dst + 4160 * j + (bale j).length ≤ a) → byteAt t a = byteAt s a) ∧
    (∀ d a b, x.instr = .xformBunpack d a b → x.src % 64 = 0 → x.dst % 4 = 0 → apart x.src (4160 * z) x.dst (4096 * z) = true →
      x.src + 4160 * z ≤ padBase 96 → x.dst + 4096 * z ≤ padBase 96 → SameBytesBut x.dst (4096 * z) s t ∧ ∀ j, j < z →
        let slot := memList s.mem (x.src + 4160 * j) 4160
        let size := baleSize (at_ s (x.src + 4160 * j) 8)
        (∀ l, s.poisonedAt (x.src + 4160 * j) size = false → baleDecode slot = some l →
          l.length = 4096 ∧ memList t.mem (x.dst + 4096 * j) 4096 = l ∧ t.poisonedAt (x.dst + 4096 * j) 4096 = false) ∧
        (s.poisonedAt (x.src + 4160 * j) size = true ∨ baleDecode slot = none → t.poisonedAt (x.dst + 4096 * j) 4096 = true))) ∧
  (∀ l : List Nat, l.length = 4096 → (∀ b, b ∈ l → b < 256) →
    let there (i : Nat) : Prop := ∃ k, k < 64 ∧ l.getD (64 * i + k) 0 ≠ 0
    let e := baleEncode l
    let mask := pack 8 (e.take 8)
    baleDecode e = some l ∧ e.length = 64 + 64 * popCount 64 mask ∧ mask < 2 ^ 64 ∧ (∀ i, i < 64 → (mask.testBit i = true ↔ there i)) ∧
      pack 8 ((e.drop 8).take 4) = crc32c l ∧ (e.drop 12).take 52 = 1 :: List.replicate 51 0 ∧
      ∀ i, i < 64 → there i → (e.drop (64 + 64 * popCount i mask)).take 64 = (l.drop (64 * i)).take 64) ∧
  (∀ (k : MxKind) (m scale : Nat) (o : Rnd) (xs : List (Nat × Nat)), (∀ p, p ∈ xs → p.1 < 2 ^ k.width) →
    (k = .e2m1 ∧ m = 3 ∧ scale ≤ 252 ∨ k = .e2m3 ∧ m = 5 ∧ scale ≤ 251) →
    let t := mxConvert k m o scale xs
    t.e1 = scale + (if k = .e2m1 then 2 else 3) ∧ t.e0 = scale + 1 ∧ t.el.length = xs.length ∧
    ∀ (i : Nat) (p : Nat × Nat), xs[i]? = some p → ∃ y, t.el[i]? = some y ∧ y.s = p.1.testBit (k.width - 1) ∧ y.m < 2 ^ m ∧
      teValue t m y = valueOf (mxValue k scale p.1) ∧
      (y.x = true ↔ (if k = .e2m1 then 2 else 4 : ℚ) * 2 ^ ((scale : Int) - 127) ≤ |valueOf (mxValue k scale p.1)|))

/-! ### Scheduling, barriers, regions -/

/-- R377 to R384: strands, crews, dormant slots, arrive, gtrig, mwait. The model's own choices in it: log entry 12. -/
def Obligations.SchedulingFormsReachTheCommit : Prop :=
  ∀ (s : State) (d a b n : Nat),
    let x := (s.rs a).toNat
    let y := (s.rs b).toNat
    let room (k : Nat) : Prop := k + s.reservedRoom (s.bun.core / 4) ≤ (s.cluster (s.bun.core / 4)).free
    (s.relPending = false → s.me.crew ≠ 0xFFFF → room (n + 1) → ∀ pa key g, s.locatePad x (64 * (n + 1)) 64 = .at_ pa key g →
      Collects (.spawn d a n) s [.sched (.spawn d a n) [wd pa]]) ∧
    (∀ p i f, s.me.crew ≠ 0xFFFF → s.me.phase.opened = false → s.me.region.opened = false → s.me.handler = false → room 1 →
      Collects (.suspend p i f) s [.sched (.suspend p i f) []]) ∧
    (s.me.region.opened = false → Collects .exit s [.endStrand none]) ∧
    (s.seqBusy = false → s.strandCopies = false → s.relPending = false → s.me.phase.opened = false → s.me.region.opened = false →
      (∀ e, s.liveCrew x = some e → x < 2 ^ 16 → x ≠ s.me.crew → e.memb ≠ 65535 →
        Collects (.crewJoin d a) s [.land 2 (.s d) (.word 0 0), .sched (.crewJoin d a) [wd x]]) ∧
      (s.liveCrew x = none → Gives (.crewJoin d a) s d 2 1) ∧
      Collects .crewLeave s [.sched .crewLeave []]) ∧
    (∀ e, s.liveCrew (x % 2 ^ 16) = some e →
      Gives (.crewInfo d a) s d 2 (wd (e.memb * 2 ^ 48 + e.accm * 2 ^ 44 + e.sqBase * 2 ^ 35 + e.sqCnt * 2 ^ 26))) ∧
    (s.liveCrew (x % 2 ^ 16) = none → Gives (.crewInfo d a) s d 2 0) ∧
    (s.me.crew ≠ 0xFFFF → (x < 16 → Collects (.dormArm d a) s [.sched (.dormArm d a) [s.rs a]]) ∧
      (x < 8 → Collects (.dormDisarm d a) s [.sched (.dormDisarm d a) [s.rs a]]) ∧
      Gives (.dormCount d) s d 2
        (wd ((s.core s.bun.core).ctxs.filter fun p => p.2.st == .dormant && p.2.crew == s.me.crew).length)) ∧
    (s.relPending = false → x % 2 ^ 26 = 0 → y < 64 → Collects (.arrive d a b) s [.sched (.arrive d a b) [s.rs a, s.rs b]]) ∧
    (s.relPending = false → x < 16 → y % 256 = 0 → Collects (.gtrig d a b) s [.sched (.gtrig d a b) [s.rs a, s.rs b]]) ∧
    (∀ pa key g, s.relPending = false → s.locate x 4 4 true false = .at_ pa key g →
      Collects (.mwaitN32 d a b) s [.sched (.mwaitN32 d a b) [wd pa, s.rs a, wd key, wd (b2n g), s.rs b, 4]]) ∧
    (∀ pa key g, s.relPending = false → s.locate x 8 8 true false = .at_ pa key g →
      Collects (.mwaitN64 d a b) s [.sched (.mwaitN64 d a b) [wd pa, s.rs a, wd key, wd (b2n g), s.rs b, 8]])

/-- R354, R356, R385 to R387, R418, R423 to R425: the Silo's forms, with the strand's own tag where the form names none;
barriers at a word of the crew's allotment; remote regions. -/
def Obligations.SiloBarrierAndRegionFormsReachTheCommit : Prop :=
  (∀ (s : State) (d a b : Nat), (s.rs a).toNat < 64 →
       let tag := wd ((s.rs b).toNat % 2 ^ 32)
       let own := siloOwner (s.silo (s.rs a).toNat) = s.bun.core / 4
       Collects (.wvpin d a) s [.sched (.wvpin d a) [s.rs a, wd s.me.tag]] ∧
       Collects (.wvpinT d a b) s [.sched (.wvpinT d a b) [s.rs a, tag]] ∧
       Collects (.wvget d a) s [.sched (.wvget d a) [s.rs a, wd s.me.tag]] ∧
       Collects (.wvgetT d a b) s [.sched (.wvgetT d a b) [s.rs a, tag]] ∧
       Collects (.wvrel d a) s [.sched (.wvrel d a) [s.rs a, wd s.me.tag]] ∧
       Collects (.wvrelT d a b) s [.sched (.wvrelT d a b) [s.rs a, tag]] ∧
       (own → siloRoom (s.silo (s.rs a).toNat) = true → Collects (.wvnewStage d a) s [.sched (.wvnewStage d a) [s.rs a, 0]]) ∧
       (own → s.relPending = false → Collects (.wvnewPub a) s [.sched (.wvnewPub a) [s.rs a, 0]])) ∧
  ((∀ (s : State) (d a b pa key : Nat) (g : Bool), s.relPending = false → s.locatePad (s.rs a).toNat 16 16 = .at_ pa key g →
       let w := s.readPa 0 pa 16
       let y := (s.rs b).toNat
       let passed := 1 ≤ (w % 2 ^ 32 + 2 ^ 32 - y % 2 ^ 32) % 2 ^ 32 ∧ (w % 2 ^ 32 + 2 ^ 32 - y % 2 ^ 32) % 2 ^ 32 ≤ 2 ^ 31
       (y / 2 ^ 16 % 2 ^ 16 = 0 → Collects (.barInit a b) s [.sched (.barInit a b) [wd pa, s.rs b]]) ∧
       (w.testBit 96 = true → y + w / 2 ^ 32 % 2 ^ 32 < 2 ^ 32 → Collects (.barExpect a b) s [.sched (.barExpect a b) [wd pa, s.rs b]]) ∧
       (w.testBit 96 = true → w / 2 ^ 64 % 2 ^ 16 ≠ 0 → y + w / 2 ^ 32 % 2 ^ 32 < 2 ^ 32 →
         Collects (.barArrive d a b) s [.sched (.barArrive d a b) [wd pa, s.rs b]]) ∧
       (y < 2 ^ 32 → w.testBit 97 = false → passed → Collects (.barWait d a b) s [.sched (.barWait d a b) [wd (w % 2 ^ 32)]]) ∧
       (y < 2 ^ 32 → w.testBit 97 = false → ¬passed →
         ∃ k l, exec (.barWait d a b) s = .next { s with bun := { s.bun with hold := some ⟨9, 0, .bar pa k, l⟩ } } ∧
           (s.bun.hold = none → l = [])) ∧
       (y < 2 ^ 32 → ∃ v p : Word, Collects (.barTest d a b) s [.sched (.barTest d a b) [v, p]] ∧
         v.toNat % 2 ^ 32 = w % 2 ^ 32 ∧ (v.getLsbD 63 = true ↔ w.testBit 97 = true) ∧ (v.getLsbD 32 = true ↔ passed) ∧
         (p = 1 ↔ passed))) ∧
     (∀ (s : State) (l : Nat), s.me.region.opened = false → Collects (.rbeg l) s [.sched (.rbeg l) []]) ∧
     (∀ s : State, s.me.region.opened = true → s.regionBusy = false → s.regionPart = false →
       let r := (s.cr 0x00A).toNat
       (r.testBit 62 = false → Collects .rcom s [.sched .rcom [0]]) ∧
       (r.testBit 62 = true → (s.me.region.limit = 0 ∨ r / 2 ^ 56 % 64 + 1 < s.me.region.limit) → Collects .rcom s [.sched .rcom [1]])))

/-! ### Vector forms (V map) -/

/-- R30, R31, R47, R48, R54, R136, R137, R143, R144: the floating forms, each exact and rounded once, on f32, f64, bf16 and f16, and
what they are made of: the one rounding by value in each format and mode, the formats' largest values, NaNs and infinities, exact sums and
products with the sign of an exact zero, and minimum and maximum; of one source, the approximations: the special values of the table, and elsewhere a value that is vunExact's correctly rounded in f32 or
lies within the bound of it. The model's own choices in it, vunExact and which such value it is: log entry 4; that an f32 overflow stays an infinity
in a narrow type under SAT = 0: log entry 37. -/
def Obligations.VectorFloatFormsRoundOnce : Prop :=
  (∀ (s : State) (d a b c : Nat), s.vty ≤ 3 →
       let w := s.vw
       let x (e : Nat) : FVal := s.vf.decode (src s w a e)
       let y (e : Nat) : FVal := s.vf.decode (src s w b e)
       let z (e : Nat) : FVal := s.vf.decode (src s w c e)
       let round (v : Nat → FVal) (e : Nat) : Nat := s.vf.arith s.rnd (s.elemRandom w e) (v e)
       let add := FVal.add s.rnd.mode
       GivesElems (.vfadd d a b) s d 5 w true (round fun e => add (x e) (y e)) ∧
       GivesElems (.vfsub d a b) s d 5 w true (round fun e => add (x e) (y e).neg) ∧
       GivesElems (.vfmul d a b) s d 5 w true (round fun e => (x e).mul (y e)) ∧
       GivesElems (.vfmin d a b) s d 5 w true (round fun e => (x e).minimum (y e)) ∧
       GivesElems (.vfmax d a b) s d 5 w true (round fun e => (x e).maximum (y e)) ∧
       GivesElems (.vfsgn d a b) s d 5 w false (fun e => src s w a e % 2 ^ (w - 1) + src s w b e / 2 ^ (w - 1) * 2 ^ (w - 1)) ∧
       GivesElems (.vfma d a b c) s d 5 w true (round fun e => add ((x e).mul (y e)) (z e)) ∧
       GivesElems (.vfms d a b c) s d 5 w true (round fun e => add ((x e).mul (y e)) (z e).neg) ∧
       GivesElems (.vnfma d a b c) s d 5 w true (round fun e => add ((x e).mul (y e)).neg (z e)) ∧
       GivesElems (.vnfms d a b c) s d 5 w true (round fun e => add ((x e).mul (y e)).neg (z e).neg)) ∧
  (∀ (s : State) (d a : Nat), s.vty ≤ 3 →
       let w := s.vw
       let x := src s w a
       let approx (fn e : Nat) : Nat :=
         let y := vunF32 fn (s.vf.decode (x e)) (s.vf.widen f32 (x e)) s.rnd.sat
         if s.vty = 0 then f32.arith ⟨0, s.rnd.sat⟩ 0 y else s.vf.arith s.rnd (s.elemRandom w e) y
       GivesElems (.vfabs d a) s d 5 w false (fun e => x e % 2 ^ (w - 1)) ∧
       GivesElems (.vfneg d a) s d 5 w false (fun e => (x e + 2 ^ (w - 1)) % 2 ^ w) ∧
       GivesElems (.vsqrt d a) s d 9 w true (fun e => s.vf.arith s.rnd (s.elemRandom w e) (vsqrtVal (s.vf.decode (x e)))) ∧
       (s.vty ≠ 1 →
         GivesElems (.vrcp d a) s d 9 w (s.vty != 0) (approx 3) ∧ GivesElems (.vrsqrt d a) s d 9 w (s.vty != 0) (approx 4) ∧
         GivesElems (.vexp2 d a) s d 9 w (s.vty != 0) (approx 5) ∧ GivesElems (.vexp d a) s d 9 w (s.vty != 0) (approx 6) ∧
         GivesElems (.vlog2 d a) s d 9 w (s.vty != 0) (approx 7) ∧ GivesElems (.vtanh d a) s d 9 w (s.vty != 0) (approx 8) ∧
         GivesElems (.vsigm d a) s d 9 w (s.vty != 0) (approx 9))) ∧
  (∀ (fn x : Nat) (e : Int) (t sat : Bool),
       let one : FVal := .fin false 1 0
       let zero (t : Bool) : FVal := .fin t 0 0
       let at_ (n : FVal) (l : List FVal) : Prop := ∀ k, k < 7 → fn = 3 + k → vunF32 fn n x sat = l.getD k one
       at_ (.nan t) (List.replicate 7 (.nan false)) ∧
       at_ (.fin t 0 e) [.inf t, .inf t, one, one, .inf true, zero t, .fin false 1 (-1)] ∧
       at_ (.inf false) [zero false, zero false, .inf false, .inf false, .inf false, one, one] ∧
       at_ (.inf true) [zero true, .nan false, zero false, zero false, .nan false, .fin true 1 0, zero false] ∧
       (∀ m, 0 < m → vunF32 4 (.fin true m e) x sat = .nan false ∧ vunF32 7 (.fin true m e) x sat = .nan false)) ∧
  (∀ (fn m x : Nat) (e : Int) (t sat : Bool), 0 < m → 3 ≤ fn → fn ≤ 9 → (t = true → fn ≠ 4 ∧ fn ≠ 7) →
       let v : FVal := .fin t m e
       let w := vunExact fn t m e
       let y := vunF32 fn v x sat
       let mid : Prop := 1 / 2 ≤ valueOf v ∧ valueOf v ≤ 2
       y = f32.decode (f32.arith ⟨0, sat⟩ 0 w) ∨
       ((∃ u n g, y = .fin u n g) ∧
         (fn = 3 ∨ fn = 4 → near (ulpExp w) w y) ∧ (fn = 5 ∨ fn = 6 → near (ulpExp w + 1) w y) ∧
         (fn = 7 → (mid → near (-22) w y) ∧ (¬mid → near (ulpExp w + 1) w y)) ∧
         (fn = 8 → near (-21) w y) ∧ (fn = 9 → near (-22) w y))) ∧
  (∀ (f : Fmt) (o : Rnd) (r m : Nat) (t : Bool) (e : Int), f ∈ [f64, f32, f16, bf16, e5m2, e4m3] → r < 2 ^ 16 →
       RoundsTo f o r t (m * 2 ^ e) (f.arith o r (.fin t m e)) ∧
       f.arith o r (.nan t) = f.nanBits false ∧ f.arith o r (.inf t) = f.infBits t ∧
       f.maxBits true = f.maxBits false + 2 ^ (f.width - 1) ∧ f.nanBits true = f.nanBits false + 2 ^ (f.width - 1) ∧
       f.infBits true = f.infBits false + 2 ^ (f.width - 1) ∧
       f.decode (f.nanBits t) = .nan t ∧ (f ≠ e4m3 → f.decode (f.infBits t) = .inf t)) ∧
  ([f64, f32, f16, bf16, e5m2, e4m3].map (·.width) = [64, 32, 16, 16, 8, 8] ∧
     [f64, f32, f16, bf16, e5m2, e4m3].map (fun f => f.decode (f.maxBits false)) =
       [.fin false (2 ^ 53 - 1) 971, .fin false (2 ^ 24 - 1) 104, .fin false 2047 5, .fin false 255 120, .fin false 7 13, .fin false 14 5] ∧
     [f64, f32, f16, bf16, e5m2, e4m3].map (·.nanBits false) = [0x7FF8000000000000, 0x7FC00000, 0x7E00, 0x7FC0, 0x7E, 0x7F] ∧
     [f64, f32, f16, bf16, e5m2].map (·.infBits false) = [0x7FF0000000000000, 0x7F800000, 0x7C00, 0x7F80, 0x7C] ∧
     e4m3.infBits false = 0x7F) ∧
  (∀ (mode m n : Nat) (t u : Bool) (g h : Int),
       let x : FVal := .fin t m g
       let y : FVal := .fin u n h
       (∃ v k i, FVal.add mode x y = .fin v k i ∧ valueOf (.fin v k i) = valueOf x + valueOf y ∧
         (valueOf x + valueOf y = 0 → v = if m = 0 ∧ n = 0 ∧ t = u then t else decide (mode = 3))) ∧
       (∃ k i, x.mul y = .fin (t != u) k i ∧ (k : ℚ) * 2 ^ i = (m * 2 ^ g) * (n * 2 ^ h)) ∧
       FVal.add mode (.inf t) y = .inf t ∧ FVal.add mode x (.inf u) = .inf u ∧
       FVal.add mode (.inf t) (.inf u) = (if t = u then .inf t else .nan false) ∧
       FVal.mul (.inf t) y = (if n = 0 then .nan false else .inf (t != u)) ∧
       x.mul (.inf u) = (if m = 0 then .nan false else .inf (t != u)) ∧ FVal.mul (.inf t) (.inf u) = .inf (t != u)) ∧
  (∀ (mode : Nat) (x y : FVal),
       let nan (z : FVal) : Prop := ∃ t, z = .nan t
       (nan x ∨ nan y → nan (FVal.add mode x y) ∧ nan (x.mul y) ∧ x.minimum y = .nan false ∧ x.maximum y = .nan false) ∧
       (¬nan x → ¬nan y →
         (below x y → x.minimum y = x ∧ x.maximum y = y) ∧ (below y x → x.minimum y = y ∧ x.maximum y = x) ∧
         (¬below x y → ¬below y x → x.minimum y = (if x.sign then x else y) ∧ x.maximum y = (if x.sign then y else x))))

/-- R138, R140: the integer forms modulo 2^w, clamped, or by value; under any type the bitwise forms by elements and the
selects by lanes, each lane under its own mask bit. Under a 64-bit type that mask bit is the model's choice: log entry 31. -/
def Obligations.VectorIntegerBitwiseAndSelectForms : Prop :=
  (∀ (s : State) (d a b : Nat), 6 ≤ s.vty →
       let w := s.vw
       let x := src s w a
       let y := src s w b
       let sx (v : Nat) : Int := if v < 2 ^ (w - 1) then (v : Int) else (v : Int) - ((2 ^ w : Nat) : Int)
       let val (v : Nat) : Int := if vtySigned s.vty then sx v else (v : Int)
       let back (i : Int) : Nat := (i % ((2 ^ w : Nat) : Int)).toNat
       let lo : Int := if vtySigned s.vty then -((2 ^ (w - 1) : Nat) : Int) else 0
       let hi : Int := if vtySigned s.vty then ((2 ^ (w - 1) : Nat) : Int) - 1 else ((2 ^ w : Nat) : Int) - 1
       let two (i : Instr) (f : Nat → Nat) : Prop := GivesElems i s d 3 w false f
       two (.viadd d a b) (fun e => x e + y e) ∧
       two (.visub d a b) (fun e => x e + 2 ^ w - y e) ∧
       two (.vimul d a b) (fun e => x e * y e) ∧
       two (.vimulh d a b) (fun e => back (val (x e) * val (y e) / ((2 ^ w : Nat) : Int))) ∧
       two (.vshl d a b) (fun e => x e * 2 ^ (y e % w)) ∧
       two (.vshr d a b) (fun e => x e / 2 ^ (y e % w)) ∧
       two (.vsar d a b) (fun e => back (sx (x e) / ((2 ^ (y e % w) : Nat) : Int))) ∧
       two (.vimin d a b) (fun e => if val (y e) < val (x e) then y e else x e) ∧
       two (.vimax d a b) (fun e => if val (x e) < val (y e) then y e else x e) ∧
       two (.viadds d a b) (fun e => back (max lo (min hi (val (x e) + val (y e))))) ∧
       two (.visubs d a b) (fun e => back (max lo (min hi (val (x e) - val (y e))))) ∧
       (vtySigned s.vty = true → two (.viabs d a) fun e => (sx (x e)).natAbs) ∧
       two (.vineg d a) (fun e => 2 ^ w - x e)) ∧
  (∀ (s : State) (d a b c : Nat),
       let w := s.vw
       let x := src s w a
       let y := src s w b
       GivesElems (.vand d a b) s d 3 w false (fun e => x e &&& y e) ∧
       GivesElems (.vor d a b) s d 3 w false (fun e => x e ||| y e) ∧
       GivesElems (.vxor d a b) s d 3 w false (fun e => x e ^^^ y e) ∧
       GivesElems (.vandn d a b) s d 3 w false (fun e => x e &&& (y e ^^^ (2 ^ w - 1))) ∧
       GivesElems (.vsel d a b c) s d 3 32 false (fun e => if src s 32 c e ≠ 0 then src s 32 a e else src s 32 b e) ∧
       GivesElems (.vsels d a b c) s d 3 32 false (fun e => if 2 ^ 31 ≤ src s 32 c e then src s 32 a e else src s 32 b e))

/-- R139: compares into a register and onto the mask stack; of integers by value, of floating types by value too, every
ordered condition false of a NaN. A stack holds 16 entries (log entry 30). -/
def Obligations.VectorComparesGiveOnesOrPush : Prop :=
  ∀ (s : State) (d a b k : Nat), cmpTypes s.vty k = true →
    let w := s.vw
    let holds (e : Nat) : Bool := elemCond s.vty k (src s w a e) (src s w b e)
    let lat := if 6 ≤ s.vty then 3 else 5
    GivesElems (.vcmp d a b k) s d lat w false (fun e => if holds e then 2 ^ w - 1 else 0) ∧
    (32 ≤ w → s.maskDepth < 16 →
      ∃ m : Word, Collects (.vcmpm a b k) s [.land lat .mask (.stack ((m :: s.mb.mask).take 16) 1 0)] ∧
        ∀ j, j < 64 → m.getLsbD j = (holds (j * 32 / w) && s.mb.top.getLsbD j)) ∧
    (6 ≤ s.vty → ∀ e, e < 2048 / w →
      let v (n : Nat) : Int := if vtySigned s.vty ∧ 2 ^ (w - 1) ≤ n then (n : Int) - ((2 ^ w : Nat) : Int) else (n : Int)
      let x := v (src s w a e)
      let y := v (src s w b e)
      (k = 0 → (holds e = true ↔ x = y)) ∧ (k = 1 → (holds e = true ↔ x ≠ y)) ∧ (k = 2 → (holds e = true ↔ x < y)) ∧
      (k = 3 → (holds e = true ↔ x ≤ y)) ∧ (k = 4 → (holds e = true ↔ y < x)) ∧ (k = 5 → (holds e = true ↔ y ≤ x))) ∧
    (s.vty ≤ 3 → k ≤ 6 → ∀ e, e < 2048 / w →
      let x := s.vf.decode (src s w a e)
      let y := s.vf.decode (src s w b e)
      let unordered : Prop := (∃ t, x = .nan t) ∨ ∃ t, y = .nan t
      (unordered → (holds e = true ↔ k = 1 ∨ k = 6)) ∧
      (¬unordered →
        (k = 0 → (holds e = true ↔ ¬below x y ∧ ¬below y x)) ∧ (k = 1 → (holds e = true ↔ below x y ∨ below y x)) ∧
        (k = 2 → (holds e = true ↔ below x y)) ∧ (k = 3 → (holds e = true ↔ ¬below y x)) ∧
        (k = 4 → (holds e = true ↔ below y x)) ∧ (k = 5 → (holds e = true ↔ ¬below x y)) ∧ (k = 6 → holds e = false)))

/-- R32 to R35, R42 to R44, R46, R141, R142: conversions between element types, and to and from TE blocks; what convElem gives by value
between any two types, the exponents and magnitudes a block keeps of its elements, and what an element of a block gives back. -/
def Obligations.VectorConversionsGiveTheirElements : Prop :=
  (∀ (s : State) (d a p t : Nat),
    let ws := vtyWidth t
    let wt := s.vw
    let k := max ws wt / min ws wt
    let base := if wt < ws then p * (2048 / ws) else 0
    let part := if ws ≤ wt then p * (2048 / wt) else 0
    let n := min (2048 / ws) (2048 / wt)
    k ≤ 4 → p < k →
      GivesVec (.vcvt d a p t) s d 5 wt (convRounds t s.vty)
        (fun e => decide (base ≤ e ∧ e < base + n) && elemOn wt s.top e)
        (fun e => if base ≤ e ∧ e < base + n then convElem t s.vty s.rnd (s.elemRandom wt e) (src s ws a (part + (e - base))) else 0)) ∧
  (∀ (s : State) (d a m : Nat), m ≤ 24 →
    let half (b : Nat) : List (Nat × Nat) := (List.range 32).map fun i => (src s 32 a (32 * b + i), s.elemRandom 32 (32 * b + i))
    GivesAll (.vcvtTote d a m) s d 5 32 true (fun e =>
      let t := teOfF32 m s.rnd (half (e / 32))
      if e % 32 < m + 2 then t.plane m (e % 32) else if e % 32 = 31 then t.exps else 0) ∧
    GivesElems (.vcvtFrte d a m) s d 5 32 true (fun e =>
      let t := teOfPlanes m 32 ((List.range (m + 2)).map fun q => src s 32 a (32 * (e / 32) + q))
        (src s 32 a (32 * (e / 32) + 31) % 2 ^ 16)
      match t.el[e % 32]? with
      | some x => f32.convert s.rnd (s.elemRandom 32 e) (t.value m m x)
      | none => 0)) ∧
  (∀ (a b r x : Nat) (o : Rnd), a ≤ 13 → b ≤ 13 → x < 2 ^ vtyWidth a →
    let m : Int := ((2 ^ vtyWidth b : Nat) : Int)
    let lo : Int := if vtySigned b then -m / 2 else 0
    let hi : Int := if vtySigned b then m / 2 - 1 else m - 1
    let val : Int := if vtySigned a ∧ 2 ^ (vtyWidth a - 1) ≤ x then (x : Int) - ((2 ^ vtyWidth a : Nat) : Int) else (x : Int)
    let y : Int := (convElem a b o r x : Int)
    let v := ((vtyFmt a).getD f32).decode x
    (a = b → y = (x : Int)) ∧
    (6 ≤ a → 6 ≤ b → vtyWidth a < vtyWidth b → y = val % m) ∧
    (6 ≤ a → 6 ≤ b → a ≠ b → vtyWidth b ≤ vtyWidth a →
      (o.sat = false → y = (x : Int) % m) ∧ (o.sat = true → y = max lo (min hi val) % m)) ∧
    (a ≤ 5 → 6 ≤ b →
      (∀ t, v = .nan t → y = 0) ∧ (∀ t, v = .inf t → y = (if t then lo else hi) % m) ∧
      (∀ t n e, v = .fin t n e → r < 2 ^ 16 → ∃ k : Nat, RoundsInt o.mode r t (n * 2 ^ e) k ∧
        y = max lo (min hi (if t then -(k : Int) else k)) % m)) ∧
    (b ≤ 5 → a ≠ b →
      let g := (vtyFmt b).getD f32
      let z := convElem a b o r x
      (6 ≤ a → r < 2 ^ 16 → RoundsTo g o r (decide (val < 0)) |(val : ℚ)| z) ∧
      (a ≤ 5 → (∀ t, v = .nan t → z = g.nanBits t) ∧ (∀ t, v = .inf t → z = if o.sat then g.maxBits t else g.infBits t) ∧
        ∀ t n e, v = .fin t n e → r < 2 ^ 16 → RoundsTo g o r t (n * 2 ^ e) z))) ∧
  (∀ (r x : Nat) (o : Rnd),
    (x < 2 ^ 32 → valueOf (f64.decode (convElem 6 1 o r x)) = ((if x < 2 ^ 31 then (x : Int) else (x : Int) - 2 ^ 32 : Int) : ℚ)) ∧
    (x < 2 ^ 16 → ∀ t n e, bf16.decode x = .fin t n e → valueOf (f32.decode (convElem 2 0 o r x)) = valueOf (bf16.decode x))) ∧
  (∀ (m : Nat) (o : Rnd) (l : List (Nat × Nat)), 2 ≤ m → m ≤ 24 → (∀ p, p ∈ l → p.1 < 2 ^ 32) →
    let t := teOfF32 m o l
    t.el.length = l.length ∧ t.e0 ≤ t.e1 ∧ t.e1 ≤ 255 ∧
    ((∀ p, p ∈ l → p.1 % 2 ^ 31 = 0) → t.e1 = 0 ∧ t.e0 = 0) ∧
    ∀ (k : Nat) (p : Nat × Nat), l[k]? = some p → ∃ y : TeElem, t.el[k]? = some y ∧ y.s = p.1.testBit 31 ∧
      (p.1 % 2 ^ 31 = 0 → y.x = false ∧ y.m = 0) ∧
      (2 ^ 31 - 2 ^ 23 < p.1 % 2 ^ 31 ∨ (p.1 % 2 ^ 31 = 2 ^ 31 - 2 ^ 23 ∧ o.sat = false) → t.e1 = 255 ∧ y.x = true ∧ y.m = 2 ^ m - 1)) ∧
  (∀ (m : Nat) (o : Rnd) (l : List (Nat × Nat)), 2 ≤ m → m ≤ 24 → (∀ p, p ∈ l → p.1 < 2 ^ 32 ∧ p.2 < 2 ^ 16) →
    let t := teOfF32 m o l
    let bad (p : Nat × Nat) : Prop := 2 ^ 31 - 2 ^ 23 < p.1 % 2 ^ 31 ∨ (p.1 % 2 ^ 31 = 2 ^ 31 - 2 ^ 23 ∧ o.sat = false)
    let anyBad : Prop := ∃ p, p ∈ l ∧ bad p
    let size (p : Nat × Nat) : ℚ :=
      if p.1 % 2 ^ 31 = 2 ^ 31 - 2 ^ 23 then (2 ^ m - 1) * 2 ^ (128 - m : Int) else |valueOf (f32.decode p.1)|
    let counts (p : Nat × Nat) : Prop := ¬bad p ∧ size p ≠ 0
    ∃ e : Nat → Int,
      (∀ k p, l[k]? = some p → counts p → RoundedExponent m o.mode p.2 (p.1.testBit 31) (size p) (e k)) ∧
      let of (P : Int → Prop) : Prop := ∃ k p, l[k]? = some p ∧ counts p ∧ P (e k)
      let all (P : Int → Prop) : Prop := ∀ k p, l[k]? = some p → counts p → P (e k)
      ((¬of fun _ => True) → t.e0 = 0 ∧ (anyBad → t.e1 = 255) ∧ (¬anyBad → t.e1 = 0)) ∧
      ((of fun _ => True) → ∃ top low : Int,
        let lo (i : Int) : Prop := anyBad ∨ i < top - ((m / 2 : Nat) : Int)
        let settle (i : Int) : Int := if 254 < i then (if o.sat then 254 else 255) else max 0 i
        (of fun i => i = top) ∧ (all fun i => i ≤ top) ∧
        ((of lo) → (of fun i => lo i ∧ i = low) ∧ all fun i => lo i → i ≤ low) ∧ ((¬of lo) → low = top) ∧
        (t.e0 : Int) = settle low ∧ (anyBad → t.e1 = 255) ∧ (¬anyBad → (t.e1 : Int) = settle top) ∧
        ∀ k p, l[k]? = some p → counts p → ∃ y i, t.el[k]? = some y ∧ y.s = p.1.testBit 31 ∧
          (lo (e k) → y.x = false ∧ i = low) ∧ (¬lo (e k) → y.x = true ∧ i = top) ∧
          (254 < i → o.sat = false → y.m = 2 ^ m - 1) ∧
          (i ≤ 254 ∨ o.sat = true → ∃ n, RoundsInt o.mode p.2 (p.1.testBit 31) (size p / 2 ^ (max 0 (min i 254) - 126 - m : Int)) n ∧
            y.m = if 254 < i then min n (2 ^ m - 1) else n))) ∧
  (∀ (m r : Nat) (o : Rnd) (t : TeBlock) (y : TeElem), 2 ≤ m → m ≤ 24 → r < 2 ^ 16 →
    let i := if y.x then t.e1 else t.e0
    let z := f32.convert o r (t.value m m y)
    (i = 255 → z = f32.nanBits y.s) ∧ (i ≠ 255 → RoundsTo f32 o r y.s (y.m * 2 ^ ((i : Int) - 126 - m)) z))

/-- R145, R146: lanes move as the table of each form says. -/
def Obligations.VectorPermutationsMoveLanes : Prop :=
  ∀ (s : State) (d a b c n : Nat), n < 64 →
    let x := src s 32 a
    let y := src s 32 b
    let z := src s 32 c
    let moves (i : Instr) (f : Nat → Nat) : Prop := GivesElems i s d 4 32 false f
    moves (.vperm d a b) (fun j => x (y j % 64)) ∧
    moves (.vperm2 d a b c) (fun j => if y j % 128 < 64 then x (y j % 128) else z (y j % 128 - 64)) ∧
    moves (.vzipl d a b) (fun j => if j % 2 = 0 then x (j / 2) else y (j / 2)) ∧
    moves (.vziph d a b) (fun j => if j % 2 = 0 then x (32 + j / 2) else y (32 + j / 2)) ∧
    moves (.vunze d a b) (fun j => if j < 32 then x (2 * j) else y (2 * (j - 32))) ∧
    moves (.vunzo d a b) (fun j => if j < 32 then x (2 * j + 1) else y (2 * (j - 32) + 1)) ∧
    moves (.vrot d a n) (fun j => x ((j + n) % 64)) ∧
    moves (.vshd d a n) (fun j => if j + n < 64 then x (j + n) else 0) ∧
    moves (.vcat d a b n) (fun j => if j + n < 64 then x (j + n) else y (j + n - 64))

/-- R147, R148: reductions and scans in the tree and running orders of the rules, which are pinned on lists; on floating elements each
step one rounding in f32 or f64 of the exact sum, the minimum or the maximum; of integers, sums modulo 2^w and minima and maxima by value; the
bitwise kinds bit by bit. -/
def Obligations.VectorReductionsAndScans : Prop :=
  ∀ (s : State) (d a : Nat),
    let w := s.vw
    let n := 2048 / w
    let x (e : Nat) : Nat := if elemOn w s.top e then src s w a e else 0
    let red (kind e : Nat) : Nat := if e = 0 then s.redOut (treeFold (s.redOp kind) 8 (s.redElems a kind)) else 0
    let scan (kind : Nat) (excl : Bool) (e : Nat) : Nat :=
      s.redOut ((scanFrom (s.redOp kind) excl (s.redId kind) (s.redElems a kind)).getD e 0)
    (s.vty ≠ 4 → s.vty ≠ 5 →
      GivesAll (.vredadd d a) s d 7 w false (red 0) ∧ GivesAll (.vredmin d a) s d 7 w false (red 1) ∧
      GivesAll (.vredmax d a) s d 7 w false (red 2) ∧
      GivesElems (.vscanadd d a) s d 7 w false (scan 0 false) ∧ GivesElems (.vscanmin d a) s d 7 w false (scan 1 false) ∧
      GivesElems (.vscanmax d a) s d 7 w false (scan 2 false) ∧ GivesElems (.vscanxadd d a) s d 7 w false (scan 0 true) ∧
      GivesElems (.vscanxmin d a) s d 7 w false (scan 1 true) ∧ GivesElems (.vscanxmax d a) s d 7 w false (scan 2 true)) ∧
    (6 ≤ s.vty →
      GivesAll (.vredadd d a) s d 7 w false (fun e => if e = 0 then ((List.range n).map x).sum else 0) ∧
      GivesElems (.vscanadd d a) s d 7 w false (fun e => ((List.range (e + 1)).map x).sum) ∧
      GivesElems (.vscanxadd d a) s d 7 w false (fun e => ((List.range e).map x).sum)) ∧
    (s.vty ≤ 3 →
      let wide : Prop := s.vty = 2 ∨ s.vty = 3
      let f := if s.vty = 1 then f64 else f32
      let o : Rnd := ⟨if s.rnd.mode = 4 then 0 else s.rnd.mode, s.rnd.sat⟩
      (∀ u v, s.redOp 0 u v = f.arith o 0 (FVal.add o.mode (f.decode u) (f.decode v)) ∧
        s.redOp 1 u v = f.arith o 0 ((f.decode u).minimum (f.decode v)) ∧
        s.redOp 2 u v = f.arith o 0 ((f.decode u).maximum (f.decode v))) ∧
      (∀ u, (wide → s.redOut u = s.vf.arith o 0 (f32.decode u)) ∧ (¬wide → s.redOut u = u)) ∧
      s.redId 0 = 2 ^ (f.width - 1) ∧ s.redId 1 = f.infBits false ∧ s.redId 2 = f.infBits true ∧
      ∀ kind, kind ≤ 2 → (s.redElems a kind).length = n ∧ ∀ e, e < n →
        let u := (s.redElems a kind).getD e 0
        let v := s.vf.decode (src s w a e)
        (elemOn w s.top e = false → u = s.redId kind) ∧
        (elemOn w s.top e = true → ¬wide → u = src s w a e) ∧
        (elemOn w s.top e = true → wide → (∀ t, v = .nan t → f32.decode u = .nan t) ∧ (∀ t, v = .inf t → f32.decode u = .inf t) ∧
          ∀ t k g, v = .fin t k g → ∃ m h, f32.decode u = .fin t m h ∧ (m : ℚ) * 2 ^ h = k * 2 ^ g)) ∧
    (6 ≤ s.vty →
      let val (u : Nat) : Int := if vtySigned s.vty ∧ 2 ^ (w - 1) ≤ u then (u : Int) - ((2 ^ w : Nat) : Int) else u
      (∀ u v, u < 2 ^ w → v < 2 ^ w →
        (val (s.redOp 1 u v) = min (val u) (val v) ∧ s.redOp 1 u v < 2 ^ w) ∧
        (val (s.redOp 2 u v) = max (val u) (val v) ∧ s.redOp 2 u v < 2 ^ w) ∧
        (∀ kind, kind = 1 ∨ kind = 2 → s.redOp kind (s.redId kind) v = v)) ∧
      (∀ u, s.redOut u = u) ∧
      ∀ kind, kind ≤ 2 → (s.redElems a kind).length = n ∧ ∀ e, e < n →
        (s.redElems a kind).getD e 0 = if elemOn w s.top e then src s w a e else s.redId kind) ∧
    (∀ (f : Nat → Nat → Nat) (u : Nat) (l : List Nat),
      treeFold f 8 [u] = u ∧
      (∀ m, 1 ≤ m → m ≤ 128 → l.length = 2 * m →
        treeFold f 8 l = treeFold f 8 ((List.range m).map fun i => f (l.getD (2 * i) 0) (l.getD (2 * i + 1) 0))) ∧
      (∀ excl, (scanFrom f excl u l).length = l.length) ∧
      ∀ e, e < l.length → (scanFrom f false u l).getD e 0 = (l.take (e + 1)).foldl f u ∧
        (scanFrom f true u l).getD e 0 = (l.take e).foldl f u) ∧
    (∃ r, GivesAll (.vredand d a) s d 7 w false (fun e => if e = 0 then r else 0) ∧ r < 2 ^ w ∧
      ∀ k, k < w → r.testBit k = (List.range n).all fun e => !elemOn w s.top e || (src s w a e).testBit k) ∧
    (∃ r, GivesAll (.vredor d a) s d 7 w false (fun e => if e = 0 then r else 0) ∧ r < 2 ^ w ∧
      ∀ k, k < w → r.testBit k = (List.range n).any fun e => (x e).testBit k) ∧
    (∃ r, GivesAll (.vredxor d a) s d 7 w false (fun e => if e = 0 then r else 0) ∧ r < 2 ^ w ∧
      ∀ k, k < w → r.testBit k = (((List.range n).filter fun e => (x e).testBit k).length % 2 == 1))

/-- R149 to R151: compaction, masks as lanes, constants, lanes as scalars. A stack holds 16 entries (log entry 30). -/
def Obligations.VectorCompactionConstantsAndExtracts : Prop :=
  ∀ (s : State) (d a : Nat),
    let x := src s 32 a
    let on (j : Nat) : Bool := s.mb.top.getLsbD j
    GivesAll (.vcomp d a) s d 4 32 false (fun e => (((List.range 64).filter on).map x).getD e 0) ∧
    GivesElems (.vexpd d a) s d 4 32 false (fun e => x ((List.range e).filter on).length) ∧
    GivesAll (.vm2v d) s d 4 32 false (fun e => if on e then 2 ^ 32 - 1 else 0) ∧
    (s.maskDepth < 16 →
      ∃ m : Word, Collects (.vnzm a) s [.land 4 .mask (.stack ((m :: s.mb.mask).take 16) 1 0)] ∧
        ∀ j, j < 64 → m.getLsbD j = (x j != 0 && on j)) ∧
    (∀ i, i < 2 ^ 20 →
      GivesElems (.vmovi d i) s d 3 32 false (fun _ => if i < 2 ^ 19 then i else 2 ^ 32 - 2 ^ 20 + i) ∧
      GivesElems (.vmovih d i) s d 3 32 false (fun _ => i * 2 ^ 12)) ∧
    (∀ l, l < 64 →
      (∃ w, Gives (.vext d a l) s d 4 w ∧ w.toNat = x l) ∧
      (∃ w, Gives (.vexts d a l) s d 4 w ∧ w.toInt = if x l < 2 ^ 31 then (x l : Int) else (x l : Int) - 2 ^ 32)) ∧
    (∀ l, l < 63 → ∃ w, Gives (.vext64 d a l) s d 4 w ∧ w.toNat = x l + x (l + 1) * 2 ^ 32)

/-- R96, R152, R153: rows of the accumulators that the crew was granted, read and written by quarters. -/
def Obligations.AccumulatorRowsAreReadAndWritten : Prop :=
  ∀ (s : State) (d a b q u : Nat), s.seqBusy = false → s.me.crew ≠ 0xFFFF → bit s.myCrew.accm u = true → s.rsn b < 128 →
    let row := s.rsn b
    let elem (u n : Nat) : Nat := (s.core s.bun.core).accRow u row / 2 ^ (32 * n) % 2 ^ 32
    (q < 2 →
      (∃ en v, Collects (.vaccr d b q u) s [.land 7 (.v d) (.vec en v (s.accBad u row (64 * q) 64))] ∧
        (∀ k, k < 2048 → en.getLsbD k = elemOn 32 s.top (k / 32)) ∧ ∀ e, e < 64 → elemAt 32 v e = elem u (64 * q + e)) ∧
      (∃ en v, Collects (.vaccw a b q u) s [.accWrite u row en v] ∧
        ∀ e, e < 128 → en / 2 ^ (32 * e) % 2 ^ 32 = (if e / 64 = q ∧ elemOn 32 s.top (e % 64) = true then 2 ^ 32 - 1 else 0) ∧
          (e / 64 = q → v / 2 ^ (32 * e) % 2 ^ 32 = src s 32 a (e % 64)))) ∧
    (q < 4 → bit s.myCrew.accm (u + 1) = true →
      (∃ en v m, Collects (.vaccrF64 d b q u) s [.land 7 (.v d) (.vec en v m)] ∧
        (∀ k, k < 2048 → en.getLsbD k = elemOn 64 s.top (k / 64)) ∧
        ∀ e, e < 32 → elemAt 64 v e = elem u (32 * q + e) + elem (u + 1) (32 * q + e) * 2 ^ 32) ∧
      (∃ en0 v0 en1 v1, Collects (.vaccwF64 a b q u) s [.accWrite u row en0 v0, .accWrite (u + 1) row en1 v1] ∧
        ∀ e, e < 128 →
          let on := if e / 32 = q ∧ elemOn 64 s.top (e % 32) = true then 2 ^ 32 - 1 else 0
          en0 / 2 ^ (32 * e) % 2 ^ 32 = on ∧ en1 / 2 ^ (32 * e) % 2 ^ 32 = on ∧
          (e / 32 = q → v0 / 2 ^ (32 * e) % 2 ^ 32 = src s 64 a (e % 32) % 2 ^ 32 ∧
            v1 / 2 ^ (32 * e) % 2 ^ 32 = src s 64 a (e % 32) / 2 ^ 32)))

/-- R154, R155, R217, R259, R260: vector memory forms in the allotment, the queue head, the check. -/
def Obligations.VectorMemoryFormsReachTheCommit : Prop :=
  (∀ (s : State) (d a b c m : Nat), gateOpen s = true → m < 3 →
    let ea := (s.rs a).toNat
    let o := ea % 2 ^ 40
    let base := (s.allot s.bun.core s.me.crew).1
    let size := (s.allot s.bun.core s.me.crew).2
    let square := o / 2 ^ 14 * 2 ^ 14
    let r := o / 4 % 4096 / 64
    let k := o / 4 % 64
    let place (j : Nat) : Nat := base + square +
      4 * (if m = 0 then r * 64 + (k + j) % 64 else if m = 1 then (r + j) % 64 * 64 + k else r * 64 + j)
    let on (j : Nat) : Bool := s.mb.top.getLsbD j
    (isAperture ea = true → ea % (if m = 2 then 256 else 4) = 0 → square + 16384 ≤ size →
      (∃ en, Collects (.vld d a m) s [.vload d en ((List.range 64).map place) 5] ∧
        ∀ i, i < 2048 → en.getLsbD i = on (i / 32)) ∧
      Collects (.vst a c m) s [.vstore (((List.range 64).filter on).map fun j => (place j, src s 32 c j))]) ∧
    (let at_ (j : Nat) : Nat := (ea + 4 * src s 32 b j) % 2 ^ 64
     (∀ j, j < 64 → on j = true → isAperture (at_ j) = true ∧ at_ j % 4 = 0 ∧ at_ j % 2 ^ 40 + 4 ≤ size) →
      let words (k : Nat) : Finset Nat := ((((List.range 64).filter on).map fun j => at_ j % 2 ^ 40 / 4).filter fun w =>
        (w % 4096 / 64 + w % 64) % 64 == k).toFinset
      ∃ n, 1 ≤ n ∧ (∀ k, k < 64 → (words k).card ≤ n) ∧ (n = 1 ∨ ∃ k, k < 64 ∧ (words k).card = n) ∧
        (∃ en, exec (.vgat d a b) s = .next { s with bun := { s.bun with
            extra := n - 1
            effs := s.bun.effs ++ [.vload d en ((List.range 64).map fun j => base + at_ j % 2 ^ 40) (4 + n)] } } ∧
          ∀ i, i < 2048 → en.getLsbD i = on (i / 32)) ∧
        exec (.vscat a b c) s = .next { s with bun := { s.bun with
          extra := n - 1
          effs := s.bun.effs ++ [.vstore (((List.range 64).filter on).map fun j => (base + at_ j % 2 ^ 40, src s 32 c j))] } })) ∧
  (∀ (s : State) (d k : Nat), s.qReady k = true →
    ∃ en, Collects (.vqh d k) s [.land 3 (.v d) (.vec en (BitVec.ofNat 2048 (s.qHeadValue k).1) (b2n (s.qHeadValue k).2))] ∧
      ∀ i, i < 2048 → en.getLsbD i = elemOn 32 s.top (i / 32)) ∧
  (∀ (s : State) (a b : Nat), (∀ j, j < 64 → src s 32 a j = src s 32 b j) → Collects (.vchk a b) s []) ∧
  (∀ (s : State) (a b j : Nat), untouched s = true → j < 64 → src s 32 a j ≠ src s 32 b j →
    (∀ i, i < j → src s 32 a i = src s 32 b i) → Traps (.vchk a b) s 0x0C (a + b * 32 + j * 1024))

/-! ### Matrix words and copies (M and C maps) -/

/-- R157, R160, R165, R172 to R185: a matrix word that meets no condition of R185, whose operands are aligned and
inside the allotment and whose accumulators were granted, goes to the sequencer at commit with what it captured at
issue; tstacc.g also with the pages of its rows (where a mirage window shows them, those of its shadow), as they translate
then, under their caching bits and their HEAT. The
model's own choices in it: log entries 26 and 32 (the bounds of triangular products and of tlpl, mtExtents; which free
value says how late the rows are written). -/
def Obligations.MatrixWordsReachTheSequencer : Prop :=
  (∀ (s : State) (i : Instr) (g f x y u : Nat),
    i ∈ [Instr.tmm g x y, .tmmt g x y, .tlx g x y, .tlxT g x y, .tlxX g x y, .tlxTx g x y, .tla g x y, .tlaT g x y, .tproj g x y,
      .tlplE g x y, .tlplA g x y, .tlplEa g x y, .tzero u, .tldacc f x y u, .tstacc f x y u, .tscale x y u] →
    let w := s.mtCapture i
    (s.core s.bun.core).seqr.frozen = false → s.seqAccepts = true → s.mtDetail w false false = none → s.me.crew ≠ 0xFFFF →
    (∀ e, e ∈ mtExtents w → e.base % e.al = 0 ∧ e.base + e.len ≤ (s.allot s.bun.core s.me.crew).2) →
    mtAccs w &&& s.myCrew.accm = mtAccs w →
    Collects i s ((if mtResults w ≠ 0 ∧ fmtRnd s.fmtn = 4 then [.srTake (fmtSri s.fmtn) ((mtResults w + 63) / 64)] else []) ++ [.mt w])) ∧
  (∀ (s : State) (f x y u : Nat),
    let i := Instr.tstaccG f x y u
    let w := s.mtCapture i
    let len := 128 * mtWidth i
    (s.core s.bun.core).seqr.frozen = false → s.seqAccepts = true → s.mtDetail w false false = none → s.me.crew ≠ 0xFFFF →
    let look (va : Nat) : Access := s.lookup s.bun.core s.me.space va false true false
    let touched (va : Nat) : Prop := ∃ r v, r < 128 ∧ w.x.toNat + r * w.y.toNat ≤ v ∧ v < w.x.toNat + r * w.y.toNat + len ∧
      va = (hiddenAddress (s.mirages s.me.space) v).getD v
    (∀ m, m ∈ s.mirages s.me.space → m.1 % 64 = 0 ∧ m.2.1 % 64 = 0 ∧ m.2.2 % 64 = 0) →
    (∀ va, touched va → va < 2 ^ 56 ∧ isAperture (va / 65536 * 65536) = false ∧
      (∃ pa key, look (va / 65536 * 65536) = .at_ pa key true ∧ isGlobal pa = true) ∧
      ∃ pa key, look (va / 4096 * 4096) = .at_ pa key true) →
    w.x.toNat % mtWidth i = 0 → mtAccs w &&& s.myCrew.accm = mtAccs w →
    ∃ t rows, exec i s = .next t ∧ SameButBundle s t ∧ t.bun.trap = s.bun.trap ∧ t.bun.hold = s.bun.hold ∧
      t.bun.effs.getLast? = some (.mt { w with rows := rows, late := Config.freeNat s.free }) ∧
      (∀ e, e ∈ rows → (∃ va, touched va ∧ e.1 = va / 65536) ∧ ∃ key, look (e.1 * 65536) = .at_ e.2.1 key true ∧
        e.2.2 = key + 256 * (s.leafOf s.bun.core s.me.space (e.1 * 65536) / 2 ^ 5 % 2 ^ 3)) ∧
      ∀ va, touched va → va / 65536 ∈ rows.map (·.1)) ∧
  (∀ s : State, (s.core s.bun.core).seqr.frozen = false → s.seqBusy = false → s.me.crew ≠ 0xFFFF → Collects .twait s [.twait])

/-- R304, R306, R321 to R329, R339, R342: a copy-port form whose descriptor passes every check and finds a free track
goes to its engine at commit; drain goes on once the channel is idle and fault-free; qpush takes the tail of its
queue. The model's own choices in it: log entry 18. -/
def Obligations.CopyFormsReachTheirEngine : Prop :=
  (∀ (s : State) (i : Instr) (ch g x y : Nat), gateOpen s = true →
    (i ∈ [Instr.stash ch g x y, .chsend ch g x y, .glean ch g x y] ∨
      ∃ m f, i ∈ [Instr.cpy ch g x y f, .cpym ch g x y m f, .rdx ch g x y m f, .unstash ch g x y f]) →
    (∀ c, c ∈ s.copyChecks i g x y → c.1 = false) →
    (flagP i = true → s.me.phase.opened = true → s.me.phase.log.length < 16) →
    (s.tracksBusy s.bun.core (ch % 2)).length < 8 →
    let ds := s.descriptor g
    let dst := (nth 0 ds 1).toNat
    let e := s.tch ((s.rs y).toNat % 2 ^ 8)
    let blocks := shapeTotal (nth 0 ds 2).toNat / 4096
    (epKind dst = 1 → epQ dst = true → qCnt (s.queue (epQn dst)) + s.qTaken (epQn dst) < qDepth (s.queue (epQn dst))) →
    (epKind dst ≠ 1 ∨ epQ dst = false → copyMo i = 9 → (tcSeq e + blocks + 2 ^ 32 - tcAcked e) % 2 ^ 32 ≤ tcWin e) →
    (flagChn i = false ∨ (∃ w, decodeM (bits (nth 0 ds 3).toNat 32 32) = some w ∧ mtOp w = 0) →
      Collects i s [.copy i ds (s.rs x) (s.rs y) none])) ∧
  (∀ (s : State) (c y : Nat), (s.tracksBusy s.bun.core (c % 2)).length < 8 →
    let v := (s.rs y).toNat
    (v / 2 ^ 8 % 2 ^ 24 = 0 → v / 2 ^ 4 % 8 = 0 → Collects (.sdrop c y) s [.copy (.sdrop c y) [] 0 (s.rs y) none]) ∧
    (v < 2 ^ 24 → Collects (.chack c y) s [.copy (.chack c y) [] 0 (s.rs y) none])) ∧
  (∀ (s : State) (c : Nat), (∀ p, p ∈ s.copies → ¬(p.2.core = s.bun.core ∧ p.2.ch = c)) → (∀ f, f ∈ s.me.cfaults → f.1 ≠ c) →
    Collects (.drain c) s [.drain c]) ∧
  (∀ (s : State) (k x y : Nat), qEn (s.queue k) = true → s.me.crew ≠ 0xFFFF → qCnt (s.queue k) + s.qTaken k < qDepth (s.queue k) →
    Collects (.qpush k x y) s [.qpush k (s.rs x) (s.rs y) (qEsz (s.queue k))])

/-! ### Control forms (X map) -/

/-- R120 to R124, R126, R195: transfers and loops; a jump back from a handler is a return once its results have landed. What XC
reads of s[a], x, is the register where no write of a loop in it is in flight. The model's own choices in it: log entries 11
(which forms read s[a] past a pending write of loop) and 36 (a loop's write that the trap snapshot holds does not count). -/
def Obligations.TransfersAndLoopsReachTheCommit : Prop :=
  ∀ (s : State) (c a o : Nat), o < 2 ^ 17 →
    let x := s.loopCount a
    ((∀ l, l ∈ s.me.land → l.loop = true → l.dest ≠ .s a) → x = s.rs a) ∧
    let target := (s.bun.pc + 32 * if o < 2 ^ 16 then o else 2 ^ 64 - 2 ^ 17 + o) % 2 ^ 64
    let holds : Prop :=
      match c with
      | 0 => True
      | 1 => x.toNat = 0
      | 2 => x.toNat ≠ 0
      | 3 => x.toInt < 0
      | 4 => 0 ≤ x.toInt
      | 5 => 0 < x.toInt
      | _ => x.toInt ≤ 0
    let back : Prop := s.me.handler = true ∧ (x = s.cr 0x001 ∨ x = s.cr 0x001 + 32)
    let link : Eff := .land 2 (.s 31) (.word (wd (s.bun.pc + 32)) 0)
    (holds → Collects (.br c a o) s [.transfer target false]) ∧
    (¬holds → Collects (.br c a o) s []) ∧
    Collects (.call o) s [link, .transfer target false] ∧
    (¬back → Collects (.jr a) s [.transfer x.toNat false] ∧ Collects (.jrl a) s [.transfer x.toNat false, link]) ∧
    (back → s.me.land = [] → Collects (.jr a) s [.handlerReturn x.toNat] ∧ Collects (.jrl a) s [.handlerReturn x.toNat, link]) ∧
    (x = 0 → Collects (.loopEnter a o) s [.transfer target false]) ∧
    (x ≠ 0 → Collects (.loopEnter a o) s []) ∧
    (2 ≤ x.toNat → Collects (.loop a o) s [.loopCount a (x - 1), .transfer target true]) ∧
    (x.toNat < 2 → Collects (.loop a o) s [.loopCount a 0]) ∧
    (s.mb.top = 0 → Collects (.bnone o) s [.transfer target false]) ∧
    (s.mb.top ≠ 0 → Collects (.bnone o) s [])

/-- R93, R124, R125: the mask stack's pushes, inversion and pops, and the overflow of every pushing form. A stack holds 16
entries (log entry 30); s[a] is read past a pending write of loop (R124; log entry 11). -/
def Obligations.MaskStackFormsComputeTheNewStack : Prop :=
  ∀ (s : State) (a b k n : Nat),
    let x := s.loopCount a
    let gives (i : Instr) (l : List Word) (pushed popped : Nat) : Prop := Collects i s [.land 2 .mask (.stack l pushed popped)]
    (s.maskDepth < 16 →
      (∃ m, gives (.mpush a) ((m :: s.mb.mask).take 16) 1 0 ∧ ∀ j, j < 64 → m.getLsbD j = (x.getLsbD j && s.mb.top.getLsbD j)) ∧
      gives (.mpushRaw a) ((x :: s.mb.mask).take 16) 1 0) ∧
    (s.mb.mask = [] → gives .minv [] 0 0) ∧
    (∀ t, s.mb.mask = [t] → ∃ m, gives .minv [m] 0 0 ∧ ∀ j, j < 64 → m.getLsbD j = !t.getLsbD j) ∧
    (∀ t u l, s.mb.mask = t :: u :: l →
      ∃ m, gives .minv (m :: u :: l) 0 0 ∧ ∀ j, j < 64 → m.getLsbD j = (!t.getLsbD j && u.getLsbD j)) ∧
    gives (.mpop n) (s.mb.mask.drop (n + 1)) 0 (n + 1) ∧
    (16 ≤ s.maskDepth → untouched s = true →
      Traps (.mpush a) s 0x08 0 ∧ Traps (.mpushRaw a) s 0x08 0 ∧ Traps (.vnzm a) s 0x08 0 ∧
      (cmpTypes s.vty k = true → 32 ≤ s.vw → Traps (.vcmpm a b k) s 0x08 0))

/-- R94, R124, R127, R128: the fields of fmt that each fmtw writes, and no others, 4 cycles on; s[a] is read past a pending
write of loop (R124; log entry 11). -/
def Obligations.FormatWritesChangeTheirFieldsOnly : Prop :=
  ∀ (s : State),
    let becomes (i : Instr) (bit_ : Nat → Option Bool) : Prop :=
      ∃ en v, Collects i s [.land 4 .fmt (.field en v)] ∧
        ∀ (b : Bank) k, k < 64 → (b.land .fmt (.field en v)).fmt.getLsbD k = (bit_ k).getD (b.fmt.getLsbD k)
    let field (lo n v k : Nat) : Option Bool := if lo ≤ k ∧ k < lo + n then some (v.testBit (k - lo)) else none
    (∀ a, fmtReserved (s.loopCount a).toNat = false →
      becomes (.fmtw a) fun k => if 7 ≤ k ∧ k < 32 then some ((s.loopCount a).getLsbD k) else none) ∧
    (∀ t, t < 16 → becomes (.fmtwVty t) (field 7 4 t)) ∧
    (∀ a b, a < 64 → b < 64 → becomes (.fmtwMab b a) fun k => (field 11 6 b k).or (field 17 6 a k)) ∧
    (∀ i t r, i < 8 → t < 2 → r < 8 → becomes (.fmtwRnd i t r) fun k => ((field 25 3 r k).or (field 28 1 t k)).or (field 29 3 i k)) ∧
    becomes .fmtwBlk00 (fun k => (field 23 1 0 k).or (field 24 1 0 k)) ∧
    becomes .fmtwBlk01 (fun k => (field 23 1 1 k).or (field 24 1 0 k)) ∧
    becomes .fmtwBlk10 (fun k => (field 23 1 0 k).or (field 24 1 1 k)) ∧
    becomes .fmtwBlk11 (fun k => (field 23 1 1 k).or (field 24 1 1 k))

/-- R124, R129 to R131, R81, R193, R202: the traps a program asks for, halt, and yield, which an open region, handler state
or a phase with shadows makes empty; s[a] is read past a pending write of loop (R124; log entry 11). -/
def Obligations.RequestedTrapsHaltAndYield : Prop :=
  ∀ (s : State) (c a n : Nat),
    let x := s.loopCount a
    let holds : Prop :=
      match c with
      | 0 => True
      | 1 => x.toNat = 0
      | 2 => x.toNat ≠ 0
      | 3 => x.toInt < 0
      | 4 => 0 ≤ x.toInt
      | 5 => 0 < x.toInt
      | _ => x.toInt ≤ 0
    (untouched s = true → (holds → Traps (.trap c a n) s 0x13 n) ∧ Traps (.sysc n) s 0x14 n ∧ Traps (.ebrk n) s 0x15 n) ∧
    (¬holds → Collects (.trap c a n) s []) ∧
    Collects (.halt n) s [.endStrand (some n)] ∧
    (s.me.handler = false → s.me.region.opened = false → (s.me.phase.opened = false ∨ s.me.phase.mask = 0) →
      Collects .yield s [.yield]) ∧
    (s.me.handler = true ∨ s.me.region.opened = true ∨ (s.me.phase.opened = true ∧ s.me.phase.mask ≠ 0) → Collects .yield s [])

/-! ### Frames, commit and landing -/

/-- R73: a slot form changes nothing but the bundle in hand, so every register, flag, special register, accumulator
and byte of memory is as it was until the commit; the free-value count alone may move. The model's own choices in it:
log entries 2, 3. -/
def Obligations.SlotFormsChangeOnlyTheBundle : Prop :=
  ∀ (i : Instr) (s t : State), isSlotForm i = true → exec i s = .next t → SameButBundle s t

/-- R76, R91, R100, R134: a landing writes its register and nothing else of the bank; s0 discards; a vector changes
where it is enabled; qmode, scb and spin keep their one bit, tinfo keeps all of its (log entry 30). -/
def Obligations.LandingWritesItsRegisterOnly : Prop :=
  ∀ (b : Bank) (k m : Nat) (w : Word),
    (SameBankBut k b (b.land (.s k) (.word w m)) ∧ (b.land (.s k) (.word w m)).sr k = if k = 0 then 0 else w) ∧
    (∀ en x, let c := b.land (.v k) (.vec en x m)
      (∀ i, i < 2048 → (c.vr k).getLsbD i = if en.getLsbD i then x.getLsbD i else (b.vr k).getLsbD i) ∧
      (∀ j, j ≠ k → c.vr j = b.vr j) ∧
      c = { b with v := c.v, marks := c.marks }) ∧
    (∀ l p q, b.land .mask (.stack l p q) = { b with mask := l, marks := tdel b.marks 8192 }) ∧
    (let c := b.land (.mg k) (.word w m)
     tget 0 c.mg k = w ∧ (∀ j, j ≠ k → tget 0 c.mg j = tget 0 b.mg j) ∧ c = { b with mg := c.mg, marks := c.marks }) ∧
    (let c := b.land (.cg k) (.word w m)
     tget 0 c.cg k = w ∧ (∀ j, j ≠ k → tget 0 c.cg j = tget 0 b.cg j) ∧ c = { b with cg := c.cg, marks := c.marks }) ∧
    (¬(0x40 ≤ k ∧ k < 0x48) → let c := b.land (.cr k) (.word w m)
      (tget 0 c.cr k).toNat = (if 0x007 ≤ k ∧ k ≤ 0x009 then w.toNat % 2 else w.toNat) ∧
      (∀ j, j ≠ k → tget 0 c.cr j = tget 0 b.cr j) ∧ c = { b with cr := c.cr, marks := c.marks }) ∧
    (0x40 ≤ k → k < 0x48 → let c := b.land (.cr k) (.word w m)
      tget 0 c.qc (k - 0x40) = w ∧ (∀ j, j ≠ k - 0x40 → tget 0 c.qc j = tget 0 b.qc j) ∧
      c = { b with qc := c.qc, present := c.present, marks := c.marks })

/-- R75, R76, R77, R91, R124: a bundle whose one effect is a scalar result commits; the strand goes on at the next bundle
after its stall; the register holds its old value in every cycle before issue + latency and the result from then on,
and nothing else of the bank or memory changes; of two that land in one register in one cycle the younger stays. A loop's count
is in its register at issue + 2, and is what XC finds there from the next cycle on. The model's own choices in it: log entries 2,
11 and 36 (State.loopCount, as XC reads a register). -/
def Obligations.CommittedResultLandsAtItsCycle : Prop :=
  (∀ (s : State) (d lat : Nat) (w : Word),
       readyToCommit s = true → hdrPop s.header = 0 → s.bun.effs = [.land lat (.s d) (.word w 0)] →
       (issuer s s).land = [] → (issuer s s).phase.opened = false → (issuer s s).bank.isSome = true →
       ∃ t, Answers .bundleCommit [s.bun.core] s t ∧
         (issuer s t).pc = (s.bun.pc + 32) % 2 ^ 64 ∧
         (issuer s t).nextAt = s.bun.t + 1 + hdrStall s.header + s.bun.extra ∧
         t.mem = s.mem ∧ t.bun = .none ∧
         (∀ n, n < s.bun.t + lat → issuerBank s (t.landUntil s.bun.core s.bun.ctx n) = issuerBank s s) ∧
         (∀ n, s.bun.t + lat ≤ n →
           let u := t.landUntil s.bun.core s.bun.ctx n
           SameBankBut d (issuerBank s s) (issuerBank s u) ∧ (issuerBank s u).sr d = (if d = 0 then 0 else w) ∧ u.mem = s.mem)) ∧
  (∀ (s : State) (c j n k : Nat) (a b : Landing) (v w : Word), (s.ctx c j).bank.isSome = true → k ≠ 0 →
       (s.ctx c j).land = [a, b] → a.due = b.due → a.due ≤ n → a.dest = .s k → b.dest = .s k → a.val = .word v 0 → b.val = .word w 0 →
       (s.ctx c j).phase.opened = false →
       ((s.landUntil c j n).bankOf c j).sr k = w ∧ ((s.landUntil c j n).ctx c j).land = [] ∧
       ∀ (x : Landing) (l : List Landing), (∀ y, y ∈ l → y.due ≤ x.due) → insertLanding x l = l ++ [x]) ∧
  (∀ (s : State) (a target : Nat) (w : Word),
       readyToCommit s = true → hdrPop s.header = 0 → s.bun.effs = [.loopCount a w, .transfer target true] →
       (issuer s s).land = [] → (issuer s s).phase.opened = false → (issuer s s).bank.isSome = true →
       ∃ t, Answers .bundleCommit [s.bun.core] s t ∧ ∀ n,
         let u := t.landUntil s.bun.core s.bun.ctx n
         let next : State := { u with bun := s.bun }
         (n < s.bun.t + 2 → next.loopCount a = w ∧ issuerBank s u = issuerBank s s) ∧
         (s.bun.t + 2 ≤ n → (issuerBank s u).sr a = (if a = 0 then 0 else w) ∧ next.loopCount a = (issuerBank s u).sr a ∧
           SameBankBut a (issuerBank s s) (issuerBank s u)))

/-- R77, R78, R121 to R123, R304: where a bundle of one transfer goes and when, a taken transfer adding two cycles at
least, a loop's back edge none beyond the stall; a bundle that waits tries again a cycle later, with nothing of it
done but its stall counter, once for each bundle. The model's own choices in it: log entries 2, 9, 36. -/
def Obligations.BundlesGoOnTransferOrTryAgain : Prop :=
  (∀ (s : State) (a : Nat) (n : Word), readyToCommit s = true → hdrPop s.header = 0 →
       let stall := hdrStall s.header
       let goes (pc at_ : Nat) : Prop := ∃ t, Answers .bundleCommit [s.bun.core] s t ∧ (issuer s t).pc = pc ∧ (issuer s t).nextAt = at_ ∧
         t.mem = s.mem ∧ issuerBank s t = issuerBank s s
       (s.bun.effs = [.transfer a false] → goes a (s.bun.t + 1 + max stall 2 + s.bun.extra)) ∧
       (∀ k, s.bun.effs = [.loopCount k n, .transfer a true] → goes a (s.bun.t + 1 + stall + s.bun.extra)) ∧
       (s.bun.effs = [] → goes ((s.bun.pc + 32) % 2 ^ 64) (s.bun.t + 1 + stall + s.bun.extra))) ∧
  (∀ (s : State) (h : Hold), s.bun.words ≠ [] → s.pending = [] → s.bun.hold = some h →
       ∃ t, Answers .bundleCommit [s.bun.core] s t ∧ (issuer s t).nextAt = s.bun.t + 1 ∧ (issuer s t).wait = h.park ∧
         (issuer s t).pc = (issuer s s).pc ∧ issuerBank s t = issuerBank s s ∧ (issuer s t).land = (issuer s s).land ∧
         t.mem = s.mem ∧ t.bun = .none ∧
         (h.also = [] → 0 < h.counter → h.counter < 0x030 → h.counter ≠ 0x020 →
           let k := s.core s.bun.core
           h.counter ∈ (issuer s t).stalled ∧
           tget 0 (t.core s.bun.core).counters h.counter =
             if h.counter ∈ (issuer s s).stalled then tget 0 k.counters h.counter
             else tget (tget 0 k.counters h.counter) k.counterNew h.counter + 1))

/-- R152, R215, R242 to R244, R269: a committed store writes its bytes, little-endian, a spill store its word, an accumulator
write the enabled bits of its row two cycles after its issue, and nothing else changes. -/
def Obligations.StoresAndWritesTouchOnlyTheirPlace : Prop :=
  (∀ (s : State) (n pa va key : Nat) (w : Word) (g : Bool),
       readyToCommit s = true → hdrPop s.header = 0 → s.bun.effs = [.store n pa va key w g] → 0 < n → n ≤ 8 →
       MemoryCanonical s → (isGlobal pa = true → keyHeld s key pa n = true) →
       ∃ t, Answers .bundleCommit [s.bun.core] s t ∧
         (∀ i, i < n → (byteAt t (pa + i)).toNat = w.toNat / 2 ^ (8 * i) % 2 ^ 8) ∧
         SameBytesBut pa n s t ∧ issuerBank s t = issuerBank s s) ∧
  (∀ (s : State), readyToCommit s = true → hdrPop s.header = 0 →
       (∀ o w, s.bun.effs = [.spillStore o w 0] → (issuer s s).bank.isSome = true →
         ∃ t, Answers .bundleCommit [s.bun.core] s t ∧ tget 0 (issuerBank s t).spill (o / 8) = w ∧
           (∀ k, k ≠ o / 8 → tget 0 (issuerBank s t).spill k = tget 0 (issuerBank s s).spill k) ∧
           (∀ k, (issuerBank s t).sr k = (issuerBank s s).sr k) ∧ t.mem = s.mem) ∧
       (∀ u row en v, s.bun.effs = [.accWrite u row en v] →
         ∃ t, Answers .bundleCommit [s.bun.core] s t ∧ (t.core s.bun.core).acc = (s.core s.bun.core).acc ∧
           issuerBank s t = issuerBank s s ∧ t.mem = s.mem ∧
           ((s.core s.bun.core).accLate = [] →
             (∀ n, n < s.bun.t + 2 → ((t.core s.bun.core).accSettle n).acc = (s.core s.bun.core).acc) ∧
             ∀ n, s.bun.t + 2 ≤ n → let k := (t.core s.bun.core).accSettle n
               (∀ b, (k.accRow u row).testBit b =
                 if en.testBit b then v.testBit b else ((s.core s.bun.core).accRow u row).testBit b) ∧
               ∀ u' r', u' * 128 + r' ≠ u * 128 + row → k.accRow u' r' = (s.core s.bun.core).accRow u' r')))

/-- R199, R240, R241, R244, R246, R270: a scratchpad load lands its zero- or sign-extended bytes 5 cycles on; a global load
waits under the interlock with its value, L1's where it hits and else the memory's, poison going with the value; ld.acq
holds what follows, and of a scope beyond the core empties L1; none changes memory. Which line L1 still holds is the free
choice of log entry 15. -/
def Obligations.LoadsReadTheirBytes : Prop :=
  ∀ (s : State) (d ty pa va key : Nat), readyToCommit s = true → hdrPop s.header = 0 → ty ≤ 6 →
    let n := 2 ^ (ty / 2)
    let k := s.core s.bun.core
    let value (x : Nat) (w : Word) : Prop :=
      if ty % 2 = 1 then w.toInt = (if x < 2 ^ (8 * n - 1) then (x : Int) else (x : Int) - ((2 ^ (8 * n) : Nat) : Int)) else w.toNat = x
    let padLoad (t : State) : Prop := ∃ l w, l ∈ (issuer s t).land ∧ l.due = s.bun.t + 5 ∧ l.dest = .s d ∧
      l.val = .word w (b2n (s.poisonedAt pa n)) ∧ value (memRead s.mem pa n) w
    (s.bun.effs = [.loadPad d ty pa] → isGlobal pa = false →
      ∃ t, Answers .bundleCommit [s.bun.core] s t ∧ padLoad t ∧ t.mem = s.mem) ∧
    (∀ sc, s.bun.effs = [.loadPad d ty pa, .acquirePad sc] → isGlobal pa = false →
      ∃ t, Answers .bundleCommit [s.bun.core] s t ∧ padLoad t ∧ (issuer s t).acqTill = s.bun.t + 5 ∧
        (1 ≤ sc → (t.core s.bun.core).l1 = []) ∧ t.mem = s.mem) ∧
    (∀ acq, s.bun.effs = [.loadGlobal d ty pa va key acq] → isGlobal pa = true → keyHeld s key pa n = true →
      (∀ e, e ∈ k.l1 → ∀ x, x ∈ e.2 → x < 256) → pa % n = 0 →
      ∃ t l w, Answers .bundleCommit [s.bun.core] s t ∧ l ∈ (issuer s t).loads ∧ l.dest = d ∧ l.acquire = acq ∧ t.mem = s.mem ∧
        (s.l1Hit s.bun.core pa = true → l.done = some (w, 0) ∧
          value (pack 8 (((tget [] k.l1 (pa / 128)).drop (pa % 128)).take n)) w) ∧
        (s.l1Hit s.bun.core pa = false → l.done = some (w, b2n (s.poisonedAt pa n)) ∧ value (memRead s.mem pa n) w ∧
          (s.poisonedAt (pa / 128 * 128) 128 = true → thas (t.core s.bun.core).l1 (pa / 128) = false)))

/-- R249, R269: an atomic without release order performs at commit: its result is the old value, the new one is in
memory, and no other byte changes. -/
def Obligations.AtomicReadsAndWritesItsLocationOnce : Prop :=
  ∀ (s : State) (d pa va key : Nat) (r : Rmw) (g : Bool) (acq : Option Nat),
    readyToCommit s = true → hdrPop s.header = 0 → s.bun.effs = [.rmw d r pa va key g none acq] → r.size = 4 ∨ r.size = 8 →
    MemoryCanonical s → (isGlobal pa = true → keyHeld s key pa r.size = true) → s.poisonedAt pa r.size = false →
    s.writeFails.contains (pa / 64) = false →
    let old := memRead s.mem pa r.size
    ∃ t l, Answers .bundleCommit [s.bun.core] s t ∧ l ∈ (issuer s t).loads ∧ l.dest = d ∧ l.done = some (wd old, 0) ∧ l.failed = false ∧
      (∀ v, r.new old = some v → v < 2 ^ (8 * r.size) → memRead t.mem pa r.size = v) ∧
      (r.new old = none → t.mem = s.mem) ∧ SameBytesBut pa r.size s t

/-! ### Traps -/

/-- R84, R190 to R192: a bundle that traps commits none of its effects; the handler starts 20 cycles on with cause, pc and
tinfo saved, s0 to s31 in the frame, results in flight in the snapshot buffer, the sequencer frozen; what earlier bundles have
committed to a queue, which moves at their commit point (R72, R310), still moves. -/
def Obligations.TrapEntrySavesAndEntersTheHandler : Prop :=
  ∀ (s : State) (tr : Trap), trapping s tr →
    s.bun.dropLf = none → s.bun.clearCh = none → (issuer s s).handler = false → (issuer s s).bank.isSome = true →
    tget 0 (issuerBank s s).cr 0x003 ≠ 0 → (∀ l, l ∈ (issuer s s).land → s.bun.t < l.due) →
    ∃ t, Answers .bundleCommit [s.bun.core] s t ∧
      let b := issuerBank s s
      let b' := issuerBank s t
      let x := issuer s t
      x.handler = true ∧ x.pc = (tget 0 b.cr 0x003).toNat ∧ x.nextAt = s.bun.t + 20 ∧ x.trapT = s.bun.t ∧
      x.land = (issuer s s).land.filter (·.commits) ∧
      x.snap = ((issuer s s).land.filter fun l => !l.commits).map (fun l => { l with due := l.due - s.bun.t }) ∧
      (∀ l, l ∈ x.loads → l.held = true) ∧
      tget 0 b'.cr 0x000 = wd tr.cause ∧ tget 0 b'.cr 0x001 = wd s.bun.pc ∧ tget 0 b'.cr 0x002 = wd (tr.detail * 256 + tr.word) ∧
      (∀ n, 2 < n → tget 0 b'.cr n = tget 0 b.cr n) ∧
      (∀ k, k < 32 → tget 0 b'.spill (0x3F00 / 8 + k) = b.sr k) ∧
      (∀ k, k < 0x3F00 / 8 ∨ 0x3F00 / 8 + 32 ≤ k → tget 0 b'.spill k = tget 0 b.spill k) ∧
      b'.s = b.s ∧ b'.v = b.v ∧ b'.mask = b.mask ∧ b'.fmt = b.fmt ∧ b'.mg = b.mg ∧ b'.cg = b.cg ∧ b'.qc = b.qc ∧
      t.mem = s.mem ∧ (t.core s.bun.core).seqr.frozen = true

/-- R190, R192 to R194, R205: a trap in handler state kills the context with 0x41, one without a handler with its own cause.
That landings, loads and the pending release are dropped at once is log entry 13. -/
def Obligations.TrapWithoutHandlerOrInHandlerKills : Prop :=
  ∀ (s : State) (tr : Trap), trapping s tr → s.bun.dropLf = none → s.bun.clearCh = none →
    let ends (code : Nat) : Prop := ∃ t, Answers .bundleCommit [s.bun.core] s t ∧ (issuer s t).wait = .kill code ∧
      (issuer s t).land = [] ∧ (issuer s t).loads = [] ∧ (issuer s t).rel = none ∧ t.mem = s.mem ∧ issuerBank s t = issuerBank s s
    ((issuer s s).handler = true → ends 0x41) ∧
    ((issuer s s).handler = false → tget 0 (issuerBank s s).cr 0x003 = 0 → ends tr.cause)

/-- R195: a return, by jr or by jrl, whose link is lost to the reload, restores s1 to s31 from the frame and the results of the
snapshot buffer, each as long after the return as it was due after the trapped bundle, and the frozen sequencer goes on
as many cycles later. -/
def Obligations.HandlerReturnRestoresTheStrand : Prop :=
  ∀ (s : State) (a : Nat), readyToCommit s = true → hdrPop s.header = 0 →
    (s.bun.effs = [.handlerReturn a] ∨ ∃ w, s.bun.effs = [.handlerReturn a, .land 2 (.s 31) (.word w 0)]) →
    (issuer s s).bank.isSome = true → (issuer s s).land = [] → (∀ l, l ∈ (issuer s s).snap → l.commits = false) →
    ∃ t, Answers .bundleCommit [s.bun.core] s t ∧
      let x := issuer s t
      x.handler = false ∧ x.pc = a ∧ x.nextAt = s.bun.t + 20 ∧ x.snap = [] ∧
      x.land = (issuer s s).snap.map (fun l => { l with due := l.due + (s.bun.t + 20) }) ∧
      (∀ l, l ∈ x.loads → l.held = false) ∧
      (∀ k, 1 ≤ k → k < 32 → (issuerBank s t).sr k = tget 0 (issuerBank s s).spill (0x3F00 / 8 + k)) ∧
      (issuerBank s t).cr = (issuerBank s s).cr ∧ (issuerBank s t).v = (issuerBank s s).v ∧ t.mem = s.mem ∧
      (t.core s.bun.core).seqr =
        { (s.core s.bun.core).seqr with
          frozen := false, start := (s.core s.bun.core).seqr.start + (s.bun.t + 20 - (issuer s s).trapT) }

/-! ### What committed forms do -/

/-- R197, R199, R261, R263, R354, R356: a phase opens with s1 to s15 and its accumulators saved and closes; a region
opens with s1 to s29 saved, ends, or rolls back to its first bundle 20 cycles on, the replies it has not read dropped. The
model's own choices in it: log entries 2, 36 (the accumulators are saved before a vacc write of the same bundle). -/
def Obligations.CommittedPhasesAndRegionsSaveAndRestore : Prop :=
  ∀ (s : State), (issuer s s).bank.isSome = true →
    let b := issuerBank s s
    let cr10 := (tget 0 b.cr 0x00A).toNat
    (∀ m l n, m < 16 → n < 16 → (∀ i, i < n → isGlobal (l + 8 * i) = false) → committing s [.phaseStart m l n] →
      ∃ t, Ends s t ∧
        (issuer s t).phase = ⟨true, s.bun.pc + 32, m, 0, (List.range n).map fun i => wd (memRead s.mem (l + 8 * i) 8), []⟩ ∧
        tget 0 (issuerBank s t).cr 0x00B = wd (2 ^ 63 + m * 2 ^ 57 + n * 2 ^ 48 + (s.bun.pc + 32) / 32 % 2 ^ 43 * 32) ∧
        (∀ k, 1 ≤ k → k < 16 → tget 0 (issuerBank s t).spill (0x3E00 / 8 + k) = b.sr k) ∧
        (∀ u i, u < 4 → i < 128 → bit m u = true → (t.core s.bun.core).accRow (u + 4) i = (s.core s.bun.core).accAll.accRow u i) ∧
        (∀ k, (issuerBank s t).sr k = b.sr k) ∧ t.mem = s.mem) ∧
    (committing s [.phaseAbort] →
      ∃ t, Ends s t ∧ (issuer s t).phase.opened = false ∧ (tget 0 (issuerBank s t).cr 0x00B).getLsbD 63 = false ∧
        (∀ k, (issuerBank s t).sr k = b.sr k) ∧ t.mem = s.mem) ∧
    (∀ l, committing s [.sched (.rbeg l) []] →
      ∃ t, Ends s t ∧ (issuer s t).region = ⟨true, s.bun.pc + 32, l⟩ ∧ (tget 0 (issuerBank s t).cr 0x00A).toNat = 2 ^ 63 ∧
        (∀ k, 1 ≤ k → k < 30 → tget 0 (issuerBank s t).spill (0x3D00 / 8 + k) = b.sr k) ∧
        (∀ k, (issuerBank s t).sr k = b.sr k) ∧ t.mem = s.mem) ∧
    (committing s [.sched .rcom [0]] →
      ∃ t, Ends s t ∧ (issuer s t).region.opened = false ∧ (tget 0 (issuerBank s t).cr 0x00A).toNat = cr10 % 2 ^ 63 ∧
        (∀ k, ((t.core s.bun.core).lfOf k).inq.map (·.w) = ((s.core s.bun.core).lfOf k).inq.map (·.w)) ∧
        (∀ k, (issuerBank s t).sr k = b.sr k) ∧ t.mem = s.mem) ∧
    (committing s [.sched .rcom [1]] →
      ∃ t, Ends s t ∧ (issuer s t).pc = (issuer s s).region.resume ∧ (issuer s t).nextAt = s.bun.t + 20 ∧
        (tget 0 (issuerBank s t).cr 0x00A).getLsbD 62 = false ∧
        bits (tget 0 (issuerBank s t).cr 0x00A).toNat 56 6 = min (bits cr10 56 6 + 1) 63 ∧
        (∀ k, ((t.core s.bun.core).lfOf k).inq = ((s.core s.bun.core).lfOf k).inq.filter fun e => e.strand != (issuer s s).uid) ∧
        (∀ k, 1 ≤ k → k < 30 → (issuerBank s t).sr k = tget 0 b.spill (0x3D00 / 8 + k)) ∧ t.mem = s.mem)

/-- R247, R385 to R387, R420, R424: what barrier forms leave of the barrier word, an arrival behind a pending release once that
has performed, and what wvget, wvpin and wvnew.pub leave of the Silo, where scheduler memory has no error; a barrier
form changes no byte outside its word. The model's own choice in it: log entry 37 (where a Silo set keeps a buffer's fields). -/
def Obligations.CommittedBarrierAndSiloFormsWriteTheirWords : Prop :=
  ∀ (s : State), MemoryCanonical s → schedulerSound s →
    (∀ a b d pa (y : Word), pa < 2 ^ 64 → isGlobal pa = false →
      let w := memRead s.mem pa 16
      let writes (i : Instr) (ok : State → Nat → Prop) : Prop :=
        committing s [.sched i [wd pa, y]] → ∃ t, Ends s t ∧ SameBytesBut pa 16 s t ∧ ok t (memRead t.mem pa 16)
      writes (.barInit a b) (fun _ v => bits v 0 32 = bits w 0 32 ∧ bits v 32 32 = y.toNat / 2 ^ 32 ∧ bits v 64 16 = y.toNat % 2 ^ 16 ∧
        bits v 80 16 = y.toNat % 2 ^ 16 ∧ bit v 96 = true ∧ bit v 97 = false) ∧
      (y.toNat + bits w 32 32 < 2 ^ 32 →
        writes (.barExpect a b) (fun _ v => bits v 32 32 = y.toNat + bits w 32 32 ∧ bits v 0 32 = bits w 0 32 ∧ v >>> 64 = w >>> 64) ∧
        ((issuer s s).rel ≠ none → committing s [.sched (.barArrive d a b) [wd pa, y]] →
          ∃ t l, Ends s t ∧ t.mem = s.mem ∧ (issuer s t).arrives = (issuer s s).arrives ++ [(pa, y.toNat)] ∧
            l ∈ (issuer s t).loads ∧ l.dest = d ∧ l.done = some (wd (bits w 0 32), 0)) ∧
        ((issuer s s).rel = none → 1 ≤ bits w 64 16 → bit w 96 = true → bit w 97 = false →
          writes (.barArrive d a b) (fun t v =>
            (∃ l, l ∈ (issuer s t).loads ∧ l.dest = d ∧ l.done = some (wd (bits w 0 32), 0)) ∧
            (bits w 64 16 = 1 ∧ y.toNat + bits w 32 32 = 0 →
              bits v 0 32 = (bits w 0 32 + 1) % 2 ^ 32 ∧ bits v 64 16 = bits w 80 16 ∧ bits v 32 32 = 0) ∧
            (¬(bits w 64 16 = 1 ∧ y.toNat + bits w 32 32 = 0) →
              bits v 0 32 = bits w 0 32 ∧ bits v 64 16 = bits w 64 16 - 1 ∧ bits v 32 32 = y.toNat + bits w 32 32))))) ∧
    (∀ d a k tag i, k < 64 → tag < 2 ^ 32 → s.findPin k tag = some i →
      let p := s.pin i
      (committing s [.sched (.wvget d a) [wd k, wd tag]] →
        ∃ t l, Ends s t ∧ l ∈ (issuer s t).loads ∧ l.dest = d ∧ l.done = some (wd (siloAddr (s.silo k) (pinBuf p)), 0) ∧ t.mem = s.mem) ∧
      (committing s [.sched (.wvpin d a) [wd k, wd tag]] → siloEn (s.silo k) = true → siloMulti (s.silo k) = true →
        ∃ t l, Ends s t ∧ l ∈ (issuer s t).loads ∧ l.dest = d ∧ l.done = some (wd (siloVnum (s.silo k) (pinBuf p)), 0) ∧
          pinCount (t.pin i) = (pinCount p + 1) % 2 ^ 16 ∧ siloPins (t.silo k) (pinBuf p) = (siloPins (s.silo k) (pinBuf p) + 1) % 2 ^ 16)) ∧
    (∀ a k i, k < 64 → siloEn (s.silo k) = true → siloStaged (s.silo k) = some i →
      committing s [.sched (.wvnewPub a) [wd k, 0]] →
      ∃ t, Ends s t ∧ siloCurver (t.silo k) = (siloCurver (s.silo k) + 1) % 2 ^ 32 ∧
        siloVnum (t.silo k) i = (siloCurver (s.silo k) + 1) % 2 ^ 32 ∧ siloBst (t.silo k) i = 2)

/-- R27, R180, R251, R252, R350, R377 to R384: tokens, pending releases, waits, dormant slots, the queue tail, link words and
the packet that the last of them sends, mwait of either size on any location, what a twait covers. The model's own choices
in it: log entries 2, 12, 18 (an mwait compares at the point of coherence, and its line leaves L1), 36 (a POP in flight of a
queue's one element). -/
def Obligations.CommittedFencesWaitsAndQueuesTakeEffect : Prop :=
  ∀ (s : State),
    let c := s.bun.core
    let j := s.bun.ctx
    let x := issuer s s
    (∀ sc d, committing s [.fence sc d] →
      ∃ t l, Ends s t ∧ (issuer s t).fence = (x.fence + 1) % 2 ^ 48 ∧ l ∈ (issuer s t).land ∧ l.due = s.bun.t + 2 ∧ l.dest = .s d ∧
        l.val = .word (wd (sc * 2 ^ 61 + (x.fence + 1) % 2 ^ 48)) 0 ∧ t.mem = s.mem) ∧
    (∀ tok, committing s [.fwait tok] → s.fwaitReady c j tok = false → x.wait = .none →
      ∃ t, Ends s t ∧ (issuer s t).wait = .fence tok (s.bun.t + 2 + 1000 * s.mhz) ∧ t.mem = s.mem) ∧
    (∀ tok, committing s [.fwait tok] → s.fwaitReady c j tok = true →
      ∃ t, Ends s t ∧ (issuer s t).wait = x.wait ∧ (bits tok.toNat 61 3 ≠ 0 → (t.core c).l1 = []) ∧ t.mem = s.mem) ∧
    (∀ sc n pa va key w g, committing s [.storeRel sc n pa va key w g] →
      ∃ t, Ends s t ∧ (issuer s t).rel = some ⟨sc, .store n pa va key w g⟩ ∧ t.mem = s.mem) ∧
    (∀ sc hs, committing s [.publish sc hs] → ∃ t, Ends s t ∧ (issuer s t).rel = some ⟨sc, .publish hs x.region.opened⟩ ∧ t.mem = s.mem) ∧
    (∀ sc, committing s [.phaseCommit sc] → ∃ t, Ends s t ∧
      (issuer s t).rel = some ⟨sc, .phase x.phase.windows x.region.opened⟩ ∧ t.mem = s.mem) ∧
    (committing s [.endStrand none] → x.wait = .none → ∃ t, Ends s t ∧ (issuer s t).wait = .exit ∧ t.mem = s.mem) ∧
    (∀ p pri f, committing s [.sched (.suspend p pri f) []] → x.wait = .none →
      ∃ t, Ends s t ∧ (issuer s t).wait = .suspend p pri f ((s.bun.pc + 32) % 2 ^ 64) ∧ t.mem = s.mem) ∧
    (∀ d a v n, committing s [.sched (.dormArm d a) [v]] → (List.range 8).find? (fun i => (s.ctx c i).st == .free) = some n → n ≠ j →
      ∃ t, Ends s t ∧ (t.ctx c n).st = .dormant ∧ (t.ctx c n).crew = x.crew ∧ (t.ctx c n).tag = x.tag ∧ t.mem = s.mem) ∧
    (∀ d a (v : Word), committing s [.sched (.dormDisarm d a) [v]] → v.toNat ≠ j → (s.ctx c v.toNat).st = .dormant →
      (s.ctx c v.toNat).due = false → (s.ctx c v.toNat).crew = x.crew →
      ∃ t, Ends s t ∧ (t.ctx c v.toNat).st = .free ∧ t.mem = s.mem) ∧
    (∀ i d a b pa va key g n v, (i = .mwaitN32 d a b ∧ n = 4) ∨ (i = .mwaitN64 d a b ∧ n = 8) → pa < 2 ^ 64 → key < 2 ^ 64 →
      committing s [.sched i [wd pa, va, wd key, g, v, wd n]] → (isGlobal pa = true → keyHeld s key pa n = true) →
      let same : Prop := memRead s.mem pa n = v.toNat % 2 ^ (8 * n) ∧ s.poisonedAt pa n = false
      (¬same → ∃ t l, Ends s t ∧ l ∈ (issuer s t).loads ∧ l.dest = d ∧ l.done = some (wd (memRead s.mem pa n), b2n (s.poisonedAt pa n)) ∧
        thas (t.core c).l1 (pa / 128) = false ∧ (issuer s t).wait = x.wait ∧ t.mem = s.mem) ∧
      (same → x.wait = .none →
        ∃ t l, Ends s t ∧ l ∈ (issuer s t).loads ∧ l.id = s.nextId ∧ l.dest = d ∧ l.done = none ∧
          (issuer s t).wait = .line pa (s.bun.t + 2 + 1000 * s.mhz) n key s.nextId ∧
          thas (t.core c).l1 (pa / 128) = false ∧ t.mem = s.mem)) ∧
    (∀ k (a b : Word) n, committing s [.qpush k a b n] → MemoryCanonical s → x.bank.isSome = true → 0 < n → n ≤ 16 →
      x.land = [] → x.phase.opened = false →
      let q := s.queue k
      let pa := (s.allot c x.crew).1 + qBase q + qTail q % qDepth q * qEsz q
      isGlobal pa = false →
      ∃ t, Ends s t ∧ memRead t.mem pa n = (a.toNat + b.toNat * 2 ^ 64) % 2 ^ (8 * n) ∧ SameBytesBut pa n s t ∧
        ∀ m, let u := t.landUntil c j m
          (m < s.bun.t + 2 → issuerBank s u = issuerBank s s) ∧
          (s.bun.t + 2 ≤ m → qCnt ((issuerBank s u).queue k) = (qCnt q + 1) % 2 ^ 9 ∧
            qTail ((issuerBank s u).queue k) = (qTail q + 1) % qDepth q ∧ bit (tget 0 (issuerBank s u).present k) (qTail q) = true ∧
            u.mem = t.mem)) ∧
    (∀ pop, readyToCommit s = true → s.bun.effs = [] → hdrPop s.header = pop → x.bank.isSome = true → x.land = [] →
      x.phase.opened = false →
      ∃ t, Ends s t ∧ t.mem = s.mem ∧ ∀ m, let u := t.landUntil c j m
        (m < s.bun.t + 2 → issuerBank s u = issuerBank s s) ∧
        (s.bun.t + 2 ≤ m → ∀ k, k < 8 →
          let q := s.queue k
          let q' := (issuerBank s u).queue k
          (bit pop k = false → q' = q ∧ tget 0 (issuerBank s u).present k = tget 0 (issuerBank s s).present k) ∧
          (bit pop k = true → 1 ≤ qCnt q → qHead q' = (qHead q + 1) % qDepth q ∧ qCnt q' = qCnt q - 1 ∧ qTail q' = qTail q ∧
            bit (tget 0 (issuerBank s u).present k) (qHead q) = false))) ∧
    (committing s [.twait] → ∃ t, Ends s t ∧ t.mem = s.mem ∧ (t.core c).seqr.till = s.bun.t + 2 ∧
      t.cellarOpen = s.cellarOpen.map fun p => if p.uid = x.uid ∧ p.copy = 1 then { p with copy := 0 } else p) ∧
    (∀ d k, committing s [.lfPop d k] → ∃ t, Ends s t ∧ ((t.core c).lfOf k).inq = ((s.core c).lfOf k).inq.drop 1 ∧ t.mem = s.mem) ∧
    (∀ k w, committing s [.lfPush k w] →
      let l := (s.core c).lfOf k
      let part := l.part ++ [w]
      let h := (part.headD 0).toNat
      (part.length < packetLen h →
        ∃ t, Ends s t ∧ ((t.core c).lfOf k).part = part ∧ ((t.core c).lfOf k).outq = l.outq ∧ t.packets = s.packets ∧ t.mem = s.mem ∧
          (l.part = [] → ((t.core c).lfOf k).partOwner = x.uid ∧ ((t.core c).lfOf k).partRegion = x.region.opened)) ∧
      (packetLen h ≤ part.length →
        ∃ t r p, Ends s t ∧ (t.core c).lfOf k = { l with part := [], outq := l.outq ++ part, rqn := l.rqn + 1 } ∧
          t.remotes.find? (fun q => q.1 == s.nextId) = some (s.nextId, r) ∧ r.kind = 0 ∧ r.core = c ∧ r.uid = x.uid ∧ r.lf = k ∧
          r.rqn = l.rqn ∧ r.region = x.region.opened ∧ r.deadline = s.ns + 8000000 ∧
          t.packets.find? (fun q => q.1 == s.nextId + 1) = some (s.nextId + 1, p) ∧ p.kind = 0 ∧ p.who = s.nextId ∧
          p.dst = l.bind.toNat / 2 ^ 31 % 2 ^ 15 ∧ p.win = h / 2 ^ 36 % 2 ^ 12 ∧ p.key = h % 2 ^ 32 ∧ p.hdr = h ∧
          p.off = (nth 0 part 1).toNat ∧ p.words = (part.drop 2).map (·.toNat) ∧ t.mem = s.mem))

/-- R165, R255, R306, R317, R319, R330: a committed matrix word runs two cycles on, or waits behind the one that runs; a
transform command joins its core's; every copy-port form takes its engine's lowest free track, in the stage in which it
waits for a window's data, for its queue, for its answers, or moves; a request joins its queue where that has room, and a
chsend moves its channel's sequence. The model's own choices in it: log entries 2, 18, 26. -/
def Obligations.CommittedWordsCommandsAndCopiesBegin : Prop :=
  ∀ (s : State),
    let c := s.bun.core
    let q := (s.core c).seqr
    (∀ w, committing s [.mt w] → q.wait = none → (issuer s s).wait = .none →
      let w2 := { w with accepted := s.bun.t + 2, behind := s.relWrites c s.bun.ctx }
      let m := max q.start (s.bun.t + 2)
      (q.run = none → ∃ t, Ends s t ∧ (t.core c).seqr =
        { q with run := some w2, step := 0, start := m, since := m, scratch := [], seen := [] } ∧ t.mem = s.mem) ∧
      (∀ r, q.run = some r → ∃ t, Ends s t ∧ (t.core c).seqr = { q with wait := some w2 } ∧ t.mem = s.mem)) ∧
    (∀ x, committing s [.xform x] →
      ∃ t, Ends s t ∧ (t.core c).xforms = (s.core c).xforms ++ [{ x with id := s.nextId, seq := (issuer s s).fence }] ∧ t.mem = s.mem) ∧
    (∀ i ch g x y mt, committing s [.copy i g x y mt] →
      let dst := (nth 0 g 1).toNat
      let yv := y.toNat
      let set := epKind dst = 3 ∧ epForm dst = true
      let fromWindow := epKind (nth 0 g 0).toNat = 2
      let took (stage : Nat) (t : State) : Prop := ∃ k, t.copies.find? (fun p => p.1 == s.nextId) = some (s.nextId, k) ∧
        k.core = c ∧ k.ctx = s.bun.ctx ∧ k.uid = (issuer s s).uid ∧ k.ch = ch ∧ k.engine = ch % 2 ∧ k.instr = i ∧ k.stage = stage ∧
        k.track = ((List.range 8).find? fun n => !(s.tracksBusy c (ch % 2)).contains n).getD 0
      let starts (stage : Nat) : Prop := ∃ t, Ends s t ∧ took stage t ∧ t.mem = s.mem
      let moves : Nat := if fromWindow then 1 else 2
      let asks (queue : State → List Nat) (room : Prop) (stage : Nat) : Prop :=
        (room → ∃ t, Ends s t ∧ took stage t ∧ queue t = queue s ++ [s.nextId] ∧ t.mem = s.mem) ∧
        (¬room → ∃ t, Ends s t ∧ took 0 t ∧ queue t = queue s ∧ t.mem = s.mem)
      let shape : Prop := ∀ t k, Ends s t → t.copies.find? (fun p => p.1 == s.nextId) = some (s.nextId, k) →
        k.rows = shapeRows (nth 0 g 2).toNat ∧ k.len = shapeLen (nth 0 g 2).toNat
      (∀ g0 x0 y0 f, i = .cpy ch g0 x0 y0 f → shape ∧ (¬set → starts moves)) ∧
      (∀ g0 x0 y0 m f, i = .cpym ch g0 x0 y0 m f → shape ∧ (¬set → starts moves) ∧
        (set → starts (match s.setMembers (epSet dst) with
          | none => 3
          | some l => if (s.splitMembers l).1 = [] then 3 else moves))) ∧
      (∀ g0 x0 y0 m f, i = .rdx ch g0 x0 y0 m f → shape ∧ starts 3) ∧
      (∀ g0 x0 y0, i = .stash ch g0 x0 y0 → ¬set → asks (·.granaryQ) (s.granaryQ.length + s.prefetch.length < 1024) 2) ∧
      (∀ g0 x0 y0 f, i = .unstash ch g0 x0 y0 f → ¬set → asks (·.granaryQ) (s.granaryQ.length + s.prefetch.length < 1024) 1) ∧
      (∀ y0, i = .sdrop ch y0 → g = [] → asks (·.granaryQ) (s.granaryQ.length + s.prefetch.length < 1024) 1) ∧
      (∀ g0 x0 y0, i = .glean ch g0 x0 y0 → ¬set → asks (·.gleanQ) (s.gleanQ.length < 64) 2) ∧
      (∀ y0, i = .chack ch y0 → g = [] → starts 2) ∧
      (∀ g0 x0 y0, i = .chsend ch g0 x0 y0 → ¬set → MemoryCanonical s → schedulerSound s →
        ∃ t, Ends s t ∧ took moves t ∧ SameBytesBut (schedBase + 0x1800 + 32 * (yv % 2 ^ 8) + 12) 4 s t ∧
          tcSeq (t.tch (yv % 2 ^ 8)) = (tcSeq (s.tch (yv % 2 ^ 8)) + shapeTotal (nth 0 g 2).toNat / 4096) % 2 ^ 32))

/-! ### Events of a core -/

/-- R73, R75, R77, R84: an issue fetches and decodes a legal bundle, whose slots then wait in slot order; a landing
event takes the clock to its cycle and leaves nothing due. The model's own choices in it: log entries 1, 2, 9, 11. -/
def Obligations.IssueAndLandingEventsTakeEffect : Prop :=
  (∀ (s : State) (c j : Nat) (ws : List Nat),
    let s0 := given s [c]
    let t0 := max s0.clk (max (s0.ctx c j).nextAt (s0.core c).busyTill)
    let u := (((s0.timeTo t0).landUntil c j t0).modCore c (·.accSettle t0)).seqAdvance c t0
    let v : State := { u with bun := { Bundle.none with core := c, ctx := j, pc := (u.ctx c j).pc, t := t0 } }
    let v' := v.fetchAccess c (u.ctx c j).space (u.ctx c j).pc
    let v1 : State := { v' with bun := { v'.bun with words := ws, mirror := mirrorWrites ws } }
    let is := (slotsOf ws).filterMap fun p => p.2.map fun i => (p.1, i)
    (s0.core c).running = some j → s0.canIssue c = true → (u.ctx c j).wait = .none → u.safeNext c j = false →
    v.fetch c (u.ctx c j).space (u.ctx c j).pc = .words ws → bundleBad ws is = none →
    v1.interlock is = none → v1.cr 0x008 = 0 → v1.me.owed = [] →
    ∃ t, Answers .bundleIssue [c] s t ∧ t.bun.words = ws ∧ t.bun.t = t0 ∧ t.bun.trap = none ∧ t.bun.effs = [] ∧ t.pending = is ∧
      t.clk = u.clk ∧ t.mem = u.mem) ∧
  (∀ (s : State) (c j : Nat) (l : Landing) (r : List Landing), (s.core c).running = some j → (s.ctx c j).land = l :: r →
    (s.ctx c j).wait ≠ .trans → s.owesCycle = false →
    ∃ t, Answers .resultLanding [c] s t ∧ t.clk = max s.clk l.due ∧ (∀ y, y ∈ (t.ctx c j).land → l.due < y.due) ∧ t.mem = s.mem)

/-- R25, R78, R199, R247, R252, R266, R384, R431: loads return, poison rolling an open phase back; releases perform, waits
and parks end or begin again; a seal whose check fails leaves memory and the recovery points as they were, one that
passes leaves the body with VALID = 0, and then VALID and the recovery point. The model's own choices in it: log entries
2, 13, 16. -/
def Obligations.LoadReleaseAndWaitEventsTakeEffect : Prop :=
  ∀ (s : State) (c j : Nat), (s.core c).running.isSome = true →
    (∀ i l w, ((s.ctx c j).loads.filter fun l => l.done.isSome && !l.held)[i]? = some l → l.done = some (w, 0) → l.failed = false →
      (s.ctx c j).bank.isSome = true →
      ∃ t, Answers .globalLoadReturn [c, j, i] s t ∧ (t.bankOf c j).sr l.dest = (if l.dest = 0 then 0 else w) ∧
        (∀ k, k ≠ l.dest → (t.bankOf c j).sr k = (s.bankOf c j).sr k) ∧ (∀ q, q ∈ (t.ctx c j).loads → q.id ≠ l.id) ∧ t.mem = s.mem) ∧
    (∀ i l w, ((s.ctx c j).loads.filter fun l => l.done.isSome && !l.held)[i]? = some l → l.done = some (w, 1) → l.failed = false →
      (s.ctx c j).bank.isSome = true → (s.ctx c j).phase.opened = true → (s.ctx c j).handler = false →
      (∀ k, (s.ctx c j).wait ≠ .kill k) →
      ∃ t, Answers .globalLoadReturn [c, j, i] s t ∧ (t.ctx c j).wait = .rollback 0 ∧
        (t.ctx c j).land = (s.ctx c j).land.filter (·.commits) ∧ t.mem = s.mem) ∧
    (∀ sc n pa va key w g, (s.ctx c j).rel = some ⟨sc, .store n pa va key w g⟩ → s.releaseReady c j = true → 0 < n → n ≤ 8 →
      MemoryCanonical s → (isGlobal pa = true → keyHeld s key pa n = true) → (∀ p, p ∈ (s.ctx c j).relBefore → isGlobal p.1 = false) →
      ∃ t, Answers .releasePerformed [c, j] s t ∧ (t.ctx c j).rel = none ∧ (t.ctx c j).arrives = [] ∧
        ((s.ctx c j).arrives = [] →
          ((s.ctx c j).relBefore = [] → memRead t.mem pa n = w.toNat % 2 ^ (8 * n) ∧ SameBytesBut pa n s t) ∧
          ∀ p, p ∈ (s.ctx c j).relBefore → memRead t.mem p.1 4 = memRead s.mem p.1 4)) ∧
    (∀ tok d, (s.ctx c j).wait = .fence tok d → s.fwaitReady c j tok = true →
      ∃ t, Answers .fwaitComplete [c, j] s t ∧ (t.ctx c j).wait = (s.ctx c j).after ∧ t.mem = s.mem) ∧
    (∀ l va n d, (s.ctx c j).wait = .seal l va n d → s.fwaitReady c j (wd (4 * 2 ^ 61 + 2 ^ 48 - 1)) = true →
      let r := ((given s [c, j]).fwaitDone c j (wd (4 * 2 ^ 61 + 2 ^ 48 - 1))).sealSteps c j va
      (∀ st, r.1 = .error st →
        Answers .cksealComplete [c, j] s ((r.2.fillLoad c j l (wd st)).wakeCtx c j) ∧
        let t := (r.2.fillLoad c j l (wd st)).wakeCtx c j
        (t.ctx c j).wait = (s.ctx c j).after ∧ t.mem = s.mem ∧ t.rpt = s.rpt) ∧
      (∀ pa key gen, r.1 = .ok (pa, key, gen) →
        ∃ t, Answers .cksealComplete [c, j] s t ∧ (t.ctx c j).wait = .valid l n pa key gen d ∧ t.rpt = s.rpt ∧
          (MemoryCanonical s → s.cxlDown pa = false → memRead t.mem (pa + 56) 8 = 0))) ∧
    (∀ l n pa key gen d, (s.ctx c j).wait = .valid l n pa key gen d →
      ∃ t, Answers .cksealComplete [c, j] s t ∧ (t.ctx c j).wait = (s.ctx c j).after ∧
        tget 0 t.rpt n = 2 ^ 127 + pa % 2 ^ 56 * 2 ^ 64 + gen * 2 ^ 32 + s.readPa key (pa + 4) 4 ∧
        (∀ m, m ≠ n → tget 0 t.rpt m = tget 0 s.rpt m) ∧
        (MemoryCanonical s → keyHeld s key (pa + 56) 8 = true →
          memRead t.mem (pa + 56) 8 = (0x5EA1 * 2 ^ 48 + gen) % 2 ^ 64 ∧ SameBytesBut (pa + 56) 8 s t)) ∧
    (∀ pa d n key id, (s.ctx c j).wait = .line pa d n key id → (s.ctx c j).woken = true → id ≠ 0 →
      ∃ t, Answers .contextWake [c, j] s t ∧ (t.ctx c j).wait = (s.ctx c j).after ∧ t.mem = s.mem ∧
        ∀ q, q ∈ (t.ctx c j).loads → q.id = id → q.done = some (wd (s.readPa key pa n), b2n (s.poisonedAt pa n))) ∧
    (∀ pa d, (s.ctx c j).wait = .bar pa d → (s.ctx c j).woken = true →
      ∃ t, Answers .contextWake [c, j] s t ∧ (t.ctx c j).wait = (s.ctx c j).after ∧ (t.ctx c j).woken = false ∧ t.mem = s.mem) ∧
    (∀ ch d, (s.ctx c j).wait = .drain ch d → d ≤ s.clk →
      ∃ t, Answers .parkTimeout [c, j] s t ∧ (t.ctx c j).wait = (s.ctx c j).after ∧ t.mem = s.mem) ∧
    (∀ tok d, (s.ctx c j).wait = .fence tok d → d ≤ s.clk →
      ∃ t, Answers .parkTimeout [c, j] s t ∧ (t.ctx c j).wait = .fence tok (s.clk + 1000 * s.mhz) ∧ t.mem = s.mem) ∧
    ((s.core c).running = some j → s.spinDue c j = true →
      ∃ t, Answers .spinPark [c] s t ∧
        (t.ctx c j).wait = .line ((s.ctx c j).spin.last.getD (0, 0)).1 (s.clk + 1000 * s.mhz) 8 0 0 ∧
        t.mem = s.mem ∧ t.bankOf c j = s.bankOf c j)

/-- R16, R23, R24, R104, R200, R205, R228, R314, R333, R378, R379, R489: contexts leave, turn, start and end; what the record
of a suspend holds, and what an ending strand leaves. The model's own choices in it: log entries 2, 12, 13, 14, 36 (a
handler start is pushed, and its slot waits for its entry), 37 (s3 to s6 of a started handler). -/
def Obligations.StrandEventsTakeEffect : Prop :=
  (∀ (s : State) (c j : Nat), (s.core c).running = some j → s.canLeave c j = true →
    let s0 := given s [c]
    let left (st : SlotState) (w : Wait) : State := (s0.markLeft c j).modCtx c j fun x => { x with st := st, wait := w }
    (∀ pa d, (s.ctx c j).wait = .bar pa d →
      Answers .contextLeave [c] s ((left .parked (.bar pa d)).choose c) ∧ ((left .parked (.bar pa d)).ctx c j).st = .parked) ∧
    ((s.ctx c j).wait = .yield → Answers .contextLeave [c] s ((left .ready .none).choose c)) ∧
    ((s.ctx c j).wait = .exit → Answers .contextLeave [c] s (s0.endStrand c j)) ∧
    (∀ p i a pc, (s.ctx c j).wait = .suspend p i a pc →
      Answers .contextLeave [c] s (((s0.push (c / 4) (s0.suspendRecord c j p i a pc)).freeSlot c j).freed c))) ∧
  (∀ (s : State) (c j p i a pc : Nat),
    let x := s.ctx c j
    let r := s.suspendRecord c j p i a pc
    x.crew < 2 ^ 16 → x.kind < 4 → x.pri < 8 → x.tag < 2 ^ 32 → i < 8 → c < 96 → pc % 32 = 0 → pc < 2 ^ 48 →
    recCrew r = x.crew ∧ recResume r = pc ∧ recTag r = x.tag ∧ recKind r = x.kind ∧ recPre r = x.pre ∧
      recAff r = (if a = 0 then 0xFFFF else if a = 1 then c else recAff x.record) ∧ recPri r = (if p = 1 then i else x.pri) ∧
      recModes r = (s.bankOf c j).modes ∧ r.drop 2 = (List.range 6).map fun k => (s.bankOf c j).sr (k + 1)) ∧
  (∀ (s : State) (c j : Nat),
    let x := s.ctx c j
    let crew (t : State) : Crew := tget .free (t.cluster (x.crew / 2048)).crews (x.crew % 64)
    x.cfaults = [] → x.crew ≠ 0xFFFF → (crew s).live = true → (crew s).gen = bits x.crew 6 5 → 2 ≤ (crew s).memb →
    ∃ v, s.endStrand c j = v.freed c ∧ (v.ctx c j).st = (if s.rearms c j = true then .dormant else .free) ∧
      (crew v).memb = (crew s).memb - 1 ∧ (∀ b, x.bank = some b → ((v.core c).bank b).owner = none) ∧ v.deciding = s.deciding ∧
      (∀ k, k ≠ j → (v.ctx c k) = s.ctx c k) ∧ v.mem = s.mem) ∧
  (∀ (s : State) (c j : Nat), (s.core c).running = some j → (s.ctx c j).wait = .none → s.safeNext c j = true →
    (s.ctx c j).land = [] → s.seqBusyAt c = false →
    let u := (((given s [c]).markLeft c j).modCtx c j fun x => { x with st := .ready }).perf c j 14 1
    let t := u.choose c
    Answers .preemptionSwitch [c] s (if (t.core c).running = some j then t.modCtx c j fun x => { x with noSafe := true } else t) ∧
      (u.ctx c j).age = (s.ctx c j).age ∧ (u.ctx c j).pc = (s.ctx c j).pc ∧
      ∀ k, (u.core c).running = none → (u.core c).best = some k → (u.ctx c k).bank.isSome = true → ((u.choose c).ctx c k).st = .running) ∧
  (∀ (s : State) (cl p c j : Nat), s.nextDispatch cl = some (p, c, j) →
    let r := (nth ([], 0) (((s.cluster cl).queue).map ageEntry) p).1
    ∃ t, Answers .dispatch [cl] s t ∧ (t.ctx c j).st ≠ .free ∧ (t.ctx c j).pc = recResume r ∧ (t.ctx c j).crew = recCrew r ∧
      (t.ctx c j).tag = recTag r ∧ (t.ctx c j).pri = recPri r ∧ (t.ctx c j).due = false ∧
      (t.ctx c j).rearm = ((s.ctx c j).due && (s.ctx c j).rearm)) ∧
  (∀ (s : State) (cl k : Nat),
    ∃ t, Answers .readyEntryAging [cl, k] s t ∧
      (∀ n, n ≠ k → (t.cluster cl).queue[n]? = (s.cluster cl).queue[n]?) ∧
      ∀ e, (s.cluster cl).queue[k]? = some e →
        (e.2 < 64 → (t.cluster cl).queue[k]? = some e) ∧
        (64 ≤ e.2 → ∃ r, (t.cluster cl).queue[k]? = some (r, 0) ∧
          (2 ≤ e.1.length → recPri r = min 7 (recPri e.1 + 1) ∧ recResume r = recResume e.1))) ∧
  (∀ (s : State) (c j code : Nat), (s.ctx c j).wait = .kill code → s.copiesOf (s.ctx c j).uid = false →
    let x := s.ctx c j
    let u := ((given s [c, j]).modCore c fun k => { k with xforms := k.xforms.filter fun f => f.uid != x.uid }).freeSlot c j
    (u.ctx c j).st = .free ∧
    Answers .killComplete [c, j] s (((((u.dropLate x.uid).countFault c x.crew x.replay code).dropMember x.crew true).killDone c j).freed c)) ∧
  (∀ (s : State) (c j : Nat), c < 96 → j < 8 → s.killSt.getLsbD 63 = true → (s.ctx c j).st = .running → (∀ k, (s.ctx c j).wait ≠ .kill k) →
    ∃ t, Answers .killreq [8 * c + j] s t ∧ (t.ctx c j).wait = .kill 0x42 ∧ t.killSt = wd (8 * c + j) ∧ t.mem = s.mem) ∧
  (∀ (s : State) (c j : Nat), (s.ctx c j).wait = .rollback 0 → (s.ctx c j).bank.isSome = true →
    s.phaseCopies c (s.ctx c j).uid = false → (s.ctx c j).phase.log = [] → (s.ctx c j).phase.retry < 3 → (s.core c).running.isSome = true →
    ∃ t, Answers .phaseReissue [c, j] s t ∧ (t.ctx c j).wait = .none ∧ (t.ctx c j).pc = (s.ctx c j).phase.resume ∧
      (t.ctx c j).phase.retry = (s.ctx c j).phase.retry + 1 ∧
      (∀ k, 1 ≤ k → k < 16 → (t.bankOf c j).sr k = tget 0 (s.bankOf c j).spill (0x3E00 / 8 + k)) ∧ t.mem = s.mem) ∧
  (∀ (s : State) (k : Nat) (h : Start) (j : Nat), s.starts[k]? = some h →
    (∀ g, g ∈ s.starts.take k → ¬(g.core = h.core ∧ g.crew = h.crew)) → (s.crewOf h.core h.crew).memb ≠ 65535 →
    let q := s.cluster (h.core / 4)
    s.reservedRoom (h.core / 4) < q.free → s.armedSlot h.core h.crew = some j → h.crew < 2 ^ 16 → h.addr % 32 = 0 → h.addr < 2 ^ 48 →
    ∃ t r, Answers .handlerStart [k] s t ∧ t.starts = s.starts.eraseIdx k ∧ (t.ctx h.core j).st = .dormant ∧ (t.ctx h.core j).due = true ∧
      (t.ctx h.core j).record = r ∧ recResume r = h.addr ∧ recCrew r = h.crew ∧ r.drop 2 = [h.arg1, h.arg2, 0, 0, 0, 0] ∧
      (t.cluster (h.core / 4)).pushes = q.pushes ++ [r] ∧ (t.cluster (h.core / 4)).queue = q.queue ∧ t.mem = s.mem) ∧
  (∀ (s : State) (cl : Nat) (r : List Word),
    let q := s.cluster cl
    let t := s.place cl r
    (∀ k, k ≠ cl → t.cluster k = s.cluster k) ∧
    (q.rcnt = 0 → q.queue.length < 32 → t.cluster cl = { q with queue := q.queue ++ [(r, 0)] } ∧ t.mem = s.mem) ∧
    (32 ≤ q.queue.length → q.rcnt < q.ringSize → r.length = 8 → MemoryCanonical s →
      (isGlobal (q.rbase + 64 * q.rtail) = true → keyHeld s 0 (q.rbase + 64 * q.rtail) 64 = true) →
      memRead t.mem (q.rbase + 64 * q.rtail) 64 = pack 64 (r.map (·.toNat)) ∧ SameBytesBut (q.rbase + 64 * q.rtail) 64 s t ∧
        t.cluster cl = { q with rtail := (q.rtail + 1) % q.ringSize, rcnt := q.rcnt + 1, spills := (q.spills + 1) % 2 ^ 64
                                rhigh := max q.rhigh (q.rcnt + 1) })) ∧
  (∀ (s : State) (k : Nat) (w : Walk), (s.walks.take 64).find? (fun p => p.1 == k) = some (k, w) →
    ∃ t, Answers .walkComplete [k] s t ∧ thas t.walks k = false ∧ t.mem = s.mem ∧
      ∀ c, c ∈ w.cores → ∃ e, e ∈ (t.core c).tlb ∧ e.space = w.space ∧ e.page = w.va >>> e.log)

/-- R51 to R53, R158, R159, R165 to R168, R170, R171, R173 to R176, R178 to R180, R182, R184, R220, R257, R275: the sequencer's words and the
banks' commands start, step, are placed, are accepted and complete; and by value what one step of each word leaves: of a product each
element one fused rounding of the exact sum, under a triangular word in its active sub-tiles and with CONST where it is masked; the
expanded keys of tlx, the sums and the output blocks of tproj, the blocks of tlpl in its slot; the rows of tldacc, tstacc and
tscale. The model's own choices in it: log entries 2, 26, 32, 37 (an element-mode overflow is an infinity whatever SAT holds). -/
def Obligations.SequencerAndTransformEventsTakeEffect : Prop :=
  (∀ (s : State) (w : MtWord),
    let c := w.core
    let base := (s.allot c w.crew).1
    let x := w.x.toNat
    let y := w.y.toNat
    let o := fmtR w.fm
    let acf := fmtAcf w.fm
    let f : Fmt := if acf then f64 else f32
    let ma := fmtMa w.fm
    let mb := fmtMb w.fm
    let mw := laMw w.g3
    let dc := laDc w.g3
    let dh := laDh w.g3
    let op := mtOp w.instr
    let z := mtWidth w.instr
    let sub := mtSub w.instr
    let u := mtAcc w.instr
    let pair := mtPair w.instr
    let kept (t : State) : Nat → Nat := fun k => tget 0 (t.core c).seqr.scratch k
    let a := s.teSrc w w.g0 x w.k ma
    let b := s.teSrc w w.g1 y w.k mb
    let n := (s.core c).seqr.step
    (∀ g off k p, s.teSrc w g off k p = ⟨base + off + g.toNat % 2 ^ 24, base + off + g.toNat / 2 ^ 24 % 2 ^ 24,
      g.toNat / 2 ^ 56 % 32 + 2, k / 32, p, (s.core c).seqr.seen⟩) ∧
    (∀ (t : TeSrc) (row k : Nat), t.seen = [] → padBase 0 ≤ t.pb → padBase 0 ≤ t.eb →
      BlockOf t.p (fun q => at_ s (t.pb + ((row / 128 * t.kb + k) * t.stored + q) * 512 + row % 128 * 4) 4)
        (at_ s (t.eb + (row / 128 * t.kb + k) * 256 + row % 128 * 2) 2) (s.teBlock t row k)) ∧
    (∀ g off i k, (s.core c).seqr.seen = [] →
      let v := if opEf g = 2 then 8 else 4
      (s.elemBlock w g off i k).length = 32 ∧ ∀ e, e < 32 → (s.elemBlock w g off i k).getD e 0 =
        at_ s (base + off + g.toNat % 2 ^ 24 + (i / 128 * w.k + (32 * k + e)) * 128 * v + i % 128 * v) v) ∧
    (1 ≤ op → op ≤ 4 →
      let k := n % (w.k / 32)
      let v := if op = 3 ∧ n < w.k / 32 then s.expandBlock w k else s
      let t := s.stepEffect w n
      let key (j : Nat) : TeBlock := if op = 3 then teUnpack mb (kept v (k * 128 + j)) else s.teBlock b j k
      t.mem = v.mem ∧
      (∀ r c0 cn, (r, c0, cn) ∈ w.regionOf (n / (w.k / 32)) → ∀ j, c0 ≤ j → j < c0 + cn →
        let old := if k = 0 ∧ shAccum w.g2 = false then 0 else accElem s c acf (w.accOf r) (r % 128) j
        accElem t c acf (w.accOf r) (r % 128) j =
          if opEf w.g0 = 0 then step51 ma mb (v.teBlock (v.teSrc w w.g0 x w.k ma) r k) (key j) old
          else step53 (if opEf w.g0 = 2 then f64 else f32) f (v.elemBlock w w.g0 x r k) (v.elemBlock w w.g1 y j k) old) ∧
      SameAccsBut s t c fun q i j => ∃ r c0 cn, (r, c0, cn) ∈ w.regionOf (n / (w.k / 32)) ∧ r % 128 = i ∧ c0 ≤ j ∧ j < c0 + cn ∧
        (q = w.accOf r ∨ (acf = true ∧ q = w.accOf r + 1))) ∧
    (∀ hb k, k < 128 →
      let v := s.expandBlock w hb
      let e := s.expandKey w k hb
      teUnpack mb (kept v (hb * 128 + k)) = teOfPlanes mb 32 ((List.range (mb + 2)).map (e.plane mb)) e.exps ∧
      e = teOfF32 mb o ((List.range 32).map fun i =>
        ((List.range (dc / 32)).foldl (fun acc i' => step51 (opCls w.g1) mw (s.teBlock (s.teSrc w w.g1 y dc (opCls w.g1)) k i')
          (s.projBlock w 0 (dc / 32) (32 * hb + i) i') acc) 0, w.random w.ctr (k * dh + (32 * hb + i)))) ∧
      (mtX w.instr = false → v.mem = s.mem) ∧
      (mtX w.instr = true → MemoryCanonical s → opCls w.h1 = mb → hb < dh / 32 →
        let out := s.teSrc w w.h1 0 dh mb
        apart out.pb (128 * (dh / 32) * (mb + 2) * 4) out.eb (128 * (dh / 32) * 2) = true →
        (∀ q, q < mb + 2 → at_ v (out.planeAt k hb q) 4 = e.plane mb q) ∧ (out.eb % 4 = 0 → at_ v (out.expsAt k hb) 2 = e.exps))) ∧
    (op = 3 → mtX w.instr = true → mtSteps w ≠ 0 → MemoryCanonical s →
      let out := s.teSrc w w.h1 0 dh mb
      out.eb % 4 ≠ 0 → ∀ hb k, hb < dh / 32 → k < 128 → at_ (s.doneEffect w) (out.expsAt k hb) 2 = kept s (hb * 128 + k) % 2 ^ 16) ∧
    (∀ tri, w.tri = some tri → 2 ≤ op → op ≤ 4 → (op = 3 → mtSteps w ≠ 0 ∧ mtX w.instr = false) →
      let t := s.doneEffect w
      (∀ i j, i < w.m → j < 128 → accElem t c acf (w.accOf i) (i % 128) j =
        if 0 < trShift tri + (j : Int) - (i : Int) then (if acf then f32.widen f64 (trConst tri) else trConst tri)
        else accElem s c acf (w.accOf i) (i % 128) j) ∧ t.mem = s.mem) ∧
    (op = 5 → 0 < dh / 32 → 0 < ceilDiv dc 128 →
      let k := n % (dh / 32)
      let cb := n / (dh / 32) % ceilDiv dc 128
      let r := n / (dh / 32 * ceilDiv dc 128)
      let t := s.stepEffect w n
      t.mem = s.mem ∧ (t.core c).acc = (s.core c).acc ∧ ∀ i j, i < 128 → j < 128 → 128 * cb + j < dc →
        let at_ (v : State) : Nat := kept v ((128 * r + i) * 8 + cb) / 2 ^ (32 * j) % 2 ^ 32
        at_ t = step51 ma mw (s.teBlock a (128 * r + i) k) (s.projBlock w 1 (dh / 32) (128 * cb + j) k) (if k = 0 then 0 else at_ s)) ∧
    (op = 5 → opCls w.g1 = ma → dc % 32 = 0 → w.m % 128 = 0 → MemoryCanonical s →
      let out := s.teSrc w w.g1 y dc ma
      let t := s.doneEffect w
      apart out.pb (w.m * (dc / 32) * (ma + 2) * 4) out.eb (w.m * (dc / 32) * 2) = true →
      ∀ i k, i < w.m → k < dc / 32 →
        let sums := (List.range 32).map fun e => (kept s (i * 8 + (32 * k + e) / 128) / 2 ^ (32 * ((32 * k + e) % 128)) % 2 ^ 32,
          w.random w.ctr (i * dc + (32 * k + e)))
        (∀ q, q < ma + 2 → at_ t (out.planeAt i k q) 4 = (teOfF32 ma o sums).plane ma q) ∧
        at_ t (out.expsAt i k) 2 = (teOfF32 ma o sums).exps) ∧
    (op = 6 → dc % 32 = 0 → dh % 32 = 0 → (mw + 2) * 4 + 2 ≤ 256 →
      let ne := if mtLoadsE w.instr then dh * (dc / 32) else 0
      let per := (mw + 2) * 4 + 2
      let t := s.stepEffect w n
      let e := s.teSrc w w.g1 y dc mw
      let q := s.teSrc w w.g0 x dh mw
      (mtLoadsE w.instr = true → ∀ r k, r < dh → k < dc / 32 → (r * (dc / 32) + k) * per / 256 = n →
        kept t (r * (dc / 32) + k) = (s.teBlock e r k).packed mw) ∧
      (mtLoadsA w.instr = true → ∀ r k, r < dc → k < dh / 32 → (ne + r * (dh / 32) + k) * per / 256 = n →
        kept t (ne + r * (dh / 32) + k) = (s.teBlock q r k).packed mw) ∧
      (∀ i, i * per / 256 ≠ n → kept t i = kept s i) ∧ t.mem = s.mem ∧ (t.core c).acc = (s.core c).acc ∧
      let d := s.doneEffect w
      (∀ r k, mtLoadsE w.instr = true → r < dh → k < dc / 32 →
        d.projBlock w 0 (dc / 32) r k = teUnpack mw (kept s (r * (dc / 32) + k))) ∧
      (∀ r k, mtLoadsA w.instr = true → r < dc → k < dh / 32 →
        d.projBlock w 1 (dh / 32) r k = teUnpack mw (kept s (ne + r * (dh / 32) + k))) ∧
      tget 0 (d.core c).proj (laSlot w.g3) = projDesc w ∧
      (∀ i, i ≠ laSlot w.g3 → tget 0 (d.core c).proj i = tget 0 (s.core c).proj i) ∧
      (∀ i, i / 2 ≠ laSlot w.g3 → tget [] (d.core c).projData i = tget [] (s.core c).projData i) ∧ d.mem = s.mem) ∧
    (∀ (src : TeSrc) (row k : Nat), src.p = mw → teUnpack mw ((s.teBlock src row k).packed mw) = s.teBlock src row k) ∧
    (op = 8 → n < 128 → (s.core c).seqr.seen = [] → (pair = true → u % 2 = 0) →
      let t := s.stepEffect w n
      let from_ (j : Nat) : Nat := at_ s (base + (x + n * y) + z * j) z
      (∀ j, j < 128 →
        let e := accElem t c pair u n j
        (sub = 0 ∨ sub = 3 → e = from_ j) ∧
        (sub = 1 ∨ sub = 2 →
          let v := (if sub = 1 then bf16 else f16).decode (from_ j)
          (∀ t, v = .nan t → e = f32.nanBits t) ∧ (∀ t, v = .inf t → e = f32.infBits t) ∧
          ∀ t m g, v = .fin t m g → ∃ m' g', f32.decode e = .fin t m' g' ∧ (m' : ℚ) * 2 ^ g' = m * 2 ^ g)) ∧
      t.mem = s.mem ∧ SameAccsBut s t c fun q i _ => i = n ∧ (q = u ∨ (pair = true ∧ q = u + 1))) ∧
    (op = 9 → n < 128 → (pair = true → u % 2 = 0) → MemoryCanonical s →
      let out (j : Nat) : Nat := tstaccElem sub o (w.random w.ctr (n * 128 + j)) (accElem s c pair u n j)
      (sub ≤ 6 → ∀ j, j < 128 →
        let e := accElem s c pair u n j
        let src : Fmt := if sub = 6 then f64 else f32
        let dst : Fmt := [f32, bf16, f16, e4m3, e5m2].getD sub f32
        (sub = 0 ∨ sub = 5 → out j = e) ∧
        (sub ≠ 0 → sub ≠ 5 →
          (∀ t, src.decode e = .nan t → out j = dst.nanBits t) ∧
          (∀ t, src.decode e = .inf t → out j = if o.sat then dst.maxBits t else dst.infBits t) ∧
          ∀ t m g, src.decode e = .fin t m g → RoundsTo dst o (w.random w.ctr (n * 128 + j)) t (m * 2 ^ g) (out j))) ∧
      let t := s.stepEffect w n
      (t.core c).acc = (s.core c).acc ∧
      ((∀ f' x' y' u', w.instr = .tstacc f' x' y' u' →
        (x % 4 = 0 → y % 4 = 0 → (∀ j, j < 128 → at_ t (base + (x + n * y) + j * z) z = out j) ∧
          SameBytesBut (base + (x + n * y)) (128 * z) s t) ∧
        (¬(x % 4 = 0 ∧ y % 4 = 0) → t.mem = s.mem ∧ ∀ j, j < 128 → kept t n / 2 ^ (8 * z * j) % 2 ^ (8 * z) = out j) ∧
        (¬(x % 4 = 0 ∧ y % 4 = 0) → 128 * z ≤ y → ∀ i j, i < 128 → j < 128 →
          at_ (s.doneEffect w) (base + (x + i * y) + j * z) z = kept s i / 2 ^ (8 * z * j) % 2 ^ (8 * z))) ∧
       (∀ (f' x' y' u' : Nat) (pa key : Nat → Nat), w.instr = .tstaccG f' x' y' u' → s.mirages (s.ctx c w.ctx).space = [] →
        (∀ j, j < 128 → w.placeOf (x + n * y + j * z) = some (pa j, key j) ∧ key j < 256 ∧ keyHeld s (key j) (pa j) z = true) →
        (∀ i j, i < 128 → j < 128 → i ≠ j → apart (pa i) z (pa j) z = true) →
        ∀ j, j < 128 → at_ t (pa j) z = out j))) ∧
    (op = 10 →
      let t := s.stepEffect w n
      let q := (w.maskStep n).1
      (∀ j, j < 128 →
        let v (r : Word) : FVal := f.decode (if acf then r.toNat else r.toNat % 2 ^ 32)
        accElem t c acf q (n % 128) j = f.arith o (w.random (w.ctr + 256 * (n / 128)) (n % 128 * 128 + j))
          (FVal.add o.mode ((f.decode (accElem s c acf q (n % 128) j)).mul (v w.x)) (v w.y))) ∧
      t.mem = s.mem ∧ SameAccsBut s t c fun v i _ => i = n % 128 ∧ (v = q ∨ (acf = true ∧ v = q + 1))) ∧
    (op = 7 ∨ op = 10 →
      let l := (List.range 4).filter fun v => (mtMask w.instr).testBit v && !(op == 10 && acf && v % 2 == 1)
      w.maskStep n = (l.getD (n / 128) 0, n % 128)) ∧
    (w.tri = none → ∀ g r c0 cn, (r, c0, cn) ∈ w.regionOf g ↔ 128 * g ≤ r ∧ r < 128 * g + 128 ∧ c0 = 0 ∧ cn = 128) ∧
    (∀ tri, w.tri = some tri →
      let tiles := activeTiles tri w.m
      (∀ i j, (i, j) ∈ tiles ↔ i < w.m / 32 ∧ j < 4 ∧ trShift tri + 32 * j - (32 * i + 31) ≤ 0) ∧
      tiles.Pairwise (fun p q => p.1 < q.1 ∨ (p.1 = q.1 ∧ p.2 < q.2)) ∧
      ∀ g r c0 cn, (r, c0, cn) ∈ w.regionOf g ↔
        ∃ q i j, tiles[q]? = some (i, j) ∧ q / 16 = g ∧ 32 * i ≤ r ∧ r < 32 * i + 32 ∧ c0 = 32 * j ∧ cn = 32) ∧
    (∀ r, w.accOf r = shAcc w.g2 + r / 128 * (if acf then 2 else 1))) ∧
  (∀ (pa pb acc : Nat) (a b : TeBlock),
    (hasNan a ∨ hasNan b → step51 pa pb a b acc = 0x7FC00000) ∧
    (¬hasNan a → ¬hasNan b →
      (∀ t, f32.decode acc = .nan t → step51 pa pb a b acc = 0x7FC00000) ∧
      (∀ t, f32.decode acc = .inf t → step51 pa pb a b acc = f32.infBits t) ∧
      ∀ t m e, f32.decode acc = .fin t m e →
        let v := valueOf (.fin t m e) + ((a.el.zip b.el).map fun p => teValue a pa p.1 * teValue b pb p.2).sum
        ∃ neg, RoundsTo f32 ⟨0, false⟩ 0 neg |v| (step51 pa pb a b acc) ∧ (v < 0 → neg = true) ∧ (0 ≤ v → neg = false))) ∧
  (∀ (src dst : Fmt) (acc x y : Nat) (l m : List Nat),
    step53 src dst [] [] acc = acc ∧
    step53 src dst (x :: l) (y :: m) acc =
      step53 src dst l m (dst.arith ⟨0, false⟩ 0 (FVal.add 0 (dst.decode acc) ((src.decode x).mul (src.decode y))))) ∧
  ∀ (s : State) (c : Nat),
    let q := (s.core c).seqr
    (∀ w, q.frozen = false → q.run = none → q.wait = some w →
      ∃ t, Answers .mtWordStart [c] s t ∧ (t.core c).seqr.run = some w ∧ (t.core c).seqr.wait = none ∧ (t.core c).seqr.step = 0 ∧
        (t.core c).seqr.start = max q.start w.accepted ∧ (t.core c).seqr.scratch = [] ∧ (t.core c).seqr.seen = [] ∧
        (t.core c).seqr.chained = q.chained ∧ t.mem = s.mem) ∧
    (∀ w, q.frozen = false → q.run = some w → q.step < mtSteps w → s.wordWaits w = false →
      let v := ((given s [c, 0]).flushXforms c).modCore c Core.accAll
      v.stepPoison w q.step = false →
      let u := if 1 ≤ mtOp w.instr ∧ mtOp w.instr ≤ 4 then v.perf c w.ctx 7 1 else v
      ∃ t, Answers .sequencerStep [c, 0] s t ∧
        t = (u.stepEffect w q.step).modSeq c (fun r => { r with step := r.step + 1, seen := u.noteWords w q.step }) ∧
        (mtOp w.instr = 7 → w.core = c → (t.core c).accRow (w.maskStep q.step).1 (w.maskStep q.step).2 = 0 ∧
          (t.core c).seqr.step = q.step + 1 ∧ (t.core c).seqr.run = some w ∧ t.mem = (s.flushXforms c).mem)) ∧
    (∀ w, q.frozen = false → q.run = some w → mtOp w.instr = 7 → mtSteps w ≤ q.step → q.start + mtCycles w ≤ s.clk →
      q.wait = none → q.chained = [] →
      ∃ t, Answers .mtWordComplete [c] s t ∧ (t.core c).seqr.run = none ∧ (t.core c).seqr.start = q.start + mtCycles w ∧
        t.mem = (s.flushXforms c).mem) ∧
    (∀ w, q.frozen = false → q.run = some w → mtSteps w ≤ q.step → q.start + mtCycles w ≤ s.clk → (mtOp w.instr = 3 → mtSteps w ≠ 0) →
      let v := ((given s [c]).flushXforms c).modCore c Core.accAll
      ∃ t k, Answers .mtWordComplete [c] s t ∧ t = ((v.doneEffect w).countBusy c (q.start + mtCycles w)).modSeq c fun _ => k) ∧
    (∀ w l, q.frozen = false → q.run = none → q.wait = none → q.chained = w :: l →
      ∃ t, Answers .chainedWordAccept [c] s t ∧ (t.core c).seqr.chained = l ∧ t.mem = s.mem ∧
        (t.core c).seqr.run = some { w with accepted := s.clk, behind := s.relWrites c w.ctx }) ∧
    (∀ w w' l, q.frozen = false → q.run = some w → q.wait = none → q.chained = w' :: l →
      ∃ t, Answers .chainedWordAccept [c] s t ∧ (t.core c).seqr.chained = l ∧ (t.core c).seqr.run = some w ∧ t.mem = s.mem ∧
        (t.core c).seqr.wait = some { w' with accepted := s.clk, behind := s.relWrites c w'.ctx }) ∧
    (∀ k y w, s.copies.find? (fun p => p.1 == k) = some (k, y) → y.core = c → y.mt = some w → y.stage = 3 → q.chained.length < 4 →
      ∃ t, Answers .chainedWordPlace [c, k] s t ∧ (t.core c).seqr.chained = q.chained ++ [w] ∧
        tget y t.copies k = { y with stage := 4 }) ∧
    (∀ x, (s.core c).xforms.find? (fun y => y.id == x.id) = some x →
      ∃ t, Answers .xformComplete [c, x.id] s t ∧
        t = ((s.core c).xforms.takeWhile (fun y => y.id != x.id) ++ [x]).foldl (fun u y => u.xformPerform c y) (given s [c, x.id]) ∧
        (∀ d b, (s.core c).xforms.head? = some x → x.instr = .xformZero d b → isGlobal x.dst = false → MemoryCanonical s →
          (∀ i, i < x.size.toNat → byteAt t (x.dst + i) = 0) ∧ SameBytesBut x.dst x.size.toNat s t))

/-! ### Events of copies and the fabric -/

/-- R229, R235, R236, R281, R306, R330 to R332, R334, R339, R340, R420, R421: a copy reads a segment from a scratchpad or through
translations that its row holds, which joins what is in flight, or the data it gathers for windows, and changes no byte; a bale is
read whole and stays one; a gathered copy asks its window with all its data; any piece in flight may be the next to perform, at a
scratchpad or a virtual address its bytes and no other but its barrier word, which it then counts; or it is a bounds or rights
fault, recorded at once for its strand; a finished copy leaves its track. The model's own choices in it: log entries 2, 18, 35, 37 (the
address that a fault's granule number counts in). -/
def Obligations.CopyEventsTakeEffect : Prop :=
  (∀ (s : State) (pa n : Nat), padBase 0 ≤ pa → MemoryCanonical s →
    let w := at_ s pa 16
    let t := s.countBarrier pa n
    let v := at_ t pa 16
    SameBytesBut pa 16 s t ∧ (n = 0 ∨ w.testBit 97 = true → t = s) ∧
    (0 < n → w.testBit 97 = false →
      (w.testBit 96 = false → v = w + 2 ^ 97 ∧ t = (s.putBarrier pa v).bumpCounter (padCore pa) 0x02A 1) ∧
      (w.testBit 96 = true → w / 2 ^ 32 % 2 ^ 32 < n →
        v % 2 ^ 97 = w % 2 ^ 97 ∧ v.testBit 97 = true ∧ v.testBit 98 = true ∧ v / 2 ^ 99 = w / 2 ^ 99 ∧
          t = (s.putBarrier pa v).bumpCounter (padCore pa) 0x02B 1) ∧
      (w.testBit 96 = true → n ≤ w / 2 ^ 32 % 2 ^ 32 →
        let passes : Prop := n = w / 2 ^ 32 % 2 ^ 32 ∧ w / 2 ^ 64 % 2 ^ 16 = 0
        v / 2 ^ 32 % 2 ^ 32 = w / 2 ^ 32 % 2 ^ 32 - n ∧ v / 2 ^ 80 = w / 2 ^ 80 ∧
        (passes → v % 2 ^ 32 = (w + 1) % 2 ^ 32 ∧ v / 2 ^ 64 % 2 ^ 16 = w / 2 ^ 80 % 2 ^ 16) ∧
        (¬passes → v % 2 ^ 32 = w % 2 ^ 32 ∧ v / 2 ^ 64 % 2 ^ 16 = w / 2 ^ 64 % 2 ^ 16)))) ∧
  (∀ (s : State) (k i o n : Nat) (y : Copy) (r w : Bool),
    (∀ j a, (w = true → s.inAllotment y.crew (a + o) n = true → s.placePa k y i (.pad j a) o n r w = (.ok (a + o, 0, 0), y, s)) ∧
      (w = true → s.inAllotment y.crew (a + o) n = false → s.placePa k y i (.pad j a) o n r w = (.error (.kind 3 (a + o)), y, s)) ∧
      (w = false → s.placePa k y i (.pad j a) o n r w = (.ok (a + o, 0, 0), y, s))) ∧
    (∀ space va h,
      let a := if w = true ∧ y.reply = none then s.shadowed space (va + o) else va + o
      let e := h.leaf.toNat
      let pa := leafPa e (e / 2 ^ 44 % 4) a
      let p := s.placePa k y i (.virt space va) o n r w
      (2 ^ 56 ≤ a → p = (.error (.kind 0 a), y, s)) ∧
      (a < 2 ^ 56 → tlbFind (y.holdsIn i) space a = some h →
        (s.retired.contains (pa / 65536) = true ∨ (isGlobal pa = false ∧ isPad pa = false) ∨ s.populated pa = false →
          p = (.error (.kind 0 a), y, s)) ∧
        (s.retired.contains (pa / 65536) = false → isGlobal pa = true ∨ isPad pa = true → s.populated pa = true →
          ((r = true ∧ e.testBit 2 = false) ∨ (w = true ∧ e.testBit 3 = false) → p = (.error (.kind 1 a), y, s)) ∧
          ((r = true → e.testBit 2 = true) → (w = true → e.testBit 3 = true) →
            (w = true → isPad pa = true → s.inAllotment y.crew pa n = true) → p = (.ok (pa, e / 2 ^ 8 % 2 ^ 8, e), y, s)))))) ∧
  (∀ (s : State) (k i pa key e : Nat) (y z : Copy) (f : Flight) (v : State),
    let u := s.pieceWrite k y i
    let n := f.data.length
    let bar := y.bars.getD f.dst 0
    y.flight[i]? = some f →
    s.placePa k y f.row (y.dsts.getD f.dst .none) (f.row * y.dstr + f.off) n false true = (.ok (pa, key, e), z, v) →
    y.mo ≠ 7 → y.gathers = false → 0 < n → (∀ d, (s.core d).xforms = []) → MemoryCanonical s →
    e.testBit 5 = false → isPad pa = true ∨ (isGlobal pa = true ∧ keyHeld s key pa n = true) →
      (bar = 0 ∨ y.mt.isSome = true → SameBytesBut pa n s u ∧ ∀ m, m < n → (byteAt u (pa + m)).toNat = f.data.getD m 0 % 256) ∧
      (bar ≠ 0 → y.mt = none → padBase 0 ≤ bar - 1 → apart pa n (bar - 1) 16 = true →
        (∀ m, m < n → (byteAt u (pa + m)).toNat = f.data.getD m 0 % 256) ∧
        at_ u (bar - 1) 16 = at_ (s.countBarrier (bar - 1) n) (bar - 1) 16 ∧
        ∀ a, (a < pa ∨ pa + n ≤ a) → (a < bar - 1 ∨ bar + 15 ≤ a) → byteAt u a = byteAt s a) ∧
      (∀ x, f.baled = true → bar = 0 → pa / 128 ≤ x → x ≤ (pa + n - 1) / 128 → isGlobal pa = true → thas u.l2 x = true →
        nth 0 (tget [] u.l2 x) 132 % 4 = 2)) ∧
  (∀ (s : State) (k : Nat) (y : Copy),
    (y.fromBuf = true → s.pieceRead k y (s.readLen y) = (.ok ((y.buf.drop y.place).take (s.readLen y)), y, s)) ∧
    (∀ space va h, y.src = .virt space va → y.fromBuf = false → y.off < y.len →
      let n := s.readLen y
      let pa (m : Nat) : Nat := leafPa h.leaf.toNat (h.leaf.toNat / 2 ^ 44 % 4) (y.sourceOf m)
      0 < n →
      (∀ d, (s.core d).xforms = []) → h.leaf.toNat.testBit 2 = true →
      (∀ m, m < n → tlbFind (y.holdsIn (y.row + (y.off + m) / y.len)) space (y.sourceOf m) = some h ∧ y.sourceOf m < 2 ^ 56 ∧
        s.retired.contains (pa m / 65536) = false ∧ (isGlobal (pa m) = true ∨ isPad (pa m) = true) ∧ s.populated (pa m) = true ∧
        s.cxlDown (pa m) = false ∧ (isGlobal (pa m) = true → keyHeld s (h.leaf.toNat / 2 ^ 8 % 2 ^ 8) (pa m) 1 = true)) →
      ∃ v, v.mem = s.mem ∧ v.copies = s.copies ∧ s.pieceRead k y n = (.ok ((List.range n).map fun m =>
        (byteAt s (pa m)).toNat + if s.poisonedAt (pa m) 1 then 256 else 0), y, v)) ∧
    (s.inBale y = true → s.readLen y = min (4096 - y.sourceOf 0 % 4096) y.run) ∧
    (∀ l z v, y.mo ≠ 10 → s.copyBehind y = false → y.allRead = false → y.off < y.len →
      s.pieceRead k y (s.readLen y) = (.ok l, z, v) → (∀ x, x ∈ l → x < 256) → l.length = s.readLen y →
      z.core = y.core → z.ctx = y.ctx → z.row = y.row → z.off = y.off → z.len = y.len → z.rows = y.rows → z.flight = y.flight → z.dsts = y.dsts → z.instr = y.instr →
      z.src = y.src → z.buf = y.buf → z.dstr = y.dstr → z.sstr = y.sstr →
      let u := s.segment k y
      let t := tget y u.copies k
      let bale := v.travels z l
      let keeps := (v.perf y.core y.ctx 9 l.length).keepsBale z
      (y.gathers = true → y.place + l.length < y.amount →
        t.place = y.place + l.length ∧ t.buf = y.buf ++ l ∧ t.flight = y.flight ∧
          t.bales = (if bale then z.bales ++ [y.buf.length] else z.bales) ∧ u.mem = v.mem) ∧
      (y.gathers = true → y.place + l.length = y.amount → y.flight = [] → y.mo = 1 ∨ y.mo = 2 →
        ∀ d w key off, y.dsts = [.win d w key off] →
          t.stage = 3 ∧ t.awaits = 1 ∧ u.mem = v.mem ∧
          ∃ id p, u.packets = tset v.packets id p ∧ p.kind = 2 ∧ p.dst = d ∧ p.win = w ∧ p.key = key ∧ p.off = off ∧
            p.stride = y.dstr ∧ p.rows = y.rows ∧ p.len = y.len ∧ p.data = y.buf ++ l ∧
            p.bales = (if bale then z.bales ++ [y.buf.length] else z.bales)) ∧
      (y.gathers = false → bale = true → keeps = true →
        t.place = y.place + l.length ∧ t.flight = y.flight ++ [⟨y.row, y.off, 0, l, true⟩] ∧ u.mem = v.mem) ∧
      (y.gathers = false → y.dsts ≠ [] → ¬(bale = true ∧ keeps = true) →
        ∃ new, t.place = y.place + l.length ∧ t.flight = y.flight ++ new ∧ (∀ f, f ∈ new → f.baled = false) ∧ u.mem = v.mem ∧
          ∀ d, d < y.dsts.length → (new.filter fun f => f.dst == d).flatMap (·.data) = l))) ∧
  ∀ (s : State) (c k : Nat) (y : Copy), s.copies.find? (fun p => p.1 == k) = some (k, y) → y.core = c →
    (y.stage = 2 →
      (∀ u, u = ((given s [c, k, 0]).tookTurn y).segment k y →
        Answers .copySegment [c, k, 0] s (if c < 96 then u.choose c else u)) ∧
      (∀ i u, u = (given s [c, k, i + 1]).pieceWrite k y i →
        Answers .copySegment [c, k, i + 1] s (if c < 96 then u.choose c else u)) ∧
      (∀ j a, y.mo = 1 → y.src = .pad j a → y.gathers = false → y.dsts ≠ [] → y.bales = [] → y.bale = false → y.off < y.len →
        y.allRead = false → s.copyBehind y = false → (c < 96 → (s.core c).running.isSome = true) → (∀ d, (s.core d).xforms = []) →
        let n := y.pieceLen
        (∀ m, m < n → isPad (y.sourceOf m) = true ∧ s.poisonedAt (y.sourceOf m) 1 = false) →
        ∃ t new, Answers .copySegment [c, k, 0] s t ∧ t.mem = s.mem ∧
          let z := tget y t.copies k
          z.place = y.place + n ∧ z.stage = 2 ∧ z.flight = y.flight ++ new ∧ (∀ f, f ∈ new → f.row = y.row ∧ f.baled = false) ∧
          ∀ d, d < y.dsts.length →
            (new.filter fun f => f.dst == d).flatMap (·.data) = (List.range n).map fun m => (byteAt s (y.sourceOf m)).toNat) ∧
      (∀ i f j b, y.flight[i]? = some f → y.dsts[f.dst]? = some (.pad j b) → (c < 96 → (s.core c).running.isSome = true) →
        let to_ := b + f.row * y.dstr + f.off
        let n := f.data.length
        (s.inAllotment y.crew to_ n = true → isPad to_ = true → y.mo = 1 → y.gathers = false → f.baled = false → 0 < n →
          (∀ x, x ∈ f.data → x < 256) → (∀ q, q ∈ y.bars → q = 0) → (∀ d, (s.core d).xforms = []) → MemoryCanonical s →
          ∃ t, Answers .copySegment [c, k, i + 1] s t ∧ (tget y t.copies k).flight = y.flight.eraseIdx i ∧
            (∀ m, m < n → (byteAt t (to_ + m)).toNat = nth 0 f.data m) ∧ SameBytesBut to_ n s t) ∧
        (s.inAllotment y.crew to_ n = false →
          ∃ t, Answers .copySegment [c, k, i + 1] s t ∧ t.mem = s.mem ∧
            let z := tget y t.copies k
            z.stage = 3 ∧ z.cut = true ∧ z.flight = [] ∧ z.fault = some (y.fault.getD (3, to_ / 64)) ∧
            (y.fault = none → s.holds c y.ctx y.uid = true → (t.ctx c y.ctx).cfaults = (s.ctx c y.ctx).cfaults ++
              [(y.ch, 0x0E, y.ch + y.track * 8 + 3 * 64 + to_ / 64 % 2 ^ 46 * 1024)])))) ∧
    (y.finished = true → y.reply = none →
      ∃ t, Answers .copyComplete [c, k] s t ∧ t.copies = tdel s.copies k ∧ t.mem = s.mem ∧
        (t.ctx c y.ctx).cfaults = (s.ctx c y.ctx).cfaults ∧ (y.engine, y.track, s.clk) ∈ (t.core c).freed)

/-- R232, R253, R278, R286, R316 to R318, R343, R351, R406 to R411, R444: hops and what becomes of a packet that cannot go
on, owners and what they answer, replies and what they do at the requester, timeouts, channels, routes, bindings. The
model's own choices in it: log entries 2, 19, 24 (the flits that a packet takes), 36 (a table in poison has no entry). -/
def Obligations.FabricEventsTakeEffect : Prop :=
  (∀ (s : State) (p : Packet) (i : Nat), let e := tget 0 s.routes p.dst
    p.dst / 512 = s.dev / 512 →
    (i ∈ s.hopPorts p ↔ i < 12 ∧ (s.link i).st = 2 ∧
      (bit e i = true ∨ (bit e (12 + i) = true ∧ p.nm = false ∧ p.hops + e / 2 ^ 27 % 16 ≤ 14))) ∧
    ∀ free, (s.hopPort p free = some i ↔
      i ∈ s.hopPorts p ∧ ∀ j, j ∈ s.hopPorts p → free j ≤ free i ∧ (free j = free i → i ≤ j))) ∧
  (∀ (s : State) (k : Nat) (p : Packet), s.packets.find? (fun q => q.1 == k) = some (k, p) →
    (p.dst ≠ s.dev → s.mayGo k p = true → ∀ cr,
      (16 ≤ p.hops ∨ p.dst / 512 ≠ s.dev / 512 ∨ bit (tget 0 s.routes p.dst) 31 = false →
        (p.kind = 5 ∨ p.kind = 6 → ∃ t, Answers .packetHop (k :: cr) s t ∧ t.packets = tdel s.packets k ∧ t.remotes = s.remotes ∧ t.mem = s.mem) ∧
        (p.kind ≠ 5 → p.kind ≠ 6 → p.req ≠ s.dev → ∃ t q, Answers .packetHop (k :: cr) s t ∧ t.mem = s.mem ∧
          t.packets = tset (tdel s.packets k) s.nextId q ∧ q.kind = 6 ∧ q.dst = p.req ∧ q.who = p.who ∧ q.status = 9 ∧ q.party = 2) ∧
        (∀ r, p.kind = 0 → p.req = s.dev → s.remotes.find? (fun q => q.1 == p.who) = some (p.who, r) → r.kind = 0 → bits r.op 60 4 = 1 →
          r.region = false → s.holds r.core r.ctx r.uid = true →
          ∃ t, Answers .packetHop (k :: cr) s t ∧ t.remotes = tdel s.remotes p.who ∧ t.mem = s.mem ∧
            (t.ctx r.core r.ctx).owed = (s.ctx r.core r.ctx).owed ++ [⟨0x0F, rstatWord 9 2 0 r.dev r.win (0x20 + r.lf), 0⟩])) ∧
      (p.hops < 16 → p.dst / 512 = s.dev / 512 → bit (tget 0 s.routes p.dst) 31 = true →
        (∀ i, s.hopPort p (fun n => nth 0 cr n) = some i → (s.link i).takes p = true →
          ∃ t, Answers .packetHop (k :: cr) s t ∧ t.packets = tdel s.packets k ∧ t.mem = s.mem ∧ (t.link i).flits = (s.link i).flits ++
            [({ p with vc := p.hops, hops := p.hops + 1, nm := p.nm || !bit (tget 0 s.routes p.dst) i }, packetFlits p)]) ∧
        (s.hopPort p (fun n => nth 0 cr n) = none ∨
          (∃ i, s.hopPort p (fun n => nth 0 cr n) = some i ∧ (s.link i).takes p = false) →
          Answers .packetHop (k :: cr) s (given s (k :: cr))))) ∧
    (p.dst = s.dev →
      (p.kind = 0 ∨ p.kind = 1 ∨ p.kind = 2 ∨ p.kind = 7 → s.mayGo k p = true → s.ownerHeld p = false →
        Answers .ownerRequest [k, 0] s (((given s [k, 0]).downAccess (s.windowPa p.win)).serve k p)) ∧
      (p.kind = 2 → s.mayGo k p = true →
        let st := s.ownerCheck p (writeRights p.hdr) ((p.rows - 1) * p.stride + p.len) (bit p.hdr 4)
        let base := winBase (s.window p.win) true + p.off
        (st ≠ 0 → ∃ t q, Answers .ownerRequest [k, 0] s t ∧ t.packets = tset (tdel s.packets k) s.nextId q ∧ t.mem = s.mem ∧
          t.copies = s.copies ∧ t.rejected = s.rejected + 1 ∧ q.kind = 6 ∧ q.dst = p.req ∧ q.who = p.who ∧ q.status = st) ∧
        (st = 0 → bit p.hdr 1 = false → s.rowsGood (s.window p.win) base p.rows p.len p.stride false true = true →
          ∃ t y, Answers .ownerRequest [k, 0] s t ∧ t.packets = tdel s.packets k ∧ t.mem = s.mem ∧
            t.copies = tset s.copies s.nextId y ∧ y.core = 96 ∧ y.stage = 2 ∧ y.row = 0 ∧ y.off = 0 ∧ y.flight = [] ∧ y.buf = p.data ∧
            y.dsts = [.virt (bits (s.window p.win) 499 4) base] ∧ y.reply = some (p.req, p.who) ∧ y.rows = p.rows ∧ y.len = p.len ∧
            y.dstr = p.stride)) ∧
      (p.kind = 0 → s.mayGo k p = true → bits p.hdr 60 4 ≤ 1 → p.req ≠ s.dev →
        let z := if bit p.hdr 53 then 8 else 4
        let n := bits p.hdr 48 4 + 1
        let st := s.ownerCheck p [if bits p.hdr 60 4 = 0 then 3 else 2] (n * z) false
        s.ownerHeld p = false →
        (st ≠ 0 → ∃ t q, Answers .ownerRequest [k, 0] s t ∧ t.packets = tset (tdel s.packets k) s.nextId q ∧ t.mem = s.mem ∧
          q.kind = 6 ∧ q.dst = p.req ∧ q.who = p.who ∧ q.status = st ∧ q.words = []) ∧
        (∀ pa key leaf, n = 1 → st = 0 → s.lfPlace p 0 = some (pa, key, leaf) → s.cxlDown pa = false → (∀ c, (s.core c).xforms = []) →
          (bits p.hdr 60 4 = 0 → s.poisonedAt (pa / 64 * 64) 64 = false →
            ∃ t q, Answers .ownerRequest [k, 0] s t ∧ t.packets = tset (tdel s.packets k) s.nextId q ∧ t.mem = s.mem ∧
              q.kind = 6 ∧ q.dst = p.req ∧ q.who = p.who ∧ q.status = 0 ∧ q.words = [s.readPa key pa z]) ∧
          (bits p.hdr 60 4 = 1 → (isPad pa = true → s.inAllotment (winCrew (s.window p.win)) pa z = true) → bit leaf 5 = false →
            (isGlobal pa = true → keyHeld s key pa z = true) → MemoryCanonical s → p.words.length = 1 →
            ∃ t q, Answers .ownerRequest [k, 0] s t ∧ memRead t.mem pa z = nth 0 p.words 0 % 2 ^ (8 * z) ∧ SameBytesBut pa z s t ∧
              t.packets = tset (tdel s.packets k) s.nextId q ∧ q.kind = 6 ∧ q.dst = p.req ∧ q.who = p.who ∧ q.status = 0))) ∧
      (p.kind = 3 → s.flipReady p = true →
        Answers .publishFlip [k] s (((given s [k]).publishAt p).dropPacket k) ∧
        ∀ h, p.words = [h] → s.publishCheck h p.req = 0 →
          let a := bits s.wtBase.toNat 18 26 * 2 ^ 18 + 64 * handleWin h
          let e := s.window (handleWin h)
          MemoryCanonical s → keyHeld s 0 a 64 = true →
          ∃ t, Answers .publishFlip [k] s t ∧ SameBytesBut a 64 s t ∧ memRead t.mem a 64 = setBits e 509 1 (bits e 509 1 + 1) % 2 ^ 512) ∧
      (p.kind = 5 → MemoryCanonical s → schedulerSound s → tcEn (s.tch (p.win % 256)) = true → tcPdev (s.tch (p.win % 256)) = p.req →
        ∃ t, Answers .tcCreditReturn [k] s t ∧ t.packets = tdel s.packets k ∧
          t.sm (0x1800 + 32 * (p.win % 256) + 8) 4 = (tcAcked (s.tch (p.win % 256)) + p.len) % 2 ^ 32 ∧
          SameBytesBut (schedBase + (0x1800 + 32 * (p.win % 256) + 8)) 4 s t) ∧
      (p.kind = 4 → schedulerSound s →
        let w (i : Nat) : Nat := nth 0 p.words i
        let e := s.tch (w 0 % 256)
        (tcEn e = false → ∃ t, Answers .tcBlockLand [k] s t ∧ t = ((given s [k]).dropPacket k).reply p 10 1 [] []) ∧
        (∀ pa key leaf, tcEn e = true → tcPdev e = p.req → tcPch e = w 1 → bit e 223 = true →
          s.ownerPa (stGraph (s.stageEntry (bits e 217 6))) (bits e 140 44 * 4096 + (w 3 + p.rows) % 2 ^ 32 % tcWin e * 4096) false true =
            some (pa, key, leaf) →
          isPad pa = false → s.moves = [] → p.rows + 1 < w 2 → MemoryCanonical s → (isGlobal pa = true → keyHeld s key pa 4096 = true) →
          4096 * (p.rows + 1) ≤ p.data.length → (∀ x, x ∈ p.data → x < 256) →
          ∃ t, Answers .tcBlockLand [k] s t ∧ (∀ i, i < 4096 → (byteAt t (pa + i)).toNat = nth 0 p.data (4096 * p.rows + i)) ∧
            SameBytesBut pa 4096 s t ∧ tget p t.packets k = { p with rows := p.rows + 1 }) ∧
        (∀ pa key leaf, tcEn e = true → tcPdev e = p.req → tcPch e = w 1 → bit e 223 = true →
          s.ownerPa (stGraph (s.stageEntry (bits e 217 6))) (tcBlockAt e p p.rows) false true = some (pa, key, leaf) →
          isPad pa = false → s.moves = [] → w 2 ≤ p.rows + 1 →
          ∃ t, Answers .tcBlockLand [k] s t ∧ t.packets = tdel s.packets k ∧
            t.inbox = s.inbox ++ [⟨bits e 217 6, arrival (w 4) (w 5) (w 6) (w 0 % 256), none, false⟩] ∧
            ∃ y, t.copies = tset s.copies s.nextId y ∧ y.stage = 3 ∧ y.reply = some (p.req, p.who))) ∧
      (p.kind = 6 → (∀ q, q ∈ s.remotes → q.1 = p.who → q.2.lost = true) → Answers .remoteReply [k] s ((given s [k]).dropPacket k)) ∧
      (p.kind = 6 → ∀ r, s.remotes.find? (fun q => q.1 == p.who) = some (p.who, r) → r.lost = false →
        let done (ops : List Nat) : State := ((given s ops).dropPacket k).answer p.who p
        (r.kind = 1 → Answers .remoteReply [k] s (done [k]) ∧
          ∀ y, s.copies.find? (fun q => q.1 == r.copy) = some (r.copy, y) → p.status = 0 →
            (done [k]).copies = tset s.copies r.copy { y with buf := p.data, bales := p.bales, stage := 2 } ∧
            (done [k]).remotes = tdel s.remotes p.who ∧ (done [k]).mem = s.mem) ∧
        (r.kind = 0 → bits r.op 60 4 = 0 → p.status = 0 → s.lfRoom r = true → s.lfWaiting r k = false →
          ∃ t, Answers .remoteReply [k] s t ∧ t.remotes = tdel s.remotes p.who ∧ t.mem = s.mem ∧
            ((t.core r.core).lfOf r.lf).inq.map (·.w) = ((s.core r.core).lfOf r.lf).inq.map (·.w) ++
              replyHeader r.op 0 r.rqn :: (List.range r.words).map fun i => wd (p.words.getD i 0)) ∧
        (r.kind = 0 → bits r.op 60 4 = 0 → s.lfRoom r = false ∨ s.lfWaiting r k = true → Answers .remoteReply [k] s (given s [k])) ∧
        (r.kind = 0 → bits r.op 60 4 = 1 → Answers .storeAck [k] s (done [k]) ∧ (done [k]).remotes = tdel s.remotes p.who ∧
          (done [k]).mem = s.mem ∧
          (p.status ≠ 0 → r.region = false → s.holds r.core r.ctx r.uid = true →
            ((done [k]).ctx r.core r.ctx).owed = (s.ctx r.core r.ctx).owed ++
              [⟨if p.status = 8 then 0x10 else 0x0F, rstatWord p.status p.party 0 r.dev r.win (0x20 + r.lf), 0⟩])) ∧
        (r.kind = 2 → Answers .recipientAck [k] s (done [k]) ∧
          ∀ y, s.copies.find? (fun q => q.1 == r.copy) = some (r.copy, y) → p.status = 0 →
            (done [k]).copies = tset s.copies r.copy { y with awaits := y.awaits - 1 } ∧ (done [k]).remotes = tdel s.remotes p.who ∧
            (done [k]).mem = s.mem) ∧
        (r.kind = 3 → Answers .publishStatusReturn [k] s (done [k]) ∧
          (p.status = 0 → (∀ q, q ∈ p.words → q = 0) → (∀ q, q ∈ s.remotes → q.2.kind = 3 → q.1 = p.who) → s.holds r.core r.ctx r.uid = true →
            ∀ sc, (s.ctx r.core r.ctx).rel = some ⟨sc, .sent false⟩ → ((done [k]).ctx r.core r.ctx).rel = none))))) ∧
  (∀ (s : State) (k : Nat) (r : Remote), s.remotes.find? (fun q => q.1 == k) = some (k, r) → r.deadline ≤ s.ns →
    (s.replyHere k = true → Answers .remoteTimeout [k] s (given s [k])) ∧
    (s.replyHere k = false →
      (r.kind = 1 ∨ r.kind = 2 ∨ r.kind = 4 ∨ r.kind = 7 →
        Answers .remoteTimeout [k] s ((given s [k]).answer k { Packet.blank with kind := 6, status := 9, party := 2 })) ∧
      (r.kind = 0 → bits r.op 60 4 ≠ 1 → s.lfRoom r = true → s.lfWaiting r s.nextId = false →
        ∃ t, Answers .remoteTimeout [k] s t ∧ t.remotes = tdel s.remotes k ∧ t.mem = s.mem ∧
          ((t.core r.core).lfOf r.lf).inq.map (·.w) = ((s.core r.core).lfOf r.lf).inq.map (·.w) ++
            replyHeader r.op 9 r.rqn :: List.replicate r.words 0) ∧
      (r.kind = 0 → bits r.op 60 4 = 1 → r.region = false → s.holds r.core r.ctx r.uid = true →
        ∃ t, Answers .remoteTimeout [k] s t ∧ t.remotes = tdel s.remotes k ∧ t.mem = s.mem ∧
          (t.ctx r.core r.ctx).owed = (s.ctx r.core r.ctx).owed ++ [⟨0x0F, rstatWord 9 2 0 r.dev r.win (0x20 + r.lf), 0⟩]))) ∧
  (∀ (s : State) (v : Nat), ∃ t, Answers .rtload [v] s t ∧ t.rtLoad = some (v / 2 ^ 17 % 2 ^ 27 * 2 ^ 17) ∧ t.routes = s.routes ∧ t.mem = s.mem) ∧
  (∀ (s : State) (pa : Nat), s.rtLoad = some pa → ∃ t, Answers .routeTableSwitch [] s t ∧ t.rtLoad = none ∧ t.mem = s.mem ∧
    ∀ d, d < 32768 → tget 0 t.routes d = (s.tableAt (pa + 4 * d) 4).getD 0) ∧
  (∀ (s : State) (c k v : Nat), k < 8 →
    let mine (q : Nat × Remote) : Prop := q.2.kind = 0 ∧ q.2.core = c ∧ q.2.lf = k
    ∃ t, Answers .linkBindingWrite [c, k, v] s t ∧ ((t.core c).lfOf k).outq = [] ∧ ((t.core c).lfOf k).part = [] ∧
      ((t.core c).lfOf k).bind.toNat = v % 2 ^ 64 / 2 ^ 31 * 2 ^ 31 ∧ ((t.core c).lfOf k).rqn = 0 ∧ t.mem = s.mem ∧
      (∀ q, q ∈ t.packets → ¬(q.2.kind = 0 ∧ q.2.src = s.dev ∧ q.2.hops = 0 ∧ q.2.port = c * 8 + k)) ∧
      ((∀ q, q ∈ s.remotes → ¬mine q) → ((t.core c).lfOf k).inq = [] ∧ t.remotes = s.remotes) ∧
      (∀ id r, s.remotes = [(id, r)] → mine (id, r) → bits r.op 60 4 ≠ 1 → r.words ≤ 31 → t.remotes = [] ∧
        ((t.core c).lfOf k).inq.map (·.w) = replyHeader r.op 9 r.rqn :: List.replicate r.words 0))

/-- R307, R319, R345 to R349, R390 to R393, R449, R450: the Granary serves its queue's head on a track of the global
engines: an unstash reads its entry, a drop removes one; a prefetch copies its entry; the Gleaner's rings. The model's own
choices in it: log entries 2, 7 (what a glean signs), 20, 21. -/
def Obligations.GranaryAndGleanerEventsTakeEffect : Prop :=
  (∀ (s : State) (k : Nat) (l : List Nat) (y : Copy), s.granaryQ = k :: l → s.copies.find? (fun p => p.1 == k) = some (k, y) →
    let held := s.gtracks.any fun p => p.2 == 2 * k
    let found := s.gfind (s.granStage y).1 (bits y.y.toNat 32 32) (bits y.y.toNat 0 4)
    (held = true → Answers .granaryRequest [] s ((given s []).granServe k y)) ∧
    (held = false → s.globalFree = true → Answers .granaryRequest [] s (((given s []).takeGlobal (2 * k)).granServe k y)) ∧
    (held = false → s.globalFree = false → Answers .granaryRequest [] s (given s [])) ∧
    (held = true ∨ s.globalFree = true → schedulerSound s → (∀ q, q ∈ s.copies → q.2.stage ≠ 0) →
      (y.mo = 7 → y.stage = 1 → ∃ t, Answers .granaryRequest [] s t ∧ t.granaryQ = s.granaryQ ∧ t.mem = s.mem ∧
        (found = none → t.copies = tset s.copies k { y with stage := 2, awaits := 1, seq := 3 }) ∧
        (∀ i e, found = some (i, e) → gState e = 4 →
          t.copies = tset s.copies k { y with stage := 2, awaits := 1, seq := 2 + gSize e * 2 ^ 32 }) ∧
        (∀ i e, found = some (i, e) → gState e ≠ 4 → ∃ z, t.copies = tset s.copies k z ∧ z.stage = 2 ∧
          z.buf = (s.granData i).take y.total ∧ z.seq = (if y.total < gSize e then 4 else 1) + gSize e * 2 ^ 32)) ∧
      (y.mo = 8 → MemoryCanonical s → ∃ t, Answers .granaryRequest [] s t ∧ t.granaryQ = l ∧
        t.copies = tset s.copies k { y with stage := 3 } ∧ (found = none → t.mem = s.mem) ∧
        (∀ i e, found = some (i, e) → t.gdir i = 0 ∧ thas t.resident i = false ∧ ∀ n, n < 4096 → n ≠ i → t.gdir n = s.gdir n)))) ∧
  (∀ (s u : State) (i : Nat), u = (given s [i]).feedPrefetch →
    let hid := u.hidden.map fun p => (p.2.headD 0, chunks (gStored (u.gdir p.1)))
    let room := firstFit (u.pool 0).2 (chunks (gStored (u.gdir i))) (u.runs 0 ++ hid)
    (u.gtracks.any (fun p => p.2 == 2 * i + 3) = false → Answers .prefetchComplete [i] s u) ∧
    (u.gtracks.any (fun p => p.2 == 2 * i + 3) = true → ∃ t, Answers .prefetchComplete [i] s t ∧ t.mem = s.mem ∧
      (∀ n, gState (u.gdir i) = 5 → (u.pool 0).2 ≠ 0 → room = some n → t.hidden = tset s.hidden i (n :: s.granData i)) ∧
      (gState (u.gdir i) ≠ 5 ∨ (u.pool 0).2 = 0 ∨ room = none → t.hidden = s.hidden))) ∧
  (∀ (s : State) (k : Nat) (l : List Nat) (y : Copy), s.gleanQ = k :: l → s.copies.find? (fun p => p.1 == k) = some (k, y) → y.stage = 1 →
    let ring := glRing y.y.toNat
    (rgEn (tget 0 s.ringCfg ring) = false →
      ∃ t, Answers .gleanerRequest [] s t ∧
        t = State.admitRequest { ((given s []).refuseCopy k { y with stage := 3 } (rstatWord 9 2 y.ch s.dev ring 11)) with gleanQ := l } 2) ∧
    (rgEn (tget 0 s.ringCfg ring) = true → (s.glean ring).copy = 0 → s.globalFree = true →
      ∃ t, Answers .gleanerRequest [] s t ∧ (t.glean ring).copy = k ∧ (t.glean ring).sig = y.gleanSig ∧ (t.glean ring).result = [] ∧
        (t.glean ring).terms.length = y.gleanCount ∧ t.mem = s.mem)) ∧
  (∀ (s : State) (ring step fmt seq off sig : Nat),
    ∃ t, Answers .gleanerFrame [ring, 2, step, fmt, seq, off, sig] s t ∧
      (t.glean ring).unacked = (s.glean ring).unacked.filter (fun u => u.1 != seq) ∧ t.copies = s.copies ∧ t.mem = s.mem) ∧
  (∀ (s : State) (ring step fmt seq off sig kind v : Nat), let g := s.glean ring
    let ack := [1, ring, rgIdx (tget 0 s.ringCfg ring), 2, 0, 0, seq, 0, 0, 0]
    rgEn (tget 0 s.ringCfg ring) = true →
    (kind < 2 → g.seen.contains seq = true → ∃ t, Answers .gleanerFrame [ring, kind, step, fmt, seq, off, sig, v] s t ∧
      t.gleans = tset s.gleans ring { g with acks := g.acks ++ [ack] } ∧ t.copies = s.copies ∧ t.mem = s.mem) ∧
    (kind < 2 → g.seen.contains seq = false → g.copy = 0 →
      Answers .gleanerFrame [ring, kind, step, fmt, seq, off, sig, v] s (given s [ring, kind, step, fmt, seq, off, sig, v])) ∧
    (∀ k y, g.copy = k → k ≠ 0 → g.seen.contains seq = false →
      s.copies.find? (fun p => p.1 == k) = some (k, y) → step + 1 < rgMembers (tget 0 s.ringCfg ring) →
      ∃ t, Answers .gleanerFrame [ring, 0, step, fmt, seq, off, g.sig, v] s t ∧ (t.glean ring).acks = g.acks ++ [ack] ∧
        (t.glean ring).unacked = g.unacked ++ [(g.sendSeq, s.ns, 0, [1, ring, rgIdx (tget 0 s.ringCfg ring), 0, step + 1, 0, g.sendSeq, off, 1,
          g.sig, f32.arith ⟨0, false⟩ 0 (FVal.add 0 (f32.decode v) (f32.decode (nth 0 g.terms off)))])] ∧ t.mem = s.mem)) ∧
  (∀ (s : State) (ring : Nat),
    ∃ t, Answers .gleanerResend [ring] s t ∧ t.mem = s.mem ∧
      (t.glean ring).unacked = (s.glean ring).unacked.map fun u =>
        if u.2.1 + 50000 ≤ s.ns ∧ u.2.2.1 < 16 then (u.1, s.ns, u.2.2.1 + 1, u.2.2.2) else u) ∧
  (∀ (s : State) (ring : Nat), ∃ t, Answers .gleanerRingFailure [ring, 1] s t ∧ (t.glean ring).copy = 0 ∧ (t.glean ring).unacked = [] ∧
    (s.migQ = [] → s.migWait = [] → t.mem = s.mem))

/-! ### Events of the scheduler and of memory -/

/-- R218, R226, R312, R315, R358 to R371: arrivals, which the end of their cycle posts in ascending SRC order, aging,
zeroed squares, triggers, replays, and the supervisor's writes. The model's own choices in it: log entries 2, 22, 36 (a
write to a word of the MBS's own keeps its bits and ends its damage), 37 (bits 11:0 of RBASE). -/
def Obligations.SchedulerEventsTakeEffect : Prop :=
  (∀ (s : State) (st tag kind slot from_ : Nat),
    ∃ t, Answers .arrivalPost [st, tag, kind, slot, from_] s t ∧ t.mem = s.mem ∧ t.held = s.held ∧ t.aq = s.aq ∧
      t.inbox = s.inbox ++ [⟨st % 64, arrival tag kind slot from_, none, false⟩]) ∧
  (∀ (s : State) (st tag kind slot from_ : Nat), st < 64 → s.inbox = [⟨st, arrival tag kind slot from_, none, false⟩] →
    let u := s.postInbox
    u.inbox = [] ∧
    (s.held = [] → s.postable st (arrival tag kind slot from_) = true →
      u.arq st (kind % 4) = ((s.arq st (kind % 4)).1, (s.arq st (kind % 4)).2 + 1) ∧ u.held = [] ∧ u.deciding = true) ∧
    (s.held = [] → s.postable st (arrival tag kind slot from_) = false →
      u.held = [⟨st, arrival tag kind slot from_, none, true⟩] ∧ u.aq = s.aq)) ∧
  (∀ (s : State) (h g : Held), s.held ++ s.inbox = [h, g] →
    let u : State := { s with inbox := [], held := [] }
    (arSrc g.record < arSrc h.record → s.postInbox = (u.post g).post h) ∧ (arSrc h.record ≤ arSrc g.record → s.postInbox = (u.post h).post g)) ∧
  (∀ (s : State) (t : Nat) (h : Held), s.clk < t → s.replay = none → s.held = [] → s.inbox = [h] → s.heatDue = false → s.clusters = [] →
    (s.timeTo t).inbox = [] ∧ (s.timeTo t).clk = t ∧ (s.timeTo t).held = [{ h with counted := true }]) ∧
  (∀ (s : State) (st k : Nat),
    (256 ≤ stPass (s.stageEntry st) k → (s.arq st k).2 ≠ 0 →
      Answers .arrivalQueueAging [st, k] s { given s [st, k] with deciding := true }) ∧
    (stPass (s.stageEntry st) k < 256 ∨ (s.arq st k).2 = 0 → Answers .arrivalQueueAging [st, k] s (given s [st, k]))) ∧
  (∀ (s : State) (cl base cnt : Nat) (r : List (Nat × Nat)), (s.cluster cl).zeroing = (base, cnt) :: r →
    ∃ t, Answers .squareZeroingComplete [cl] s t ∧
      t = (((given s [cl]).zeroSquares cl base cnt).modCluster cl fun c => { c with zeroing := r }).launchWaiting cl ∧
      (∀ k a, k < 4 → padBase (4 * cl + k) + 16384 * base ≤ a → a < padBase (4 * cl + k) + 16384 * (base + cnt) →
        byteAt ((given s [cl]).zeroSquares cl base cnt) a = 0)) ∧
  (∀ (s : State) (v : Nat), 2 ^ 44 ≤ v ∨ v / 16 % 16 ≠ 0 →
    ∃ t, Answers .trig [v] s t ∧ t.tflags.testBit 7 = true ∧ t.replay = s.replay ∧ t.triggers = s.triggers ∧ t.mem = s.mem) ∧
  (∀ (s : State) (g l : Nat), g < 16 → l < 2 ^ 36 →
    let r := (given s [g + 256 * l]).trigger g (if l = 0 then none else some ((given s [g + 256 * l]).patchAt (256 * l)))
    Answers .trig [g + 256 * l] s r.2 ∧ (2 ≤ s.triggers.length → r.1 = 2 ∧ r.2.tflags.testBit 8 = true ∧ r.2.triggers = s.triggers) ∧
      (r.1 = 1 → s.padPoison = [] → ∃ q, r.2.triggers = s.triggers ++ [q] ∧ q.graph = g ∧ q.number = (s.replayNo + 1) % 2 ^ 32 ∧ r.2.replay = s.replay)) ∧
  (∀ (s : State) (r : Replay) (l : List Replay), s.replay = none → s.triggers = r :: l →
    let u := State.startReplay { given s [] with triggers := l } r
    Answers .replayStart [] s u ∧ u.triggers = l ∧ ∃ q, u.replay = some q ∧ q.number = r.number ∧ q.graph = r.graph ∧ q.tstart = s.ns) ∧
  (∀ (s : State) (o v : Nat), o < 0x800000 → o % 8 = 0 →
    (s.schedRefuses o = true → ∃ t, Answers .schedulerMemoryWrite [o, v] s t ∧ t.tflags.testBit 6 = true ∧ t.mem = s.mem) ∧
    (s.schedRefuses o = false → 0x100000 ≤ o → o < 0x300000 → v < 2 ^ 64 → MemoryCanonical s →
      ∃ t, Answers .schedulerMemoryWrite [o, v] s t ∧ t.sm o 8 = v ∧ SameBytesBut (schedBase + o) 8 s t) ∧
    (s.schedRefuses o = false → schedMask o = 0 → MemoryCanonical s →
      ∃ t, Answers .schedulerMemoryWrite [o, v] s t ∧ (∀ a, byteAt t a = byteAt s a) ∧ t.damaged = s.damaged.filter (· != schedBase + o))) ∧
  (∀ (s : State) (cl v : Nat), s.clusterIdle cl = true →
    (∃ t, Answers .ringBlockWrite [cl, 0, v] s t ∧ (t.cluster cl).rbase = v / 2 ^ 12 % 2 ^ 32 * 2 ^ 12 ∧ t.mem = s.mem) ∧
    (v % 32 ≤ 16 → ∃ t, Answers .ringBlockWrite [cl, 8, v] s t ∧ (t.cluster cl).rsize = v % 32 ∧ t.mem = s.mem))

/-- R211, R216, R222 to R225, R230, R231, R412, R413, R432 to R436, R443: what the memories do by themselves. The model's
own choices in it: log entries 2, 15, 16, 23, 36 (a table in poison has no entry). -/
def Obligations.MemoryEventsTakeEffect : Prop :=
  (∀ (s : State) (a : Nat), isHbm a = true →
    (s.retired.contains (a / 65536) = true → Answers .patrolScrub [a, 2] s (given s [a, 2])) ∧
    (s.retired.contains (a / 65536) = false → thas s.l2 (a / 128) = false →
      ∃ t, Answers .patrolScrub [a, 2] s t ∧ t.poison.contains (a / 64) = true ∧ t.mem = s.mem ∧
        tget 0 t.errCnt (2 * memoryUnit a + 1) = tget 0 s.errCnt (2 * memoryUnit a + 1) + 1 ∧
        t.mhead = s.mhead + 1 ∧ tget (0, 0) t.mchk (s.mhead % 64) = (a % 2 ^ 44 + 4 * 2 ^ 48, s.ns) ∧
        (s.retired.length < 16384 → t.retired = s.retired ++ [a / 65536] ∧ t.retCnt = s.retired.length + 1) ∧
        (16384 ≤ s.retired.length → t.retired = s.retired))) ∧
  (∀ (s : State) (a : Nat), let k := s.core (padCore a)
    isPad a = true → ∃ t, Answers .patrolScrub [a, 1] s t ∧ t.mem = s.mem ∧ t.padPoison = s.padPoison ∧
      (k.counterNew = [] → tget 0 (t.core (padCore a)).counters 0x040 = tget 0 k.counters 0x040 + 1)) ∧
  (∀ (s : State) (a : Nat), s.cellarLines.contains (a / 64) = true → tget 0 s.versions (a / 65536) % 2 = 0 →
    ∃ t, Answers .cellarPersist [a] s t ∧ t.cellarLines.contains (a / 64) = false ∧
      tget 0 t.versions (a / 65536) = (tget 0 s.versions (a / 65536) + 1) % 2 ^ 32 ∧ t.journal = s.journal ++ [a / 65536] ∧ t.mem = s.mem) ∧
  (∀ (s : State) (a : Nat), thas s.l2 (a / 128) = true → ∃ t, Answers .l2Eviction [a, 0] s t ∧ thas t.l2 (a / 128) = false ∧ t.mem = s.mem) ∧
  (∀ (s : State) (p : Nat) (x : Cxl), tget .absent s.cxl p = x → x.size ≠ 0 → x.down = false →
    ∃ t, Answers .cxlPortDown [p] s t ∧ tget .absent t.cxl p = { x with down := true } ∧ t.intStat.testBit 4 = true ∧ t.mem = s.mem) ∧
  (∀ (s : State) (g : Nat), 65536 * g < hbmTop → s.retired.contains g = false →
    (s.retired.length < 16384 → ∃ t, Answers .granuleRetire [g, 0] s t ∧ t.retired = s.retired ++ [g] ∧ t.retCnt = t.retired.length ∧
      t.mhead = s.mhead + 1 ∧ tget (0, 0) t.mchk (s.mhead % 64) = (65536 * g % 2 ^ 44 + 4 * 2 ^ 48, s.ns) ∧ t.mem = s.mem ∧ ∃ f, f ∈ t.flash ∧ f.good = true ∧ f.entries = t.retired.map retiredEntry ∧ ∀ o, o ∈ s.flash → o.seq < f.seq) ∧
    (16384 ≤ s.retired.length → Answers .granuleRetire [g, 0] s (given s [g, 0]))) ∧
  (∀ (s : State) (sp va e lvl m : Nat), sp < 16 → s.walk sp va = some (e, lvl, m) →
    let pa := leafPa e lvl va
    isHbm pa = true → heatEn s.heatCtl.toNat = true → heatShift s.heatCtl.toNat = 0 →
    ∃ t, Answers .memoryControllerAccess [sp, va] s t ∧ t.mem = s.mem ∧
      (bit e 7 = true → tget 0 t.heat (pa / 65536) = min 255 (tget 0 s.heat (pa / 65536) + 1)) ∧ (bit e 7 = false → t.heat = s.heat)) ∧
  (∀ (s : State),
    (heatEn s.heatCtl.toNat = true → s.decayAt ≤ s.ns → Answers .heatDecay [] s { given s [] with heatDue := true }) ∧
    (heatEn s.heatCtl.toNat = false ∨ s.ns < s.decayAt → Answers .heatDecay [] s (given s [])) ∧
    (∀ t, s.clk < t → s.heatDue = true → s.owesMbs = false → (∀ p, p ∈ s.clusters → p.2.pushes = []) →
      s.timeTo t = (s.heatHalve.passTo (s.clk + 1)).timeTo t) ∧
    ((s.heat.map (·.1)).Nodup → (∀ g, tget 0 s.heatHalve.heat g = tget 0 s.heat g / 2) ∧ s.heatHalve.heatDue = false ∧
      s.heatHalve.decayAt = s.decayAt + 1000 * 2 ^ heatDecay s.heatCtl.toNat ∧ s.heatHalve.mem = s.mem)) ∧
  (∀ (s : State) (sp va all : Nat), ∃ t, Answers .tlbInvalidate [sp, va, all] s t ∧ t.invals = s.invals ++ [(sp % 16, va, all == 1)] ∧ t.mem = s.mem) ∧
  (∀ (s : State) (sp va : Nat) (r : List (Nat × Nat × Bool)), s.invals = (sp, va, true) :: r →
    ∃ t, Answers .invalidationComplete [] s t ∧ (∀ c e, e ∈ (t.core c).tlb → e.space ≠ sp) ∧ t.mem = s.mem ∧
      (s.holdsTranslation true (fun a _ _ => a == sp) = false → t.invals = r)) ∧
  (∀ (s : State) (a : Nat), s.migWait = [] →
    (∀ leaf dst e, s.tableAt a 8 = some leaf → s.tableAt (a + 8) 8 = some dst → s.tableAt leaf 8 = some e →
      s.moves = [] → s.migQ = [] → s.moveGood e dst = true → s.globalFree = true →
      ∃ t, Answers .migcmd [a] s t ∧ t.moves = [⟨a, leaf, wd e, dst, 2 ^ pageLog (bits e 44 2), false⟩] ∧ t.mem = s.mem) ∧
    (s.moves ≠ [] → ∃ t, Answers .migcmd [a] s t ∧ t.moves = s.moves ∧ t.mem = s.mem ∧
      (s.migQ.length < 256 → t.migQ = s.migQ ++ [(a, 0, 2)] ∧ t.migWait = []) ∧
      (256 ≤ s.migQ.length → t.migQ = s.migQ ∧ t.migWait = [a]))) ∧
  (∀ (s : State) (g h tier : Nat), let r := s.migRing.toNat
    let pa := bits r 20 24 * 2 ^ 20 + 16 * bits r 0 16
    s.migQ = [(g, h, tier)] → s.migWait = [] → tier < 2 → MemoryCanonical s → (isGlobal pa = true → keyHeld s 0 pa 16 = true) →
    ∃ t, Answers .migrationReport [] s t ∧ t.migQ = [] ∧ memRead t.mem pa 6 = g % 2 ^ 32 + h % 2 ^ 8 * 2 ^ 32 + tier * 2 ^ 40 ∧
      SameBytesBut pa 16 s t ∧ bits t.migRing.toNat 0 16 = (bits r 0 16 + 1) % 2 ^ (min (bits r 16 4) 8 + 8) ∧ t.intStat.testBit 1 = true) ∧
  (∀ (s : State) (m : Move) (r : List Move), let e := m.old.toNat
    let from_ := bits e 16 28 * 65536
    let key := bits e 8 8
    let used (reads : Bool) : Bool := s.holdsTranslation reads fun _ _ pa => decide (from_ ≤ pa ∧ pa < from_ + m.size)
    s.moves = m :: r → s.migQ.length ≤ 1 → s.migWait = [] →
    MemoryCanonical s → (isGlobal (m.cmd + 16) = true → keyHeld s 0 (m.cmd + 16) 4 = true) →
    (m.switched = true → used true = false →
      ∃ t, Answers .migrationMoveComplete [] s t ∧ t.moves = [] ∧ memRead t.mem (m.cmd + 16) 4 = 0 ∧
        SameBytesBut (m.cmd + 16) 4 s t ∧ t.intStat.testBit 1 = true) ∧
    (m.switched = false → used false = false → s.tableAt m.leaf 8 ≠ some e →
      ∃ t, Answers .migrationMoveComplete [] s t ∧ t.moves = [] ∧ memRead t.mem (m.cmd + 16) 4 = 2 ∧
        SameBytesBut (m.cmd + 16) 4 s t ∧ t.intStat.testBit 1 = true) ∧
    (m.switched = false → used false = false → s.tableAt m.leaf 8 = some e →
      (isGlobal m.leaf = true → keyHeld s 0 m.leaf 8 = true) → isGlobal from_ = true → isGlobal m.dst = true →
      keyHeld s key from_ m.size = true → keyHeld s key m.dst m.size = true → (∀ i, i < m.size → s.poisonedAt (from_ + i) 1 = false) →
      apart m.dst m.size m.leaf 8 = true → apart m.dst m.size (m.cmd + 16) 4 = true → apart m.leaf 8 (m.cmd + 16) 4 = true →
      ∃ t, Answers .migrationMoveComplete [] s t ∧
        (used true = false → t.moves = [] ∧ memRead t.mem (m.cmd + 16) 4 = 0 ∧ t.intStat.testBit 1 = true) ∧
        (used true = true → t.moves = [{ m with switched := true }]) ∧
        memRead t.mem m.leaf 8 = setBits e 16 28 (m.dst / 65536) % 2 ^ 64 ∧
        ∀ i, i < m.size → byteAt t (m.dst + i) = byteAt s (from_ + i))) ∧
  (∀ (s : State) (c l : Nat), l < 4 → (s.cluster (c / 4)).crews.any (fun p => p.2.live) = false → (s.cluster (c / 4)).waiting = [] →
    ∃ t, Answers .splitChange [c, l] s t ∧ (t.core c).split = l ∧ (t.core c).l1 = [] ∧
      (MemoryCanonical s → ∀ a, (padBase c ≤ a → a < padBase (c + 1) → byteAt t a = 0) ∧
        (a < padBase c ∨ padBase (c + 1) ≤ a → byteAt t a = byteAt s a)))

/-! ### Events of links, of the device and of the host -/

/-- R444 to R448: the ports' states. The model's own choices in it: log entries 2, 24. -/
def Obligations.LinkEventsTakeEffect : Prop :=
  ∀ (s : State) (p : Nat),
    let l := s.link p
    (∀ ack, l.st = 2 → ∃ t, Answers .flitReceive [p, 1, ack, 0] s t ∧ (t.link p).flits = ackFlits l.flits (min ack l.unacked) ∧
      t.packets = s.packets ∧ t.mem = s.mem) ∧
    (∀ n, l.st = 2 → n ≤ l.flits.length → (∀ f, f ∈ l.flits → 0 < f.2) →
      ∃ t, Answers .flitReceive [p, 1, ((l.flits.take n).map (·.2)).sum, 0] s t ∧ (t.link p).flits = l.flits.drop n ∧ t.mem = s.mem) ∧
    (l.st = 2 → 0 < l.unacked → ∃ t, Answers .flitReceive [p, 1, 0, 1] s t ∧ (t.link p).flits = ackFlits l.flits 0 ∧
      (t.link p).resends = l.resends + 1 ∧ t.packets = s.packets ∧ t.mem = s.mem) ∧
    (∀ x ops, l.st = 2 → ∃ t, Answers .flitReceive (p :: 1 :: 0 :: 0 :: x :: ops) s t ∧ t.mem = s.mem ∧
      t.packets = tset s.packets s.nextId { packetOf (x :: ops) with born := s.ns } ∧ t.nextId = s.nextId + 1) ∧
    (∀ ack nak, Answers .flitReceive [p, 0, ack, nak] s (given s [p, 0, ack, nak])) ∧
    (l.st = 2 → 8 ≤ l.resends → ∃ t, Answers .linkRetrain [p] s t ∧ (t.link p).st = 1 ∧ (t.link p).flits = l.flits) ∧
    (l.st = 2 → l.flits = [] → ∃ t, Answers .linkDown [p] s t ∧ (t.link p).st = 0 ∧ t.mem = s.mem) ∧
    (∀ lo peer port, l.st = 0 → ∃ t, Answers .linkStateFrame [p, lo, crc32c (toBytes 4 lo), peer, port] s t ∧ (t.link p).st = 1 ∧
      (t.link p).theirs = some (lo % 2 ^ 32) ∧ (t.link p).peer = peer % 32768 ∧ t.mem = s.mem) ∧
    (∀ lo hash peer port, l.st = 1 → crc32c (toBytes 4 lo) ≠ hash → ∃ t, Answers .linkStateFrame [p, lo, hash, peer, port] s t ∧
      (t.link p).st = 1 ∧ (t.link p).theirs = none ∧ (t.link p).peer = l.peer ∧ t.mem = s.mem) ∧
    (∀ v lanes, l.st = 1 → l.mine = some v → l.theirs = some (v.1 + v.2.1 * 2 ^ 8 + v.2.2 * 2 ^ 16) →
      ∃ t, Answers .linkTrainingAttempt [p, lanes] s t ∧ (t.link p).st = 2 ∧ (t.link p).width = v.1 ∧ (t.link p).lmap = v.2.1 ∧
        (t.link p).speed = v.2.2 ∧ (t.link p).fails = 0) ∧
    (∀ v u lanes, l.st = 1 → l.mine = some v → l.theirs = some u → v.1 + v.2.1 * 2 ^ 8 + v.2.2 * 2 ^ 16 ≠ u → l.flits = [] →
      ∃ t, Answers .linkTrainingAttempt [p, lanes] s t ∧ (t.link p).st = 3 ∧ (t.link p).fails = min 3 (l.fails + 1) ∧
        (t.link p).retryAt = s.ns + 100000000) ∧
    (l.st = 3 → l.fails < 3 → l.retryAt ≤ s.ns → ∃ t, Answers .linkRetryTimer [p] s t ∧ (t.link p).st = 1 ∧ (t.link p).theirs = none) ∧
    (l.st = 3 → 3 ≤ l.fails → ∃ t, Answers .linkQuarantine [p] s t ∧ (t.link p).st = 4) ∧
    (l.st = 4 → ∃ t, Answers .clrq [p] s t ∧ (t.link p).st = 1 ∧ (t.link p).fails = 0) ∧
    (∀ up, p < 2 → tget false s.eth p ≠ (up == 1) →
      ∃ t, Answers .ethernetPortStateChange [p, up] s t ∧ tget false t.eth p = (up == 1) ∧ t.intStat.testBit 4 = true)

/-- R89, R102, R208, R212, R226, R292, R412, R442, R451 to R455: resets, what a containment takes and leaves, power,
bring-up, clock and temperature. The model's own choices in it: log entries 2, 6 (which image is good), 8, 16, 17, 34, 35. -/
def Obligations.DeviceEventsTakeEffect : Prop :=
  (∀ (s : State), s.powered = true →
    ∃ t, Answers .deviceReset [] s t ∧ t.cores = [] ∧ t.clusters = [] ∧ t.copies = [] ∧ t.replay = none ∧ t.triggers = [] ∧
      t.rpt = s.rpt ∧ t.versions = s.versions ∧ t.padPoison = [] ∧ t.mhz = 1600 ∧ t.throttle = 0 ∧ t.temp = 0 ∧ t.dieHeld = s.dieHeld ∧
      t.flash = s.flash ∧ t.retired = s.newestFlash) ∧
  (∀ (s : State), s.powered = false → Answers .deviceReset [] s (given s [])) ∧
  (∀ (s : State) (d : Nat), d < 4 →
    let u := (given s [d]).contain d
    Answers .containmentEvent [d] s (u.resumeDie d) ∧
    (∀ c, c < 96 → c / 24 = d → (u.core c).ctxs = [] ∧ (u.core c).split = (s.core c).split ∧ (u.core c).pcsel = (s.core c).pcsel) ∧
    (s.victims d = [] → (∀ q, q ∈ u.copies → onDie d q.2.core = false) ∧
      (∀ q, q ∈ s.copies → q.2.core < 96 → onDie d q.2.core = false → q ∈ u.copies) ∧
      u.replay = s.replay.map (fun r => { r with cut := true }) ∧ u.triggers = s.triggers ∧ u.clk = s.clk ∧
      (∀ c, 96 ≤ c ∨ c / 24 ≠ d → (u.core c).ctxs = (s.core c).ctxs ∧ (u.core c).banks = (s.core c).banks) ∧
      (s.l2 = [] → MemoryCanonical s → ∀ a, byteAt u a = if padBase (24 * d) ≤ a ∧ a < padBase (24 * d + 24) then 0 else byteAt s a))) ∧
  (∀ (s : State) (v step : Nat), let s0 := given s [v, step]
    (s.stage < 4 → Answers .replayFromSeal [v, step] s s0) ∧
    (4 ≤ s.stage → s.newestPoint = none → Answers .replayFromSeal [v, step] s { s0 with recovery := none }) ∧
    (∀ n, 4 ≤ s.stage → s.newestPoint = some n →
      let from_ := tget 0 s.rpt n % 2 ^ 32
      let s1 : State := { s0 with recovery := some (n, from_) }
      (step ≠ from_ → Answers .replayFromSeal [v, step] s s1) ∧
      (step = from_ → (s.replay.filter (·.cut)) = none → v < 2 ^ 44 → v / 16 % 16 = 0 →
        Answers .replayFromSeal [v, step] s (s1.trigger (v % 16) (s1.patchList v)).2) ∧
      (step = from_ → (s.replay.filter (·.cut)) = none → 2 ^ 44 ≤ v ∨ v / 16 % 16 ≠ 0 →
        ∃ t, Answers .replayFromSeal [v, step] s t ∧ t.recovery = some (n, from_) ∧ t.tflags.testBit 7 = true ∧ t.mem = s.mem) ∧
      (∀ r, step = from_ → s.replay = some r → r.cut = true → v < 2 ^ 44 → v / 16 % 16 = 0 →
        let u := s1.abandon r
        (∀ q w, u.newReplay (v % 16) (u.patchList v) = some (q, w) → Answers .replayFromSeal [v, step] s (w.startReplay q)) ∧
        (u.newReplay (v % 16) (u.patchList v) = none →
          ∃ t, Answers .replayFromSeal [v, step] s t ∧ t.replay = none ∧ t.tflags.testBit 7 = true)))) ∧
  (∀ (s : State) (n lo hi v : Nat), n < 4 → lo < 2 ^ 64 → hi < 2 ^ 56 → v < 2 →
    ∃ t, Answers .rptFirmwareWrite [n, lo, hi + v * 2 ^ 63] s t ∧ tget 0 t.rpt n = lo + hi * 2 ^ 64 + v * 2 ^ 127 ∧ ∀ m, m ≠ n → tget 0 t.rpt m = tget 0 s.rpt m) ∧
  (∀ (s : State) (d : Nat), d < 2 → MemoryCanonical s → ∃ t, Answers .ioDieReset [d] s t ∧ t.replay = none ∧ t.triggers = [] ∧ t.held = [] ∧
    ∀ a, byteAt t a = if isSched a then 0 else byteAt s a) ∧
  (∀ (s : State), ∃ t, Answers .powerLoss [0] s t ∧ t.powered = false ∧ t.stage = 0 ∧ t.cores = [] ∧ t.rpt = s.rpt ∧
    t.versions = s.versions ∧ t.flash = s.flash) ∧
  (∀ (s : State),
    (s.powered = false → ∃ t, Answers .powerOn [] s t ∧ t.powered = true ∧ t.mhz = 800 ∧ t.hbmTrained = 0 ∧ t.keyValid = [] ∧
      t.retired = [] ∧ t.rpt = s.rpt ∧ t.stage = if s.imageGood s.fwFlash.1 s.fwFlash.2 then 1 else 0) ∧
    (s.powered = true → s.stage = 1 → ∃ t, Answers .powerOn [] s t ∧ t.stage = 2 ∧ t.keyValid = s.keyValid ∧ t.mem = s.mem) ∧
    (s.powered = true → s.stage = 2 → ∃ t, Answers .powerOn [] s t ∧ t.stage = 3 ∧ t.keyValid = [0] ∧ t.retired = s.newestFlash ∧
      t.retCnt = s.newestFlash.length ∧ t.mem = s.mem) ∧
    (s.powered = true → s.stage ≠ 1 → s.stage ≠ 2 → Answers .powerOn [] s (given s []))) ∧
  (∀ (s : State) (k : Nat) (ops : List Nat), s.stage = 3 → k = s.hbmTrained →
    (k < 7 → ∃ t, Answers .hbmStackTrained (k :: ops) s t ∧ t.hbmTrained = k + 1 ∧ t.stage = 3 ∧ t.capGen = s.capGen + 1) ∧
    (∀ a p b q c r, k = 7 → ops = [2, a, p, b, q, c, r] →
      let near : List Expander := [⟨min a (2 ^ 42), p % 2 == 1, p / 2 % 2 == 1⟩, ⟨min b (2 ^ 42 - a), q % 2 == 1, q / 2 % 2 == 1⟩]
      ∃ t, Answers .hbmStackTrained (k :: ops) s t ∧ t.hbmTrained = 8 ∧ t.stage = 4 ∧ tget .absent t.cxl 0 = ⟨near, false⟩ ∧
        tget .absent t.cxl 1 = ⟨[⟨min c (2 ^ 42 - (min a (2 ^ 42) + min b (2 ^ 42 - a))), r % 2 == 1, r / 2 % 2 == 1⟩], false⟩)) ∧
  (∀ (s : State), s.stage = 4 → ∃ t, Answers .reducedServiceEnd [] s t ∧ t.stage = 5 ∧ t.mhz = 1600 - 100 * s.throttle ∧ t.mem = s.mem) ∧
  (∀ (s : State) (temp power : Nat), let s0 := (given s [temp, power]).feel temp
    (105 < temp ∨ s.powerCap < power → s.throttle < 8 → 800 < s.mhz →
      ∃ t, Answers .throttleDown [temp, power] s t ∧ t.mhz = s.mhz - 100 ∧ t.throttle = s.throttle + 1 ∧ t.temp = temp % 2 ^ 16 ∧ t.dieHeld = s0.dieHeld ∧ t.mem = s0.mem) ∧
    (¬((105 < temp ∨ s.powerCap < power) ∧ s.throttle < 8 ∧ 800 < s.mhz) → Answers .throttleDown [temp, power] s s0) ∧
    (20 * temp ≤ 19 * 105 → 20 * power ≤ 19 * s.powerCap → 0 < s.throttle → s.stage = 5 → s.stepAt ≤ s.ns →
      ∃ t, Answers .throttleStepUp [temp, power] s t ∧ t.mhz = s.mhz + 100 ∧ t.throttle + 1 = s.throttle ∧ t.temp = temp % 2 ^ 16 ∧
        t.stepAt = s.ns + 1000000 ∧ t.dieHeld = s0.dieHeld ∧ t.mem = s0.mem) ∧
    (¬(20 * temp ≤ 19 * 105 ∧ 20 * power ≤ 19 * s.powerCap ∧ 0 < s.throttle ∧ s.stage = 5 ∧ s.stepAt ≤ s.ns) →
      Answers .throttleStepUp [temp, power] s s0)) ∧
  (∀ (s : State) (temp : Nat), let s0 : State := { s with temp := temp % 2 ^ 16 }
    (Answers .thermalContainment [temp] s ((given s [temp]).feel temp) ∧ Answers .thermalRelease [temp] s ((given s [temp]).feel temp)) ∧
    (115 < temp → s.feel temp = (List.range 4).foldl State.contain { s0 with dieHeld := [0, 1, 2, 3] }) ∧
    (temp < 95 → s.dieHeld ≠ [] → s.feel temp = (List.range 4).foldl State.resumeDie { s0 with dieHeld := [] }) ∧
    (temp ≤ 115 → 95 ≤ temp ∨ s.dieHeld = [] → s.feel temp = s0))

/-- R396, R405, R438 to R440, R453, R454: firmware, the host's aperture, interrupts, the register window. The model's
own choices in it: log entries 2, 6, 25. -/
def Obligations.FirmwareAndHostEventsTakeEffect : Prop :=
  (∀ (s : State), let good := Config.signatureGood s.mailbox
    (s.mailAsked = false ∨ Config.mailKind s.mailbox ≠ 1 → Answers .keyLoad [] s (given s [])) ∧
    (s.mailAsked = true → Config.mailKind s.mailbox = 1 →
      ∃ t, Answers .keyLoad [] s t ∧ t.intStat.testBit 5 = true ∧ t.mailAsked = false ∧ t.mem = s.mem ∧
        let k := Config.mailEntry s.mailbox % 256
        if good then t.keyMb = s.mailbox % 2 ^ 1024 ∧ t.keyValid.contains k = true ∧ tget 0 t.keyHeld k = Config.mailKeys s.mailbox % 2 ^ 512 ∧
          (∀ n, n ≠ k → t.keyValid.contains n = s.keyValid.contains n ∧ tget 0 t.keyHeld n = tget 0 s.keyHeld n)
        else t.keyMb = s.keyMb ∧ t.keyValid = s.keyValid ∧ t.keyHeld = s.keyHeld) ∧
    (s.mailAsked = false ∨ Config.mailKind s.mailbox ≠ 2 → Answers .attestation [] s (given s [])) ∧
    (s.mailAsked = true → Config.mailKind s.mailbox = 2 →
      ∃ t, Answers .attestation [] s t ∧ t.intStat.testBit 5 = true ∧ t.mailAsked = false ∧ t.mem = s.mem ∧
        (good = true → ∃ sig, let reply := s.attestation (Config.mailNonce s.mailbox)
          t.mailbox % 2 ^ 512 = Config.mailNonce s.mailbox % 2 ^ 512 ∧
          t.mailbox = (ofBytes reply + 2 ^ (8 * reply.length) * sig) % 2 ^ 32768))) ∧
  (∀ (s : State) (v : Nat) (i : List Nat),
    (s.imageGood v i = true → ∃ t, Answers .firmwareUpdate (v :: i) s t ∧ t.fwVersion = v ∧ t.fwImage = i ∧ t.fwFlash = (v, i) ∧ t.mem = s.mem) ∧
    (s.imageGood v i = false → Answers .firmwareUpdate (v :: i) s (given s (v :: i))) ∧
    (s.imageGood v i = true ↔ sha512 (Config.publicKeyOf (ofBytes i)) = Config.rootKeyHash ∧ Config.signatureGood (ofBytes i) = true ∧
      s.fwRollback ≤ v)) ∧
  (∀ (s : State) (k : Nat),
    (bit s.msixPending k = true → s.sendVector k = s) ∧
    (bit s.msixPending k = false → bit (tget msixMasked s.msixTable k) 96 = true → (s.sendVector k).msix = s.msix ∧
      bit (s.sendVector k).msixPending k = true) ∧
    (bit s.msixPending k = false → bit (tget msixMasked s.msixTable k) 96 = false → (s.sendVector k).msix = s.msix ++ [k] ∧
      (s.sendVector k).msixPending = s.msixPending)) ∧
  (∀ (s : State) (b n : Nat), 0 < n → b + n ≤ 2 ^ 36 →
    let pa := s.apBase.toNat + b
    (s.hostReaches pa n = true → ∃ t, Answers .hostApertureRead [b, n] s t ∧ t.hostData = s.readPa 0 pa n ∧ t.hostErr = s.hostErr ∧ t.mem = s.mem) ∧
    (s.hostReaches pa n = false → ∃ t, Answers .hostApertureRead [b, n] s t ∧ t.hostData = 2 ^ (8 * n) - 1 ∧ t.hostErr = s.hostErr + 1 ∧ t.mem = s.mem)) ∧
  (∀ (s : State) (b n v : Nat), 0 < n → b + n ≤ 2 ^ 36 →
    let pa := s.apBase.toNat + b
    (s.hostReaches pa n = true → s.moves = [] → MemoryCanonical s → keyHeld s 0 pa n = true →
      ∃ t, Answers .hostApertureWrite [b, n, v] s t ∧ memRead t.mem pa n = v % 2 ^ (8 * n) ∧ SameBytesBut pa n s t) ∧
    (s.hostReaches pa n = false → ∃ t, Answers .hostApertureWrite [b, n, v] s t ∧ t.hostErr = s.hostErr + 1 ∧ t.mem = s.mem)) ∧
  (∀ (s : State) (k : Nat), k < 6 → s.intStat < 64 → s.intAgain = 0 →
    ∃ t, Answers .intstatClear [2 ^ k] s t ∧ ∀ i, i < 6 → t.intStat.testBit i = (s.intStat.testBit i && i != k)) ∧
  (∀ (s : State) (v : Nat),
    (∃ t, Answers .registerWindowWrite [0x280018, v] s t ∧ t.apBase.toNat = v % 2 ^ 64 / 2 ^ 36 * 2 ^ 36 ∧ t.mem = s.mem) ∧
    (∃ t, Answers .registerWindowWrite [0x200100, v] s t ∧ t.wtBase.toNat = v / 2 ^ 18 % 2 ^ 26 * 2 ^ 18 ∧ t.mem = s.mem) ∧
    (∀ i, i < 16 → ∃ t, Answers .registerWindowWrite [0x200000 + 16 * i, v] s t ∧
      (tget 0 t.sproot i).toNat = v % 2 ^ 64 / 2 ^ 58 * 2 ^ 58 + v / 2 ^ 12 % 2 ^ 32 * 2 ^ 12 ∧ t.mem = s.mem) ∧
    (600 ≤ v % 2 ^ 12 → v % 2 ^ 12 ≤ 2400 → ∃ t, Answers .registerWindowWrite [0x285000, v] s t ∧ t.powerCap = v % 2 ^ 12))

/-! ### The machine -/

/-- R89, R100, R203, R212, R405: what device reset leaves. The model's own choices in it: log entry 8. -/
def Obligations.ResetLeavesTheRuleValues : Prop :=
  let s := State.reset
  (∀ c j, (s.ctx c j).st = .free ∧ (s.ctx c j).bank = none) ∧
  (∀ c b, let k := (s.core c).bank b
    (∀ n, k.sr n = 0) ∧ (∀ n, k.vr n = 0) ∧ k.mask = [] ∧ k.fmt = 0x00104000#64 ∧ (∀ n, tget 0 k.mg n = 0) ∧
      (∀ n, tget 0 k.cg n = 0) ∧ (∀ n, tget 0 k.qc n = 0) ∧ ∀ n, tget 0 k.cr n = 0) ∧
  (∀ c u i, (s.core c).accRow u i = 0) ∧
  (∀ c k, (s.core c).lfOf k = ⟨[], [], [], 0, false, 0, 0⟩) ∧
  (∀ n, tget 0 s.rpt n = 0) ∧ (∀ c, (s.core c).cyc0 = 0 ∧ s.clk = 0) ∧ s.keyValid = [0] ∧ s.replay = none ∧ s.triggers = []

/-- A step runs the decoded instruction (R57, R60, R73, R84): where the bundle at the program counter holds one word,
in any slot, beside nops, and that word decodes to i in its slot's map, the step is i's meaning on the issuing bundle,
its operands' marks read first, and then the bundle's end. The model's own choices in it: log entries 1, 2, 9. -/
def Obligations.StepRunsTheDecodedInstruction : Prop :=
  ∀ (s : State) (c j k h w : Nat) (i : Instr) (rest : List (Instr × List Nat)), 1 ≤ k → k ≤ 7 →
    let s0 : State := { s with agenda := rest, ev := [c] }
    let ws := (h :: List.replicate 7 0).set k w
    let t0 := max s0.clk (max (s0.ctx c j).nextAt (s0.core c).busyTill)
    let u := (((s0.timeTo t0).landUntil c j t0).modCore c (·.accSettle t0)).seqAdvance c t0
    let v : State := { u with bun := { Bundle.none with core := c, ctx := j, pc := (u.ctx c j).pc, t := t0 } }
    let v' := v.fetchAccess c (u.ctx c j).space (u.ctx c j).pc
    let v1 : State := { v' with bun := { v'.bun with words := ws, mirror := mirrorWrites ws } }
    let is := (slotsOf ws).filterMap fun p => p.2.map fun i => (p.1, i)
    s.agenda = (.bundleIssue, [c]) :: rest → (s0.core c).running = some j → s0.canIssue c = true → (u.ctx c j).wait = .none →
    u.safeNext c j = false → v.fetch c (u.ctx c j).space (u.ctx c j).pc = .words ws → decodeSlot (slotMap k) w = some i →
    bundleBad ws is = none → v1.interlock is = none → v1.cr 0x008 = 0 → v1.me.owed = [] →
    ∃ b, exec i (State.readMarks { v1 with bun := { v1.bun with slot := k }, pending := is.drop k } i) = .next b ∧
      step s = exec .bundleCommit { b with bun := { b.bun with slot := 7 }, pending := [], ev := [b.bun.core] }

/-- R412, R455: every constructor has a next state in every state, and a step faults in just one case, a module
without power and without a power-on to come; nothing is refused. The model's own choices in it: log entry 2. -/
def Obligations.OnlyAModuleWithoutPowerStops : Prop :=
  (∀ (i : Instr) (s : State), ∃ t, exec i s = .next t) ∧
  (∀ s : State,
       (s.powered = false ∧ s.agenda = [] → step s = .fault .noPower) ∧
       (¬(s.powered = false ∧ s.agenda = []) → ∃ t, step s = .next t))

/-- The canonical form of memory is kept by every step from every state that has it (MEMORY; log entry 10). The
model's own choices in it: log entry 10. -/
def Obligations.EveryStepKeepsMemoryCanonical : Prop :=
  ∀ s t : State, MemoryCanonical s → step s = .next t → MemoryCanonical t

/-- Memory is canonical at reset. The model's own choices in it: log entries 8, 10. -/
def Obligations.ResetMemoryIsCanonical : Prop := MemoryCanonical State.reset

/-! ### Encoding -/

/-- R60 to R66: every well-formed slot form has a 32-bit word in its map, and that word decodes to it; a word of 32 bits
that a map decodes is the encoding of what it decodes to, which is well formed: no bit is ignored. -/
def Obligations.EncodingAndDecodingAgree : Prop :=
  (∀ (i : Instr) (sm : SlotMap) (w : Nat), i.wf = true → encode i = some (sm, w) → w < 2 ^ 32 ∧ decodeSlot sm w = some i) ∧
  (∀ (sm : SlotMap) (w : Nat) (i : Instr), w < 2 ^ 32 → decodeSlot sm w = some i → i.wf = true ∧ encode i = some (sm, w))

/-- R60, R61, R107, R113, R115, R123, R131: words of each map, from the encodings that the rules print or give by fields;
words with a reserved major opcode, a reserved function, a field that must be zero, or a value its rule forbids. -/
def Obligations.SampleWordsDecode : Prop :=
  decodeSlot .s 0x2CA00123 = some (.movi 5 0x123) ∧ decodeSlot .s 0x30A54567 = some (.movk 5 5 0x4567) ∧
  decodeSlot .s 0x394207C0 = some (.bextN64 10 2 31 0) ∧ decodeSlot .s 0x04632000 = some (.add 3 3 4) ∧
  decodeSlot .s 0x1CC30000 = some (.ori 6 3 0) ∧ decodeSlot .x 0x10480002 = some (.loopEnter 4 2) ∧
  decodeSlot .x 0x10080000 = some (.loop 4 0) ∧ decodeSlot .v 0x04000000 = some (.vfadd 0 0 0) ∧
  decodeSlot .m 0x04000000 = some (.tmm 0 0 0) ∧ decodeSlot .c 0x04000000 = some (.cpy 0 0 0 0 0) ∧
  decodeSlot .s 0 = some .nopS ∧ decodeSlot .v 0 = some .nopV ∧ decodeSlot .m 0 = some .nopM ∧ decodeSlot .c 0 = some .nopC ∧
  decodeSlot .x 0 = some .nopX ∧
  (∀ w, w < 2 ^ 26 → w ≠ 0 → decodeSlot .s w = none ∧ decodeSlot .v w = none ∧ decodeSlot .m w = none ∧ decodeSlot .c w = none ∧
    decodeSlot .x w = none) ∧
  (∀ w, 63 * 2 ^ 26 ≤ w → w < 2 ^ 32 → decodeSlot .s w = none ∧ decodeSlot .v w = none ∧ decodeSlot .m w = none ∧
    decodeSlot .c w = none ∧ decodeSlot .x w = none) ∧
  decodeSlot .s 0x04632015 = none ∧ decodeSlot .s 0x08000800 = none ∧ decodeSlot .s 0x39420FC1 = none ∧
  decodeSlot .x 0x10480000 = none

end
end

