-- ==== Sys2Proof/Laws/Float.lean ====
section
/-! SUPPORT. One rounding into a format by value (R30 to R34, R47, R48), and exact sums and products (R37, R54). -/

namespace Sys2Proof.Machine

open Sys2Proof.Safety

/-- The formats of R30 and R31. -/
def Fmt.isOne (f : Fmt) : Prop := f ∈ [f64, f32, f16, bf16, e5m2, e4m3]

theorem natCast_shiftLeft_zpow (m : Nat) {e q : Int} (h : q ≤ e) :
    ((m <<< (e - q).toNat : Nat) : ℚ) = m * 2 ^ e / 2 ^ q := by
  have h2 : (2 : ℚ) ^ e = 2 ^ ((e - q).toNat : ℕ) * 2 ^ q := by
    rw [← zpow_natCast, ← zpow_add₀ two_ne_zero]; congr 1; omega
  rw [Nat.shiftLeft_eq, h2]; push_cast
  have : (2 : ℚ) ^ q ≠ 0 := zpow_ne_zero _ two_ne_zero
  field_simp

/-- Dividing by a power of two leaves a whole part and a fraction of its units. -/
theorem div_two_pow_eq (m k : Nat) : (m : ℚ) / 2 ^ k = (m / 2 ^ k : Nat) + (m % 2 ^ k : Nat) / 2 ^ k := by
  have h : (m : ℚ) = (2 ^ k * (m / 2 ^ k) + m % 2 ^ k : Nat) := by rw [Nat.div_add_mod]
  have : (2 : ℚ) ^ k ≠ 0 := by positivity
  push_cast at h ⊢
  field_simp
  linarith

/-- A whole number rounds to itself. -/
theorem roundsInt_natCast (mode r : Nat) (t : Bool) (n : Nat) (hr : r < 2 ^ 16) : RoundsInt mode r t n n := by
  have : (r : ℚ) < 2 ^ 16 := by exact_mod_cast hr
  have h2 : (r : ℚ) / 2 ^ 16 < 1 := by rw [div_lt_one (by positivity)]; exact this
  have h3 : (0 : ℚ) ≤ (r : ℚ) / 2 ^ 16 := by positivity
  unfold RoundsInt
  split <;> (try split) <;> (try constructor) <;> norm_num at * <;> try linarith

/-- roundInt rounds the magnitude m times 2^e in units of 2^q. -/
theorem roundInt_roundsInt (mode r : Nat) (t : Bool) (m : Nat) (e q : Int) (hr : r < 2 ^ 16) :
    RoundsInt mode r t (m * 2 ^ e / 2 ^ q) (roundInt mode r t m e q) := by
  unfold roundInt
  split
  next h => rw [← natCast_shiftLeft_zpow m h]; exact roundsInt_natCast _ _ _ _ hr
  next h =>
    obtain ⟨k, hk⟩ : ∃ k : Nat, q = e + (k + 1) := ⟨(q - e - 1).toNat, by omega⟩
    have hy : (m : ℚ) * 2 ^ e / 2 ^ q = (m : ℚ) / 2 ^ (k + 1) := by
      have : (2 : ℚ) ^ e ≠ 0 := zpow_ne_zero _ two_ne_zero
      rw [hk, zpow_add₀ two_ne_zero, ← Nat.cast_succ, zpow_natCast]
      field_simp
    have hkk : (q - e).toNat = k + 1 := by omega
    rw [hy, hkk]
    have hd := div_two_pow_eq m (k + 1)
    generalize hn : m / 2 ^ (k + 1) = n at hd
    generalize hf : m % 2 ^ (k + 1) = f at hd
    have hlt : f < 2 ^ (k + 1) := hf ▸ Nat.mod_lt _ (by positivity)
    have hP : (0 : ℚ) < 2 ^ (k + 1) := by positivity
    have h0 : (0 : ℚ) ≤ f / 2 ^ (k + 1) := by positivity
    have h1 : (f : ℚ) / 2 ^ (k + 1) < 1 := by rw [div_lt_one hP]; exact_mod_cast hlt
    have hz : f ≠ 0 → (0 : ℚ) < f / 2 ^ (k + 1) := fun h => by positivity
    have hz' : f = 0 → (f : ℚ) / 2 ^ (k + 1) = 0 := fun h => by simp [h]
    have hhalf : ((2 ^ k : Nat) : ℚ) / 2 ^ (k + 1) = 1 / 2 := by push_cast; rw [pow_succ]; field_simp
    have hless : f < 2 ^ k → (f : ℚ) / 2 ^ (k + 1) < 1 / 2 := fun h => by
      rw [← hhalf]; gcongr
    have hmore : 2 ^ k < f → 1 / 2 < (f : ℚ) / 2 ^ (k + 1) := fun h => by
      rw [← hhalf]; gcongr
    have hsame : f = 2 ^ k → (f : ℚ) / 2 ^ (k + 1) = 1 / 2 := fun h => by rw [h]; exact hhalf
    simp only [Nat.shiftRight_eq_div_pow, hn, hf, Nat.add_sub_cancel]
    unfold RoundsInt
    match mode with
    | 0 =>
      simp only [reduceIte]
      split
      next h => have := hless h; rw [hd]; constructor
                · rw [abs_le]; constructor <;> linarith
                · intro h'; rw [abs_of_nonneg (by linarith)] at h'; linarith
      next h =>
        split
        next h' => have := hmore h'; rw [hd]; push_cast; constructor
                   · rw [abs_le]; constructor <;> linarith
                   · intro h'; rw [abs_of_nonpos (by linarith)] at h'; linarith
        next h' =>
          have := hsame (by omega); rw [hd, this]; push_cast
          rcases Nat.mod_two_eq_zero_or_one n with hm | hm <;> rw [hm] <;> push_cast
          · refine ⟨by rw [abs_le]; constructor <;> linarith, fun _ => by omega⟩
          · refine ⟨by rw [abs_le]; constructor <;> linarith, fun _ => by omega⟩
    | 1 => simp only [reduceIte, Nat.reduceEqDiff, one_ne_zero]; constructor <;> linarith
    | 2 =>
      cases t <;> simp only [reduceIte, Nat.reduceEqDiff, Bool.not_false, Bool.not_true, and_true, and_false, if_false,
        Bool.false_eq_true, two_ne_zero, OfNat.ofNat_ne_one, ne_eq, ite_not]
      · by_cases hfz : f = 0
        · have := hz' hfz; simp only [hfz, reduceIte]; constructor <;> linarith
        · have := hz hfz; simp only [hfz, reduceIte]; push_cast; constructor <;> linarith
      · constructor <;> linarith
    | 3 =>
      cases t <;> simp only [reduceIte, Nat.reduceEqDiff, and_true, and_false, if_false,
        Bool.false_eq_true, OfNat.ofNat_ne_zero, OfNat.ofNat_ne_one, ne_eq, ite_not]
      · constructor <;> linarith
      · by_cases hfz : f = 0
        · have := hz' hfz; simp only [hfz, reduceIte]; constructor <;> linarith
        · have := hz hfz; simp only [hfz, reduceIte]; push_cast; constructor <;> linarith
    | j + 4 =>
      simp only [Nat.add_eq_zero_iff, OfNat.ofNat_ne_zero, and_false, reduceIte, Nat.reduceEqDiff]
      have hN : (0 : Nat) < 2 ^ (k + 1 + 16) := by positivity
      have e1 := Nat.div_mul_le_self (m * 2 ^ 16 + r * 2 ^ (k + 1)) (2 ^ (k + 1 + 16))
      have e2 := Nat.lt_div_mul_add (a := m * 2 ^ 16 + r * 2 ^ (k + 1)) hN
      generalize (m * 2 ^ 16 + r * 2 ^ (k + 1)) / 2 ^ (k + 1 + 16) = g at e1 e2
      have hs : (m : ℚ) / 2 ^ (k + 1) + r / 2 ^ 16 = (m * 2 ^ 16 + r * 2 ^ (k + 1) : Nat) / 2 ^ (k + 1 + 16) := by
        push_cast; rw [pow_add 2 (k + 1) 16]; field_simp; norm_num
      show (g : ℚ) ≤ _ ∧ _ < (g : ℚ) + 1
      rw [hs]
      have hQ : (0 : ℚ) < 2 ^ (k + 1 + 16) := by positivity
      constructor
      · rw [le_div_iff₀ hQ]; exact_mod_cast e1
      · rw [div_lt_iff₀ hQ, add_mul, one_mul]; exact_mod_cast e2

/-- The fields of a pattern: its sign, its exponent field and its fraction. -/
theorem Fmt.fields (f : Fmt) (t : Bool) (p : Nat) (hp : p < 2 ^ (f.ew + f.mw)) :
    bit (f.signBit t + p) (f.ew + f.mw) = t ∧ bits (f.signBit t + p) f.mw f.ew = p / 2 ^ f.mw ∧
      bits (f.signBit t + p) 0 f.mw = p % 2 ^ f.mw := by
  have hd : (f.signBit t + p) / 2 ^ f.mw = (if t then 2 ^ f.ew else 0) + p / 2 ^ f.mw := by
    cases t
    · simp [Fmt.signBit]
    · simp only [Fmt.signBit, reduceIte, pow_add]; rw [mul_comm, Nat.mul_add_div (Nat.two_pow_pos _)]
  have hlt : p / 2 ^ f.mw < 2 ^ f.ew := by rw [Nat.div_lt_iff_lt_mul (by positivity), ← pow_add]; exact hp
  refine ⟨?_, ?_, ?_⟩
  · unfold bit
    rw [Nat.shiftRight_eq_div_pow]
    cases t <;> simp only [Fmt.signBit, reduceIte, Bool.false_eq_true, Nat.zero_add]
    · rw [Nat.div_eq_of_lt hp]; rfl
    · rw [Nat.add_div_left _ (by positivity), Nat.div_eq_of_lt hp]; rfl
  · unfold bits
    rw [Nat.shiftRight_eq_div_pow, hd]
    cases t <;> simp [Nat.mod_eq_of_lt hlt]
  · unfold bits
    cases t <;> simp [Fmt.signBit, pow_add, Nat.add_mod]

/-- The pattern of a magnitude below the infinities and NaNs, under a sign. -/
theorem Fmt.decode_finite (f : Fmt) (hf : f.isOne) (t : Bool) (p : Nat) (hp : p ≤ f.maxBits false) :
    f.decode (f.signBit t + p) =
      if p < 2 ^ f.mw then .fin t p (1 - f.bias - f.mw)
      else .fin t (p % 2 ^ f.mw + 2 ^ f.mw) (((p / 2 ^ f.mw : Nat) : Int) - f.bias - f.mw) := by
  have h : p < 2 ^ (f.ew + f.mw) ∧ (f.ieee = true → p / 2 ^ f.mw ≠ 2 ^ f.ew - 1) ∧
      (f.ieee = false → p / 2 ^ f.mw = 2 ^ f.ew - 1 → p % 2 ^ f.mw ≠ 2 ^ f.mw - 1) := by
    simp only [Fmt.isOne, List.mem_cons, List.not_mem_nil, or_false] at hf
    rcases hf with rfl | rfl | rfl | rfl | rfl | rfl <;>
      simp [Fmt.maxBits, Fmt.maxSig, Fmt.signBit, f64, f32, f16, bf16, e5m2, e4m3] at hp ⊢ <;> omega
  obtain ⟨h0, h1, h2⟩ := h
  obtain ⟨e1, e2, e3⟩ := f.fields t p h0
  unfold Fmt.decode
  simp only [e1, e2, e3]
  cases hi : f.ieee <;> simp [hi] at h1 h2 ⊢
  · rw [if_neg (by tauto)]
    split
    next h => rw [Nat.mod_eq_of_lt h]
    next => rfl
  · rw [if_neg h1]
    split
    next h => rw [Nat.mod_eq_of_lt h]
    next => rfl

/-- A magnitude of k units, u places above the least, is encoded by the one pattern that decodes to it. -/
theorem Fmt.decode_units (f : Fmt) (hf : f.isOne) (t : Bool) (u k : Nat) (hk : k ≤ 2 ^ (f.mw + 1)) (hu : u = 0 ∨ 2 ^ f.mw ≤ k)
    (hp : u * 2 ^ f.mw + k ≤ f.maxBits false) :
    ∃ m e, f.decode (f.signBit t + (u * 2 ^ f.mw + k)) = .fin t m e ∧
      (m : ℚ) * 2 ^ e = k * 2 ^ (1 - f.bias - f.mw + u : Int) := by
  rw [f.decode_finite hf t _ hp]
  have hM := Nat.two_pow_pos f.mw
  rw [pow_succ] at hk
  generalize hM' : 2 ^ f.mw = M at *
  split
  next h =>
    have hu0 : u = 0 := by
      rcases hu with h' | h'
      · exact h'
      · omega
    subst hu0
    exact ⟨_, _, rfl, by simp⟩
  next h =>
    refine ⟨_, _, rfl, ?_⟩
    rcases Nat.lt_or_ge k M with h1 | h1
    · rcases hu with rfl | h' <;> omega
    rcases Nat.lt_or_ge k (2 * M) with h2 | h2
    · have e1 : (u * M + k) % M + M = k := by
        rw [Nat.mul_comm, Nat.mul_add_mod, Nat.mod_eq_sub_mod h1, Nat.mod_eq_of_lt (by omega)]; omega
      have e2 : (u * M + k) / M = u + 1 := by
        rw [Nat.mul_comm, Nat.mul_add_div hM, show k / M = 1 from Nat.div_eq_of_lt_le (by omega) (by omega)]
      rw [e1, e2]; push_cast; congr 2; ring
    · have hk2 : k = 2 * M := by omega
      have e1 : (u * M + k) % M + M = M := by rw [hk2, ← Nat.add_mul, Nat.mul_mod_left]; simp
      have e2 : (u * M + k) / M = u + 2 := by rw [hk2, ← Nat.add_mul, Nat.mul_div_cancel _ hM]
      rw [e1, e2, hk2]; push_cast
      rw [show (u : Int) + 2 - f.bias - f.mw = 1 - f.bias - f.mw + u + 1 by ring, zpow_add_one₀ two_ne_zero]; ring

/-- The largest finite pattern, in units u places above the least. -/
theorem Fmt.maxBits_eq (f : Fmt) (hf : f.isOne) :
    ∃ U : Nat, f.maxExp = 1 - f.bias - f.mw + U ∧ f.maxBits false = U * 2 ^ f.mw + f.maxSig ∧ 1 ≤ U ∧
      2 ^ f.mw ≤ f.maxSig ∧ f.maxSig < 2 ^ (f.mw + 1) := by
  simp only [Fmt.isOne, List.mem_cons, List.not_mem_nil, or_false] at hf
  rcases hf with rfl | rfl | rfl | rfl | rfl | rfl
  · exact ⟨2045, by decide, by decide, by decide, by decide, by decide⟩
  · exact ⟨253, by decide, by decide, by decide, by decide, by decide⟩
  · exact ⟨29, by decide, by decide, by decide, by decide, by decide⟩
  · exact ⟨253, by decide, by decide, by decide, by decide, by decide⟩
  · exact ⟨29, by decide, by decide, by decide, by decide, by decide⟩
  · exact ⟨14, by decide, by decide, by decide, by decide, by decide⟩

/-- A magnitude of at most n units rounds to at most n of them, one of at least n to at least n. -/
theorem RoundsInt.between {mode r : Nat} {t : Bool} {y : ℚ} {k n l : Nat} (hr : r < 2 ^ 16) (h : RoundsInt mode r t y k)
    (hl : (l : ℚ) ≤ y) (hn : y ≤ n) : l ≤ k ∧ k ≤ n := by
  have h1 : (r : ℚ) / 2 ^ 16 < 1 := by rw [div_lt_one (by positivity)]; exact_mod_cast hr
  have h2 : (0 : ℚ) ≤ (r : ℚ) / 2 ^ 16 := by positivity
  have key : (k : ℚ) - y < 1 ∧ y - k < 1 := by
    unfold RoundsInt at h
    split at h <;> (try split at h)
    · have := abs_le.1 h.1; constructor <;> linarith
    all_goals constructor <;> linarith [h.1, h.2]
  have a : l < k + 1 := by exact_mod_cast (by linarith : (l : ℚ) < k + 1)
  have b : k < n + 1 := by exact_mod_cast (by linarith : (k : ℚ) < n + 1)
  omega

/-- The units of a finite significand: q as R47 gives it. -/
theorem mul_zpow_bounds (m mw : Nat) (e : Int) (hm : m ≠ 0) :
    (m : ℚ) * 2 ^ e < 2 ^ ((Nat.log2 m : Int) + e - mw + mw + 1) ∧ 2 ^ ((Nat.log2 m : Int) + e - mw + mw) ≤ (m : ℚ) * 2 ^ e := by
  have hp : (0 : ℚ) < 2 ^ e := by positivity
  rw [show (Nat.log2 m : Int) + e - mw + mw + 1 = ((Nat.log2 m + 1 : Nat) : Int) + e by push_cast; ring,
    show (Nat.log2 m : Int) + e - mw + mw = ((Nat.log2 m : Nat) : Int) + e by ring, zpow_add₀ two_ne_zero, zpow_add₀ two_ne_zero,
    zpow_natCast, zpow_natCast]
  exact ⟨mul_lt_mul_of_pos_right (by exact_mod_cast Nat.lt_log2_self) hp,
    mul_le_mul_of_nonneg_right (by exact_mod_cast Nat.log2_self_le hm) hp.le⟩

theorem Fmt.signBit_maxBits (f : Fmt) (t : Bool) : f.maxBits t = f.signBit t + f.maxBits false := by
  simp [Fmt.maxBits, Fmt.signBit]

/-- The one rounding of every finite result (R32 to R34, R47, R48). -/
theorem Fmt.encodeFin_roundsTo (f : Fmt) (hf : f.isOne) (o : Rnd) (r : Nat) (t : Bool) (m : Nat) (e : Int) (hr : r < 2 ^ 16) :
    RoundsTo f o r t (m * 2 ^ e) (f.encodeFin o.mode o.sat r t m e) := by
  obtain ⟨U, hU, hmax, hU1, hs1, hs2⟩ := f.maxBits_eq hf
  unfold Fmt.encodeFin
  split
  next h0 =>
    subst h0
    refine ⟨1 - f.bias - f.mw, 0, le_rfl, by simp; positivity, .inl rfl, ?_, fun _ => ?_, fun h => ?_⟩
    · simpa using roundsInt_natCast o.mode r t 0 hr
    · have := f.decode_units hf t 0 0 (Nat.zero_le _) (.inl rfl) (by rw [hmax]; omega)
      simpa using this
    · have : (0 : ℚ) ≤ largest f := by unfold largest; positivity
      simp at h; linarith
  next h0 =>
    obtain ⟨b1, b2⟩ := mul_zpow_bounds m f.mw e h0
    generalize hq0 : (Nat.log2 m : Int) + e - f.mw = q0 at b1 b2
    simp only
    generalize hqq : (if q0 < 1 - f.bias - f.mw then 1 - f.bias - f.mw else q0) = q
    have hq : 1 - f.bias - f.mw ≤ q ∧ q0 ≤ q ∧ (q = 1 - f.bias - f.mw ∨ q = q0) := by
      split at hqq <;> omega
    obtain ⟨u, hu⟩ : ∃ u : Nat, q = 1 - f.bias - f.mw + u := ⟨(q - (1 - f.bias - f.mw)).toNat, by omega⟩
    have hround := roundInt_roundsInt o.mode r t m e q hr
    generalize roundInt o.mode r t m e q = k at hround
    have hx : (m : ℚ) * 2 ^ e < 2 ^ (q + f.mw + 1) := lt_of_lt_of_le b1 (zpow_le_zpow_right₀ one_le_two (by omega))
    have hx' : q = 1 - f.bias - f.mw ∨ (2 : ℚ) ^ (q + f.mw) ≤ m * 2 ^ e := hq.2.2.imp id fun h => by rw [h]; exact b2
    have hqpos : (0 : ℚ) < 2 ^ q := by positivity
    have hk : k ≤ 2 ^ (f.mw + 1) := by
      refine (RoundsInt.between (l := 0) hr hround (by simp; positivity) ?_).2
      rw [div_le_iff₀ hqpos]; push_cast
      rw [show q + f.mw + 1 = ((f.mw + 1 : Nat) : Int) + q by push_cast; ring, zpow_add₀ two_ne_zero, zpow_natCast] at hx
      exact hx.le
    have hk' : u = 0 ∨ 2 ^ f.mw ≤ k := by
      rcases hx' with h | h
      · left; omega
      · right
        refine (RoundsInt.between (n := 2 ^ (f.mw + 1)) hr hround ?_ ?_).1
        · rw [le_div_iff₀ hqpos]; push_cast
          rwa [show q + f.mw = ((f.mw : Nat) : Int) + q by ring, zpow_add₀ two_ne_zero, zpow_natCast] at h
        · rw [div_le_iff₀ hqpos]; push_cast
          rw [show q + f.mw + 1 = ((f.mw + 1 : Nat) : Int) + q by push_cast; ring, zpow_add₀ two_ne_zero, zpow_natCast] at hx
          exact hx.le
    have hover : (f.maxExp < q ∨ (q = f.maxExp ∧ f.maxSig < k)) ↔ largest f < (k : ℚ) * 2 ^ q := by
      unfold largest
      constructor
      · rintro (h | ⟨h, h'⟩)
        · have hk2 : 2 ^ f.mw ≤ k := by rcases hk' with h2 | h2 <;> omega
          have : (f.maxSig : ℚ) < 2 * k := by exact_mod_cast (by rw [pow_succ] at hs2; omega : f.maxSig < 2 * k)
          have h3 : (2 : ℚ) ^ (f.maxExp + 1) ≤ 2 ^ q := zpow_le_zpow_right₀ one_le_two (by omega)
          rw [zpow_add_one₀ two_ne_zero] at h3
          have h4 : (0 : ℚ) < 2 ^ f.maxExp := by positivity
          calc (f.maxSig : ℚ) * 2 ^ f.maxExp < 2 * k * 2 ^ f.maxExp := mul_lt_mul_of_pos_right this h4
            _ = k * (2 ^ f.maxExp * 2) := by ring
            _ ≤ k * 2 ^ q := by gcongr
        · rw [h]; exact mul_lt_mul_of_pos_right (by exact_mod_cast h') (by positivity)
      · intro h
        by_contra hc
        push Not at hc
        obtain ⟨c1, c2⟩ := hc
        rcases lt_or_eq_of_le c1 with c1 | c1
        · have h3 : (2 : ℚ) ^ (q + 1) ≤ 2 ^ f.maxExp := zpow_le_zpow_right₀ one_le_two (by omega)
          rw [zpow_add_one₀ two_ne_zero] at h3
          have h5 : (k : ℚ) ≤ f.maxSig * 2 := by exact_mod_cast (by rw [pow_succ] at hk; omega : k ≤ f.maxSig * 2)
          have : (k : ℚ) * 2 ^ q ≤ f.maxSig * 2 ^ f.maxExp := by
            calc (k : ℚ) * 2 ^ q ≤ f.maxSig * 2 * 2 ^ q := by gcongr
              _ = f.maxSig * (2 ^ q * 2) := by ring
              _ ≤ _ := by gcongr
          linarith
        · have : (k : ℚ) ≤ f.maxSig := by exact_mod_cast c2 c1
          have h6 : (k : ℚ) * 2 ^ q ≤ f.maxSig * 2 ^ q := by gcongr
          rw [c1] at h6 h
          linarith
    refine ⟨q, k, hq.1, hx, hx', hround, fun h => ?_, fun h => ?_⟩
    · rw [if_neg (fun hc => absurd (hover.1 hc) (not_lt.2 h))]
      have hn : ¬(f.maxExp < q ∨ (q = f.maxExp ∧ f.maxSig < k)) := fun hc => absurd (hover.1 hc) (not_lt.2 h)
      have hle : u * 2 ^ f.mw + k ≤ f.maxBits false := by
        rw [hmax]
        rcases Nat.lt_trichotomy u U with h1 | h1 | h1
        · have : (u + 1) * 2 ^ f.mw ≤ U * 2 ^ f.mw := Nat.mul_le_mul_right _ h1
          rw [pow_succ] at hk; rw [Nat.add_mul] at this; omega
        · have : k ≤ f.maxSig := by by_contra hc; exact hn (.inr ⟨by omega, by omega⟩)
          rw [h1]; omega
        · exact absurd (.inl (by omega)) hn
      have := f.decode_units hf t u k hk hk' hle
      rw [show (q - (1 - f.bias - f.mw)).toNat = u by omega, hu]
      exact this
    · rw [if_pos (hover.2 h)]
      exact if_congr (by simp [roundsDown, or_assoc]) rfl rfl

end Sys2Proof.Machine
end

