-- ==== Sys2Proof/Laws/Memory.lean ====
section
/-! SUPPORT. Memory: every operation keeps the canonical form; a byte read after a write is the byte written, and every
other byte is as it was. -/

namespace Sys2Proof.Laws

open Sys2Proof.Machine

/-! ### The canonical form -/

theorem memWfFrom_mono {m : List Host.Cell} {lo hi : Nat} (h : memWfFrom hi m = true) (hl : lo ≤ hi) : memWfFrom lo m = true := by
  cases m with
  | nil => rfl
  | cons p m =>
    obtain ⟨a, v⟩ := p
    simp only [memWfFrom, Bool.and_eq_true, decide_eq_true_eq] at h ⊢
    exact ⟨⟨by omega, h.1.2⟩, h.2⟩

theorem memWfFrom_cons (lo a : Nat) (v : Byte) (m : List Host.Cell) :
    memWfFrom lo ((a, v) :: m) = (decide (lo ≤ a) && decide (v ≠ 0) && memWfFrom (a + 1) m) := rfl

theorem memPut_wfFrom {m : List Host.Cell} {lo n : Nat} (b : Byte) (h : memWfFrom lo m = true) (hn : lo ≤ n) :
    memWfFrom lo (memPut m n b) = true := by
  induction m generalizing lo with
  | nil => by_cases hb : b = 0#8 <;> simp [memPut, memWfFrom, hb, hn]
  | cons p m ih =>
    obtain ⟨a, v⟩ := p
    have h' := h
    simp only [memWfFrom, Bool.and_eq_true, decide_eq_true_eq] at h
    obtain ⟨⟨h1, h2⟩, h3⟩ := h
    unfold memPut
    by_cases c1 : n < a
    · by_cases hb : b = 0#8
      · simpa [c1, hb] using h'
      · have ha : memWfFrom (n + 1) ((a, v) :: m) = true := by
          simp only [memWfFrom, Bool.and_eq_true, decide_eq_true_eq]
          exact ⟨⟨by omega, h2⟩, h3⟩
        simp [c1, hb, memWfFrom_cons, hn, ha]
    · by_cases c2 : n = a
      · by_cases hb : b = 0#8
        · simpa [c1, c2, hb] using memWfFrom_mono h3 (by omega)
        · simp [c2, hb, memWfFrom_cons, h1, h3]
      · simp only [c1, c2, if_false, memWfFrom, Bool.and_eq_true, decide_eq_true_eq]
        exact ⟨⟨h1, h2⟩, ih h3 (by omega)⟩

theorem memPut_wf {m : List Host.Cell} (n : Nat) (b : Byte) (h : Memory.wf m = true) : Memory.wf (memPut m n b) = true :=
  memPut_wfFrom b h (Nat.zero_le n)

theorem memWrite_wf {m : List Host.Cell} (a n v : Nat) (h : Memory.wf m = true) : Memory.wf (memWrite m a n v) = true := by
  induction n generalizing m a v with
  | zero => exact h
  | succ n ih => exact ih _ _ (memPut_wf _ _ h)

theorem memBytes_wf {m : List Host.Cell} (a : Nat) (l : List Nat) (h : Memory.wf m = true) : Memory.wf (memBytes m a l) = true := by
  induction l generalizing m a with
  | nil => exact h
  | cons b l ih => exact ih _ (memPut_wf _ _ h)

theorem memFilter_wfFrom {m : List Host.Cell} {lo : Nat} (p : Host.Cell → Bool) (h : memWfFrom lo m = true) :
    memWfFrom lo (m.filter p) = true := by
  induction m generalizing lo with
  | nil => rfl
  | cons c m ih =>
    obtain ⟨a, v⟩ := c
    simp only [memWfFrom, Bool.and_eq_true, decide_eq_true_eq] at h
    rw [List.filter_cons]
    split
    · simp only [memWfFrom, Bool.and_eq_true, decide_eq_true_eq]
      exact ⟨h.1, ih h.2⟩
    · exact memWfFrom_mono (ih h.2) (by omega)

theorem memFilter_wf {m : List Host.Cell} (p : Host.Cell → Bool) (h : Memory.wf m = true) : Memory.wf (m.filter p) = true :=
  memFilter_wfFrom p h

/-! ### Reading after writing -/

theorem memGet_below {m : List Host.Cell} {lo n : Nat} (h : memWfFrom lo m = true) (hn : n < lo) : memGet m n = 0 := by
  cases m with
  | nil => rfl
  | cons p m =>
    obtain ⟨a, v⟩ := p
    simp only [memWfFrom, Bool.and_eq_true, decide_eq_true_eq] at h
    have h1 : ¬ n = a := by omega
    have h2 : n < a := by omega
    simp [memGet, h1, h2]

theorem memGet_memPut_from {m : List Host.Cell} {lo n k : Nat} (b : Byte) (h : memWfFrom lo m = true) :
    memGet (memPut m n b) k = if k = n then b else memGet m k := by
  induction m generalizing lo with
  | nil =>
    by_cases hb : b = 0#8 <;> by_cases hk : k = n <;> simp [memPut, memGet, hb, hk]
  | cons p m ih =>
    obtain ⟨a, v⟩ := p
    simp only [memWfFrom, Bool.and_eq_true, decide_eq_true_eq] at h
    obtain ⟨⟨h1, h2⟩, h3⟩ := h
    unfold memPut
    by_cases c1 : n < a
    · have hna : ¬ n = a := by omega
      by_cases hb : b = 0#8
      · by_cases hk : k = n
        · simp [c1, hb, hk, memGet, hna]
        · simp [c1, hb, hk]
      · by_cases hk : k = n
        · simp [c1, hb, hk, memGet]
        · by_cases hl : k < n
          · have : ¬ k = a := by omega
            have : k < a := by omega
            simp [memGet, *]
          · simp [c1, hb, hk, memGet, hl]
    · by_cases c2 : n = a
      · by_cases hb : b = 0#8
        · by_cases hk : k = n
          · subst hk c2
            simp [hb, memGet_below h3 (Nat.lt_succ_self _)]
          · have hka : ¬ k = a := c2 ▸ hk
            by_cases hl : k < a
            · simp [c2, hb, hka, memGet, hl, memGet_below h3 (show k < a + 1 by omega)]
            · simp [c2, hb, hka, memGet, hl]
        · by_cases hk : k = n
          · simp [c2, hb, hk, memGet]
          · have hka : ¬ k = a := c2 ▸ hk
            simp [c2, hb, hka, memGet]
      · by_cases hka : k = a
        · have : ¬ k = n := fun e => c2 (e.symm.trans hka)
          simp [c1, c2, memGet, hka]
          intro e; exact absurd e.symm c2
        · by_cases hl : k < a
          · have : ¬ k = n := by omega
            simp [c1, c2, memGet, hka, hl, this]
          · simp [c1, c2, memGet, hka, hl, ih h3]

theorem memGet_memPut {m : List Host.Cell} (n k : Nat) (b : Byte) (h : Memory.wf m = true) :
    memGet (memPut m n b) k = if k = n then b else memGet m k :=
  memGet_memPut_from b h

/-- A byte outside what is written is as it was. -/
theorem memGet_memWrite_other {m : List Host.Cell} {a n v k : Nat} (h : Memory.wf m = true) (hk : k < a ∨ a + n ≤ k) :
    memGet (memWrite m a n v) k = memGet m k := by
  induction n generalizing m a v with
  | zero => rfl
  | succ n ih =>
    rw [memWrite, ih (memPut_wf _ _ h) (by omega), memGet_memPut _ _ _ h, if_neg (by omega)]

/-- Byte i of what is written. -/
theorem memGet_memWrite_in {m : List Host.Cell} {a n v i : Nat} (h : Memory.wf m = true) (hi : i < n) :
    memGet (memWrite m a n v) (a + i) = BitVec.ofNat 8 (v / 256 ^ i) := by
  induction n generalizing m a v i with
  | zero => omega
  | succ n ih =>
    rw [memWrite]
    cases i with
    | zero =>
      rw [Nat.add_zero, memGet_memWrite_other (memPut_wf _ _ h) (by omega), memGet_memPut _ _ _ h]
      simp
    | succ i =>
      have := ih (v := v / 256) (a := a + 1) (memPut_wf a (BitVec.ofNat 8 v) h) (show i < n by omega)
      rw [show a + (i + 1) = a + 1 + i by omega, this, Nat.div_div_eq_div_mul, ← Nat.pow_succ']

/-- A number written reads back. -/
theorem memRead_memWrite {m : List Host.Cell} {a n v : Nat} (h : Memory.wf m = true) :
    memRead (memWrite m a n v) a n = v % 256 ^ n := by
  induction n generalizing m a v with
  | zero => simp [memRead, Nat.mod_one]
  | succ n ih =>
    rw [memRead, memWrite, ih (memPut_wf _ _ h), memGet_memWrite_other (memPut_wf _ _ h) (by omega), memGet_memPut _ _ _ h,
      if_pos rfl, BitVec.toNat_ofNat, show (2 : Nat) ^ 8 = 256 from rfl, Nat.pow_succ', Nat.mod_mul]

/-- Reading elsewhere is not changed by a write. -/
theorem memRead_memWrite_other {m : List Host.Cell} {a n v b k : Nat} (h : Memory.wf m = true) (hd : b + k ≤ a ∨ a + n ≤ b) :
    memRead (memWrite m a n v) b k = memRead m b k := by
  induction k generalizing b with
  | zero => rfl
  | succ k ih => rw [memRead, memRead, ih (by omega), memGet_memWrite_other h (by omega)]

/-! ### The device's own operations -/

/-- What L2 writes back changes no byte that a device access sees. -/
theorem formBack_mem (s : State) (line form : Nat) : (s.formBack line form).mem = s.mem := by
  unfold State.formBack; dsimp only; split <;> rfl

/-- Counting an access changes no byte. -/
theorem heatReport_mem (s : State) (g heat tier : Nat) : (s.heatReport g heat tier).mem = s.mem := by
  unfold State.heatReport; split <;> rfl

theorem heatUp_mem (s : State) (leaf pa : Nat) : (s.heatUp leaf pa).mem = s.mem := by
  unfold State.heatUp
  dsimp only
  split_ifs
  · rfl
  · rfl
  · exact heatReport_mem _ _ _ _
  · rfl

theorem lineBack_mem (s : State) (line form : Nat) : (s.lineBack line form).mem = s.mem :=
  (heatUp_mem _ _ _).trans (formBack_mem s line form)

theorem settleGranule_mem (s : State) (x : Nat) : (s.settleGranule x).mem = s.mem := by
  unfold State.settleGranule
  dsimp only
  split
  · rfl
  · split
    · rfl
    · exact lineBack_mem s _ _

theorem persistGranule_mem (s : State) (x : Nat) : (s.persistGranule x).mem = s.mem := by
  unfold State.persistGranule
  split
  · exact settleGranule_mem _ x
  · rfl

theorem evictLine_mem (s : State) (line : Nat) : (s.evictLine line).mem = s.mem := by
  unfold State.evictLine
  dsimp only
  split
  · exact (lineBack_mem _ _ _).trans ((persistGranule_mem _ _).trans (persistGranule_mem s _))
  · exact (persistGranule_mem _ _).trans (persistGranule_mem s _)

theorem dirtyLine_mem (s : State) (line : Nat) : (s.dirtyLine line).mem = s.mem := by
  unfold State.dirtyLine
  split
  · rfl
  · dsimp only
    split
    · rfl
    · split
      · rfl
      · split
        · rfl
        · exact evictLine_mem s _

theorem coverRange_mem (s : State) (pa n : Nat) : (s.coverRange pa n).mem = s.mem := by
  unfold State.coverRange; split
  · rfl
  · split <;> rfl

theorem poisonRange_mem (s : State) (pa n : Nat) : (s.poisonRange pa n).mem = s.mem := by
  unfold State.poisonRange; split
  · rfl
  · split
    · rfl
    · split <;> rfl

/-- A fold whose steps keep a property keeps it. -/
theorem foldl_keeps {α σ : Type} (P : σ → Prop) (f : σ → α → σ) (hf : ∀ s a, P s → P (f s a)) (l : List α) (s : σ)
    (h : P s) : P (l.foldl f s) := by
  induction l generalizing s with
  | nil => exact h
  | cons a l ih => exact ih _ (hf _ _ h)

theorem rekey_wf {s : State} (key pa n : Nat) (h : Memory.wf s.mem = true) : Memory.wf (s.rekey key pa n).mem = true := by
  unfold State.rekey
  split
  · exact h
  · refine foldl_keeps (fun s : State => Memory.wf s.mem = true) _ ?_ _ _ h
    intro s g hs
    dsimp only
    split
    · exact hs
    · dsimp only
      generalize (List.map _ _) = l
      exact memBytes_wf _ _ hs

/-- The memory that a write begins from: the lines noted dirty, the granules under the writer's key. -/
def beforeWrite (s : State) (key pa n : Nat) : State :=
  if isGlobal pa then
    (((List.range ((pa + n - 1) / 128 - pa / 128 + 1)).map (· + pa / 128)).foldl State.dirtyLine s).rekey key pa n
  else s

theorem beforeWrite_wf {s : State} (key pa n : Nat) (h : Memory.wf s.mem = true) :
    Memory.wf (beforeWrite s key pa n).mem = true := by
  unfold beforeWrite
  cases isGlobal pa with
  | true =>
    exact rekey_wf _ _ _ (foldl_keeps (fun s : State => Memory.wf s.mem = true) _
      (fun s l hs => by rw [dirtyLine_mem]; exact hs) _ _ h)
  | false => exact h

theorem machineCheck_mem (s : State) (source pa : Nat) : (s.machineCheck source pa).mem = s.mem := by
  unfold State.machineCheck State.raise State.sendVector
  dsimp only
  split_ifs <;> rfl

/-- A port that is down has no address outside the ports' windows. -/
theorem cxlDown_local {s : State} {pa : Nat} (hl : isGlobal pa = false) : s.cxlDown pa = false := by
  unfold isGlobal at hl
  simp only [Bool.or_eq_false_iff] at hl
  simp [State.cxlDown, hl]

theorem writePa_down (s : State) {key pa n v : Nat} (hd : s.cxlDown pa = true) : (s.writePa key pa n v).mem = s.mem := by
  unfold State.writePa
  split
  · rfl
  · exact machineCheck_mem s 2 pa

theorem writePa_mem (s : State) {key pa n v : Nat} (hn : n ≠ 0) (hd : s.cxlDown pa = false) :
    (s.writePa key pa n v).mem = memWrite (beforeWrite s key pa n).mem pa n v := by
  unfold State.writePa
  rw [if_neg hn, if_neg (by simp [hd])]
  exact congrArg (fun m => memWrite m pa n v) (coverRange_mem _ _ _)

/-- Every write at the point of coherence keeps the form. -/
theorem writePa_wf {s : State} (key pa n v : Nat) (h : Memory.wf s.mem = true) : Memory.wf (s.writePa key pa n v).mem = true := by
  by_cases hn : n = 0
  · subst hn; exact h
  · cases hd : s.cxlDown pa with
    | true => rw [writePa_down s hd]; exact h
    | false => rw [writePa_mem s hn hd]; exact memWrite_wf _ _ _ (beforeWrite_wf _ _ _ h)

theorem writeList_wf {s : State} (key pa : Nat) (l : List Nat) (h : Memory.wf s.mem = true) :
    Memory.wf (s.writeList key pa l).mem = true :=
  writePa_wf _ _ _ _ h

theorem smPut_wf {s : State} (off n v : Nat) (h : Memory.wf s.mem = true) : Memory.wf (s.smPut off n v).mem = true := by
  unfold State.smPut
  exact memWrite_wf _ _ _ h

theorem reset_memory_wf : Memory.wf State.reset.mem = true := rfl

/-- A write to a scratchpad or to scheduler memory changes its bytes only. -/
theorem writePa_get_local {s : State} {key pa n v k : Nat} (h : Memory.wf s.mem = true) (hl : isGlobal pa = false)
    (hk : k < pa ∨ pa + n ≤ k) : memGet (s.writePa key pa n v).mem k = memGet s.mem k := by
  by_cases hn : n = 0
  · subst hn; rfl
  · have e : beforeWrite s key pa n = s := by unfold beforeWrite; rw [hl]; rfl
    rw [writePa_mem s hn (cxlDown_local hl), e, memGet_memWrite_other h hk]

/-- What it wrote reads back. -/
theorem writePa_read_local {s : State} {key pa n v : Nat} (h : Memory.wf s.mem = true) (hl : isGlobal pa = false) (hn : n ≠ 0) :
    memRead (s.writePa key pa n v).mem pa n = v % 256 ^ n := by
  have e : beforeWrite s key pa n = s := by unfold beforeWrite; rw [hl]; rfl
  rw [writePa_mem s hn (cxlDown_local hl), e, memRead_memWrite h]

end Sys2Proof.Laws
end

