-- ==== Sys2Proof/Laws/Table.lean ====
section
/-! SUPPORT. The laws of tables: what is read after an entry is written, changed or removed. -/

namespace Sys2Proof.Laws

open Sys2Proof.Machine

@[simp] theorem tget_nil (d : α) (n : Nat) : tget d [] n = d := rfl

theorem tget_tset (d : α) (t : Tab α) (n m : Nat) (v : α) : tget d (tset t n v) m = if m = n then v else tget d t m := by
  induction t with
  | nil => by_cases h : m = n <;> simp [tset, tget, h]
  | cons p t ih =>
    obtain ⟨k, w⟩ := p
    unfold tset
    by_cases h1 : n < k
    · by_cases h : m = n <;> simp [h1, tget, h]
    · by_cases h2 : n = k
      · by_cases h : m = n
        · simp [h2, tget, h]
        · have : ¬ m = k := h2 ▸ h
          simp [h2, tget, this]
      · by_cases h : m = n
        · rw [if_neg h1, if_neg h2, tget, if_neg (fun e => h2 (h.symm.trans e)), ih, if_pos h, if_pos h]
        · by_cases h3 : m = k
          · simp [h1, h2, tget, h3]
            exact fun e => absurd (h3.trans e) h
          · simp [h1, h2, tget, h, ih, h3]

@[simp] theorem tget_tset_same (d : α) (t : Tab α) (n : Nat) (v : α) : tget d (tset t n v) n = v := by
  simp [tget_tset]

theorem tget_tset_other (d : α) (t : Tab α) {n m : Nat} (v : α) (h : m ≠ n) : tget d (tset t n v) m = tget d t m := by
  simp [tget_tset, h]

theorem tget_tdel (d : α) (t : Tab α) (n m : Nat) : tget d (tdel t n) m = if m = n then d else tget d t m := by
  induction t with
  | nil => simp [tdel]
  | cons p t ih =>
    obtain ⟨k, w⟩ := p
    have hc : tdel ((k, w) :: t) n = if k = n then tdel t n else (k, w) :: tdel t n := by
      by_cases hk : k = n <;> simp [tdel, hk]
    rw [hc]
    by_cases hk : k = n
    · rw [if_pos hk, ih]
      by_cases h : m = n
      · rw [if_pos h, if_pos h]
      · rw [if_neg h, if_neg h, tget, if_neg (fun e => h (e.trans hk))]
    · rw [if_neg hk, tget, tget, ih]
      by_cases h : m = n
      · rw [if_pos h, if_neg (fun e => hk (e.symm.trans h)), if_pos h]
      · rw [if_neg h, if_neg h]

@[simp] theorem tget_tmod_same (d : α) (t : Tab α) (n : Nat) (f : α → α) : tget d (tmod d t n f) n = f (tget d t n) := by
  simp [tmod]

theorem tget_tmod_other (d : α) (t : Tab α) {n m : Nat} (f : α → α) (h : m ≠ n) : tget d (tmod d t n f) m = tget d t m := by
  simp [tmod, tget_tset, h]

end Sys2Proof.Laws
end

