-- ==== Sys2Proof/Laws/State.lean ====
section
/-! SUPPORT. One lemma per field per update of the state: what emit, modCore, modCtx, modCluster and the draws leave, and
what they write; for updates that depend on a case, what every case leaves. -/

namespace Sys2Proof.Laws

open Sys2Proof.Machine

/-! ### emit -/

@[simp] theorem emit_powered (s : State) (e : Eff) : (s.emit e).powered = s.powered := rfl
@[simp] theorem emit_stage (s : State) (e : Eff) : (s.emit e).stage = s.stage := rfl
@[simp] theorem emit_mhz (s : State) (e : Eff) : (s.emit e).mhz = s.mhz := rfl
@[simp] theorem emit_clk (s : State) (e : Eff) : (s.emit e).clk = s.clk := rfl
@[simp] theorem emit_ns (s : State) (e : Eff) : (s.emit e).ns = s.ns := rfl
@[simp] theorem emit_tacc (s : State) (e : Eff) : (s.emit e).tacc = s.tacc := rfl
@[simp] theorem emit_nsNew (s : State) (e : Eff) : (s.emit e).nsNew = s.nsNew := rfl
@[simp] theorem emit_pending (s : State) (e : Eff) : (s.emit e).pending = s.pending := rfl
@[simp] theorem emit_agenda (s : State) (e : Eff) : (s.emit e).agenda = s.agenda := rfl
@[simp] theorem emit_ev (s : State) (e : Eff) : (s.emit e).ev = s.ev := rfl
@[simp] theorem emit_free (s : State) (e : Eff) : (s.emit e).free = s.free := rfl
@[simp] theorem emit_cores (s : State) (e : Eff) : (s.emit e).cores = s.cores := rfl
@[simp] theorem emit_clusters (s : State) (e : Eff) : (s.emit e).clusters = s.clusters := rfl
@[simp] theorem emit_mem (s : State) (e : Eff) : (s.emit e).mem = s.mem := rfl
@[simp] theorem emit_poison (s : State) (e : Eff) : (s.emit e).poison = s.poison := rfl
@[simp] theorem emit_padPoison (s : State) (e : Eff) : (s.emit e).padPoison = s.padPoison := rfl
@[simp] theorem emit_l2 (s : State) (e : Eff) : (s.emit e).l2 = s.l2 := rfl
@[simp] theorem emit_cellarLines (s : State) (e : Eff) : (s.emit e).cellarLines = s.cellarLines := rfl
@[simp] theorem emit_keyTags (s : State) (e : Eff) : (s.emit e).keyTags = s.keyTags := rfl
@[simp] theorem emit_baleBits (s : State) (e : Eff) : (s.emit e).baleBits = s.baleBits := rfl
@[simp] theorem emit_versions (s : State) (e : Eff) : (s.emit e).versions = s.versions := rfl
@[simp] theorem emit_journal (s : State) (e : Eff) : (s.emit e).journal = s.journal := rfl
@[simp] theorem emit_cellarOpen (s : State) (e : Eff) : (s.emit e).cellarOpen = s.cellarOpen := rfl
@[simp] theorem emit_rpt (s : State) (e : Eff) : (s.emit e).rpt = s.rpt := rfl
@[simp] theorem emit_writeFails (s : State) (e : Eff) : (s.emit e).writeFails = s.writeFails := rfl
@[simp] theorem emit_sproot (s : State) (e : Eff) : (s.emit e).sproot = s.sproot := rfl
@[simp] theorem emit_wtBase (s : State) (e : Eff) : (s.emit e).wtBase = s.wtBase := rfl
@[simp] theorem emit_mcBase (s : State) (e : Eff) : (s.emit e).mcBase = s.mcBase := rfl
@[simp] theorem emit_routes (s : State) (e : Eff) : (s.emit e).routes = s.routes := rfl
@[simp] theorem emit_rtLoad (s : State) (e : Eff) : (s.emit e).rtLoad = s.rtLoad := rfl
@[simp] theorem emit_keyValid (s : State) (e : Eff) : (s.emit e).keyValid = s.keyValid := rfl
@[simp] theorem emit_keyHeld (s : State) (e : Eff) : (s.emit e).keyHeld = s.keyHeld := rfl
@[simp] theorem emit_keyMb (s : State) (e : Eff) : (s.emit e).keyMb = s.keyMb := rfl
@[simp] theorem emit_retired (s : State) (e : Eff) : (s.emit e).retired = s.retired := rfl
@[simp] theorem emit_flash (s : State) (e : Eff) : (s.emit e).flash = s.flash := rfl
@[simp] theorem emit_retCnt (s : State) (e : Eff) : (s.emit e).retCnt = s.retCnt := rfl
@[simp] theorem emit_capGen (s : State) (e : Eff) : (s.emit e).capGen = s.capGen := rfl
@[simp] theorem emit_recovery (s : State) (e : Eff) : (s.emit e).recovery = s.recovery := rfl
@[simp] theorem emit_dev (s : State) (e : Eff) : (s.emit e).dev = s.dev := rfl
@[simp] theorem emit_walks (s : State) (e : Eff) : (s.emit e).walks = s.walks := rfl
@[simp] theorem emit_invals (s : State) (e : Eff) : (s.emit e).invals = s.invals := rfl
@[simp] theorem emit_replay (s : State) (e : Eff) : (s.emit e).replay = s.replay := rfl
@[simp] theorem emit_triggers (s : State) (e : Eff) : (s.emit e).triggers = s.triggers := rfl
@[simp] theorem emit_replayNo (s : State) (e : Eff) : (s.emit e).replayNo = s.replayNo := rfl
@[simp] theorem emit_tflags (s : State) (e : Eff) : (s.emit e).tflags = s.tflags := rfl
@[simp] theorem emit_aq (s : State) (e : Eff) : (s.emit e).aq = s.aq := rfl
@[simp] theorem emit_held (s : State) (e : Eff) : (s.emit e).held = s.held := rfl
@[simp] theorem emit_inbox (s : State) (e : Eff) : (s.emit e).inbox = s.inbox := rfl
@[simp] theorem emit_starts (s : State) (e : Eff) : (s.emit e).starts = s.starts := rfl
@[simp] theorem emit_deciding (s : State) (e : Eff) : (s.emit e).deciding = s.deciding := rfl
@[simp] theorem emit_damaged (s : State) (e : Eff) : (s.emit e).damaged = s.damaged := rfl
@[simp] theorem emit_killSt (s : State) (e : Eff) : (s.emit e).killSt = s.killSt := rfl
@[simp] theorem emit_copies (s : State) (e : Eff) : (s.emit e).copies = s.copies := rfl
@[simp] theorem emit_nextId (s : State) (e : Eff) : (s.emit e).nextId = s.nextId := rfl
@[simp] theorem emit_packets (s : State) (e : Eff) : (s.emit e).packets = s.packets := rfl
@[simp] theorem emit_remotes (s : State) (e : Eff) : (s.emit e).remotes = s.remotes := rfl
@[simp] theorem emit_readAt (s : State) (e : Eff) : (s.emit e).readAt = s.readAt := rfl
@[simp] theorem emit_rejected (s : State) (e : Eff) : (s.emit e).rejected = s.rejected := rfl
@[simp] theorem emit_tcFreed (s : State) (e : Eff) : (s.emit e).tcFreed = s.tcFreed := rfl
@[simp] theorem emit_gtracks (s : State) (e : Eff) : (s.emit e).gtracks = s.gtracks := rfl
@[simp] theorem emit_granaryQ (s : State) (e : Eff) : (s.emit e).granaryQ = s.granaryQ := rfl
@[simp] theorem emit_pools (s : State) (e : Eff) : (s.emit e).pools = s.pools := rfl
@[simp] theorem emit_resident (s : State) (e : Eff) : (s.emit e).resident = s.resident := rfl
@[simp] theorem emit_granForm (s : State) (e : Eff) : (s.emit e).granForm = s.granForm := rfl
@[simp] theorem emit_prefetch (s : State) (e : Eff) : (s.emit e).prefetch = s.prefetch := rfl
@[simp] theorem emit_prefetchWait (s : State) (e : Eff) : (s.emit e).prefetchWait = s.prefetchWait := rfl
@[simp] theorem emit_hidden (s : State) (e : Eff) : (s.emit e).hidden = s.hidden := rfl
@[simp] theorem emit_predB (s : State) (e : Eff) : (s.emit e).predB = s.predB := rfl
@[simp] theorem emit_granDrops (s : State) (e : Eff) : (s.emit e).granDrops = s.granDrops := rfl
@[simp] theorem emit_gleanQ (s : State) (e : Eff) : (s.emit e).gleanQ = s.gleanQ := rfl
@[simp] theorem emit_gleans (s : State) (e : Eff) : (s.emit e).gleans = s.gleans := rfl
@[simp] theorem emit_ringCfg (s : State) (e : Eff) : (s.emit e).ringCfg = s.ringCfg := rfl
@[simp] theorem emit_heatCtl (s : State) (e : Eff) : (s.emit e).heatCtl = s.heatCtl := rfl
@[simp] theorem emit_heat (s : State) (e : Eff) : (s.emit e).heat = s.heat := rfl
@[simp] theorem emit_heatPoison (s : State) (e : Eff) : (s.emit e).heatPoison = s.heatPoison := rfl
@[simp] theorem emit_heatCnt (s : State) (e : Eff) : (s.emit e).heatCnt = s.heatCnt := rfl
@[simp] theorem emit_decayAt (s : State) (e : Eff) : (s.emit e).decayAt = s.decayAt := rfl
@[simp] theorem emit_heatDue (s : State) (e : Eff) : (s.emit e).heatDue = s.heatDue := rfl
@[simp] theorem emit_migRing (s : State) (e : Eff) : (s.emit e).migRing = s.migRing := rfl
@[simp] theorem emit_migQ (s : State) (e : Eff) : (s.emit e).migQ = s.migQ := rfl
@[simp] theorem emit_migStall (s : State) (e : Eff) : (s.emit e).migStall = s.migStall := rfl
@[simp] theorem emit_migWait (s : State) (e : Eff) : (s.emit e).migWait = s.migWait := rfl
@[simp] theorem emit_moves (s : State) (e : Eff) : (s.emit e).moves = s.moves := rfl
@[simp] theorem emit_errCnt (s : State) (e : Eff) : (s.emit e).errCnt = s.errCnt := rfl
@[simp] theorem emit_mchk (s : State) (e : Eff) : (s.emit e).mchk = s.mchk := rfl
@[simp] theorem emit_mhead (s : State) (e : Eff) : (s.emit e).mhead = s.mhead := rfl
@[simp] theorem emit_apBase (s : State) (e : Eff) : (s.emit e).apBase = s.apBase := rfl
@[simp] theorem emit_hostData (s : State) (e : Eff) : (s.emit e).hostData = s.hostData := rfl
@[simp] theorem emit_hostErr (s : State) (e : Eff) : (s.emit e).hostErr = s.hostErr := rfl
@[simp] theorem emit_intStat (s : State) (e : Eff) : (s.emit e).intStat = s.intStat := rfl
@[simp] theorem emit_intEn (s : State) (e : Eff) : (s.emit e).intEn = s.intEn := rfl
@[simp] theorem emit_intAgain (s : State) (e : Eff) : (s.emit e).intAgain = s.intAgain := rfl
@[simp] theorem emit_msix (s : State) (e : Eff) : (s.emit e).msix = s.msix := rfl
@[simp] theorem emit_msixTable (s : State) (e : Eff) : (s.emit e).msixTable = s.msixTable := rfl
@[simp] theorem emit_msixPending (s : State) (e : Eff) : (s.emit e).msixPending = s.msixPending := rfl
@[simp] theorem emit_cmpCnt (s : State) (e : Eff) : (s.emit e).cmpCnt = s.cmpCnt := rfl
@[simp] theorem emit_links (s : State) (e : Eff) : (s.emit e).links = s.links := rfl
@[simp] theorem emit_eth (s : State) (e : Eff) : (s.emit e).eth = s.eth := rfl
@[simp] theorem emit_cxl (s : State) (e : Eff) : (s.emit e).cxl = s.cxl := rfl
@[simp] theorem emit_hbmTrained (s : State) (e : Eff) : (s.emit e).hbmTrained = s.hbmTrained := rfl
@[simp] theorem emit_powerCap (s : State) (e : Eff) : (s.emit e).powerCap = s.powerCap := rfl
@[simp] theorem emit_throttle (s : State) (e : Eff) : (s.emit e).throttle = s.throttle := rfl
@[simp] theorem emit_temp (s : State) (e : Eff) : (s.emit e).temp = s.temp := rfl
@[simp] theorem emit_stepAt (s : State) (e : Eff) : (s.emit e).stepAt = s.stepAt := rfl
@[simp] theorem emit_dieHeld (s : State) (e : Eff) : (s.emit e).dieHeld = s.dieHeld := rfl
@[simp] theorem emit_fwVersion (s : State) (e : Eff) : (s.emit e).fwVersion = s.fwVersion := rfl
@[simp] theorem emit_fwRollback (s : State) (e : Eff) : (s.emit e).fwRollback = s.fwRollback := rfl
@[simp] theorem emit_fwImage (s : State) (e : Eff) : (s.emit e).fwImage = s.fwImage := rfl
@[simp] theorem emit_fwFlash (s : State) (e : Eff) : (s.emit e).fwFlash = s.fwFlash := rfl
@[simp] theorem emit_mailbox (s : State) (e : Eff) : (s.emit e).mailbox = s.mailbox := rfl
@[simp] theorem emit_mailAsked (s : State) (e : Eff) : (s.emit e).mailAsked = s.mailAsked := rfl

/-! ### modCore -/

@[simp] theorem modCore_powered (s : State) (c : Nat) (f : Core → Core) : (s.modCore c f).powered = s.powered := rfl
@[simp] theorem modCore_stage (s : State) (c : Nat) (f : Core → Core) : (s.modCore c f).stage = s.stage := rfl
@[simp] theorem modCore_mhz (s : State) (c : Nat) (f : Core → Core) : (s.modCore c f).mhz = s.mhz := rfl
@[simp] theorem modCore_clk (s : State) (c : Nat) (f : Core → Core) : (s.modCore c f).clk = s.clk := rfl
@[simp] theorem modCore_ns (s : State) (c : Nat) (f : Core → Core) : (s.modCore c f).ns = s.ns := rfl
@[simp] theorem modCore_tacc (s : State) (c : Nat) (f : Core → Core) : (s.modCore c f).tacc = s.tacc := rfl
@[simp] theorem modCore_nsNew (s : State) (c : Nat) (f : Core → Core) : (s.modCore c f).nsNew = s.nsNew := rfl
@[simp] theorem modCore_bun (s : State) (c : Nat) (f : Core → Core) : (s.modCore c f).bun = s.bun := rfl
@[simp] theorem modCore_pending (s : State) (c : Nat) (f : Core → Core) : (s.modCore c f).pending = s.pending := rfl
@[simp] theorem modCore_agenda (s : State) (c : Nat) (f : Core → Core) : (s.modCore c f).agenda = s.agenda := rfl
@[simp] theorem modCore_ev (s : State) (c : Nat) (f : Core → Core) : (s.modCore c f).ev = s.ev := rfl
@[simp] theorem modCore_free (s : State) (c : Nat) (f : Core → Core) : (s.modCore c f).free = s.free := rfl
@[simp] theorem modCore_clusters (s : State) (c : Nat) (f : Core → Core) : (s.modCore c f).clusters = s.clusters := rfl
@[simp] theorem modCore_mem (s : State) (c : Nat) (f : Core → Core) : (s.modCore c f).mem = s.mem := rfl
@[simp] theorem modCore_poison (s : State) (c : Nat) (f : Core → Core) : (s.modCore c f).poison = s.poison := rfl
@[simp] theorem modCore_padPoison (s : State) (c : Nat) (f : Core → Core) : (s.modCore c f).padPoison = s.padPoison := rfl
@[simp] theorem modCore_l2 (s : State) (c : Nat) (f : Core → Core) : (s.modCore c f).l2 = s.l2 := rfl
@[simp] theorem modCore_cellarLines (s : State) (c : Nat) (f : Core → Core) : (s.modCore c f).cellarLines = s.cellarLines := rfl
@[simp] theorem modCore_keyTags (s : State) (c : Nat) (f : Core → Core) : (s.modCore c f).keyTags = s.keyTags := rfl
@[simp] theorem modCore_baleBits (s : State) (c : Nat) (f : Core → Core) : (s.modCore c f).baleBits = s.baleBits := rfl
@[simp] theorem modCore_versions (s : State) (c : Nat) (f : Core → Core) : (s.modCore c f).versions = s.versions := rfl
@[simp] theorem modCore_journal (s : State) (c : Nat) (f : Core → Core) : (s.modCore c f).journal = s.journal := rfl
@[simp] theorem modCore_cellarOpen (s : State) (c : Nat) (f : Core → Core) : (s.modCore c f).cellarOpen = s.cellarOpen := rfl
@[simp] theorem modCore_rpt (s : State) (c : Nat) (f : Core → Core) : (s.modCore c f).rpt = s.rpt := rfl
@[simp] theorem modCore_writeFails (s : State) (c : Nat) (f : Core → Core) : (s.modCore c f).writeFails = s.writeFails := rfl
@[simp] theorem modCore_sproot (s : State) (c : Nat) (f : Core → Core) : (s.modCore c f).sproot = s.sproot := rfl
@[simp] theorem modCore_wtBase (s : State) (c : Nat) (f : Core → Core) : (s.modCore c f).wtBase = s.wtBase := rfl
@[simp] theorem modCore_mcBase (s : State) (c : Nat) (f : Core → Core) : (s.modCore c f).mcBase = s.mcBase := rfl
@[simp] theorem modCore_routes (s : State) (c : Nat) (f : Core → Core) : (s.modCore c f).routes = s.routes := rfl
@[simp] theorem modCore_rtLoad (s : State) (c : Nat) (f : Core → Core) : (s.modCore c f).rtLoad = s.rtLoad := rfl
@[simp] theorem modCore_keyValid (s : State) (c : Nat) (f : Core → Core) : (s.modCore c f).keyValid = s.keyValid := rfl
@[simp] theorem modCore_keyHeld (s : State) (c : Nat) (f : Core → Core) : (s.modCore c f).keyHeld = s.keyHeld := rfl
@[simp] theorem modCore_keyMb (s : State) (c : Nat) (f : Core → Core) : (s.modCore c f).keyMb = s.keyMb := rfl
@[simp] theorem modCore_retired (s : State) (c : Nat) (f : Core → Core) : (s.modCore c f).retired = s.retired := rfl
@[simp] theorem modCore_flash (s : State) (c : Nat) (f : Core → Core) : (s.modCore c f).flash = s.flash := rfl
@[simp] theorem modCore_retCnt (s : State) (c : Nat) (f : Core → Core) : (s.modCore c f).retCnt = s.retCnt := rfl
@[simp] theorem modCore_capGen (s : State) (c : Nat) (f : Core → Core) : (s.modCore c f).capGen = s.capGen := rfl
@[simp] theorem modCore_recovery (s : State) (c : Nat) (f : Core → Core) : (s.modCore c f).recovery = s.recovery := rfl
@[simp] theorem modCore_dev (s : State) (c : Nat) (f : Core → Core) : (s.modCore c f).dev = s.dev := rfl
@[simp] theorem modCore_walks (s : State) (c : Nat) (f : Core → Core) : (s.modCore c f).walks = s.walks := rfl
@[simp] theorem modCore_invals (s : State) (c : Nat) (f : Core → Core) : (s.modCore c f).invals = s.invals := rfl
@[simp] theorem modCore_replay (s : State) (c : Nat) (f : Core → Core) : (s.modCore c f).replay = s.replay := rfl
@[simp] theorem modCore_triggers (s : State) (c : Nat) (f : Core → Core) : (s.modCore c f).triggers = s.triggers := rfl
@[simp] theorem modCore_replayNo (s : State) (c : Nat) (f : Core → Core) : (s.modCore c f).replayNo = s.replayNo := rfl
@[simp] theorem modCore_tflags (s : State) (c : Nat) (f : Core → Core) : (s.modCore c f).tflags = s.tflags := rfl
@[simp] theorem modCore_aq (s : State) (c : Nat) (f : Core → Core) : (s.modCore c f).aq = s.aq := rfl
@[simp] theorem modCore_held (s : State) (c : Nat) (f : Core → Core) : (s.modCore c f).held = s.held := rfl
@[simp] theorem modCore_inbox (s : State) (c : Nat) (f : Core → Core) : (s.modCore c f).inbox = s.inbox := rfl
@[simp] theorem modCore_starts (s : State) (c : Nat) (f : Core → Core) : (s.modCore c f).starts = s.starts := rfl
@[simp] theorem modCore_deciding (s : State) (c : Nat) (f : Core → Core) : (s.modCore c f).deciding = s.deciding := rfl
@[simp] theorem modCore_damaged (s : State) (c : Nat) (f : Core → Core) : (s.modCore c f).damaged = s.damaged := rfl
@[simp] theorem modCore_killSt (s : State) (c : Nat) (f : Core → Core) : (s.modCore c f).killSt = s.killSt := rfl
@[simp] theorem modCore_copies (s : State) (c : Nat) (f : Core → Core) : (s.modCore c f).copies = s.copies := rfl
@[simp] theorem modCore_nextId (s : State) (c : Nat) (f : Core → Core) : (s.modCore c f).nextId = s.nextId := rfl
@[simp] theorem modCore_packets (s : State) (c : Nat) (f : Core → Core) : (s.modCore c f).packets = s.packets := rfl
@[simp] theorem modCore_remotes (s : State) (c : Nat) (f : Core → Core) : (s.modCore c f).remotes = s.remotes := rfl
@[simp] theorem modCore_readAt (s : State) (c : Nat) (f : Core → Core) : (s.modCore c f).readAt = s.readAt := rfl
@[simp] theorem modCore_rejected (s : State) (c : Nat) (f : Core → Core) : (s.modCore c f).rejected = s.rejected := rfl
@[simp] theorem modCore_tcFreed (s : State) (c : Nat) (f : Core → Core) : (s.modCore c f).tcFreed = s.tcFreed := rfl
@[simp] theorem modCore_gtracks (s : State) (c : Nat) (f : Core → Core) : (s.modCore c f).gtracks = s.gtracks := rfl
@[simp] theorem modCore_granaryQ (s : State) (c : Nat) (f : Core → Core) : (s.modCore c f).granaryQ = s.granaryQ := rfl
@[simp] theorem modCore_pools (s : State) (c : Nat) (f : Core → Core) : (s.modCore c f).pools = s.pools := rfl
@[simp] theorem modCore_resident (s : State) (c : Nat) (f : Core → Core) : (s.modCore c f).resident = s.resident := rfl
@[simp] theorem modCore_granForm (s : State) (c : Nat) (f : Core → Core) : (s.modCore c f).granForm = s.granForm := rfl
@[simp] theorem modCore_prefetch (s : State) (c : Nat) (f : Core → Core) : (s.modCore c f).prefetch = s.prefetch := rfl
@[simp] theorem modCore_prefetchWait (s : State) (c : Nat) (f : Core → Core) : (s.modCore c f).prefetchWait = s.prefetchWait := rfl
@[simp] theorem modCore_hidden (s : State) (c : Nat) (f : Core → Core) : (s.modCore c f).hidden = s.hidden := rfl
@[simp] theorem modCore_predB (s : State) (c : Nat) (f : Core → Core) : (s.modCore c f).predB = s.predB := rfl
@[simp] theorem modCore_granDrops (s : State) (c : Nat) (f : Core → Core) : (s.modCore c f).granDrops = s.granDrops := rfl
@[simp] theorem modCore_gleanQ (s : State) (c : Nat) (f : Core → Core) : (s.modCore c f).gleanQ = s.gleanQ := rfl
@[simp] theorem modCore_gleans (s : State) (c : Nat) (f : Core → Core) : (s.modCore c f).gleans = s.gleans := rfl
@[simp] theorem modCore_ringCfg (s : State) (c : Nat) (f : Core → Core) : (s.modCore c f).ringCfg = s.ringCfg := rfl
@[simp] theorem modCore_heatCtl (s : State) (c : Nat) (f : Core → Core) : (s.modCore c f).heatCtl = s.heatCtl := rfl
@[simp] theorem modCore_heat (s : State) (c : Nat) (f : Core → Core) : (s.modCore c f).heat = s.heat := rfl
@[simp] theorem modCore_heatPoison (s : State) (c : Nat) (f : Core → Core) : (s.modCore c f).heatPoison = s.heatPoison := rfl
@[simp] theorem modCore_heatCnt (s : State) (c : Nat) (f : Core → Core) : (s.modCore c f).heatCnt = s.heatCnt := rfl
@[simp] theorem modCore_decayAt (s : State) (c : Nat) (f : Core → Core) : (s.modCore c f).decayAt = s.decayAt := rfl
@[simp] theorem modCore_heatDue (s : State) (c : Nat) (f : Core → Core) : (s.modCore c f).heatDue = s.heatDue := rfl
@[simp] theorem modCore_migRing (s : State) (c : Nat) (f : Core → Core) : (s.modCore c f).migRing = s.migRing := rfl
@[simp] theorem modCore_migQ (s : State) (c : Nat) (f : Core → Core) : (s.modCore c f).migQ = s.migQ := rfl
@[simp] theorem modCore_migStall (s : State) (c : Nat) (f : Core → Core) : (s.modCore c f).migStall = s.migStall := rfl
@[simp] theorem modCore_migWait (s : State) (c : Nat) (f : Core → Core) : (s.modCore c f).migWait = s.migWait := rfl
@[simp] theorem modCore_moves (s : State) (c : Nat) (f : Core → Core) : (s.modCore c f).moves = s.moves := rfl
@[simp] theorem modCore_errCnt (s : State) (c : Nat) (f : Core → Core) : (s.modCore c f).errCnt = s.errCnt := rfl
@[simp] theorem modCore_mchk (s : State) (c : Nat) (f : Core → Core) : (s.modCore c f).mchk = s.mchk := rfl
@[simp] theorem modCore_mhead (s : State) (c : Nat) (f : Core → Core) : (s.modCore c f).mhead = s.mhead := rfl
@[simp] theorem modCore_apBase (s : State) (c : Nat) (f : Core → Core) : (s.modCore c f).apBase = s.apBase := rfl
@[simp] theorem modCore_hostData (s : State) (c : Nat) (f : Core → Core) : (s.modCore c f).hostData = s.hostData := rfl
@[simp] theorem modCore_hostErr (s : State) (c : Nat) (f : Core → Core) : (s.modCore c f).hostErr = s.hostErr := rfl
@[simp] theorem modCore_intStat (s : State) (c : Nat) (f : Core → Core) : (s.modCore c f).intStat = s.intStat := rfl
@[simp] theorem modCore_intEn (s : State) (c : Nat) (f : Core → Core) : (s.modCore c f).intEn = s.intEn := rfl
@[simp] theorem modCore_intAgain (s : State) (c : Nat) (f : Core → Core) : (s.modCore c f).intAgain = s.intAgain := rfl
@[simp] theorem modCore_msix (s : State) (c : Nat) (f : Core → Core) : (s.modCore c f).msix = s.msix := rfl
@[simp] theorem modCore_msixTable (s : State) (c : Nat) (f : Core → Core) : (s.modCore c f).msixTable = s.msixTable := rfl
@[simp] theorem modCore_msixPending (s : State) (c : Nat) (f : Core → Core) : (s.modCore c f).msixPending = s.msixPending := rfl
@[simp] theorem modCore_cmpCnt (s : State) (c : Nat) (f : Core → Core) : (s.modCore c f).cmpCnt = s.cmpCnt := rfl
@[simp] theorem modCore_links (s : State) (c : Nat) (f : Core → Core) : (s.modCore c f).links = s.links := rfl
@[simp] theorem modCore_eth (s : State) (c : Nat) (f : Core → Core) : (s.modCore c f).eth = s.eth := rfl
@[simp] theorem modCore_cxl (s : State) (c : Nat) (f : Core → Core) : (s.modCore c f).cxl = s.cxl := rfl
@[simp] theorem modCore_hbmTrained (s : State) (c : Nat) (f : Core → Core) : (s.modCore c f).hbmTrained = s.hbmTrained := rfl
@[simp] theorem modCore_powerCap (s : State) (c : Nat) (f : Core → Core) : (s.modCore c f).powerCap = s.powerCap := rfl
@[simp] theorem modCore_throttle (s : State) (c : Nat) (f : Core → Core) : (s.modCore c f).throttle = s.throttle := rfl
@[simp] theorem modCore_temp (s : State) (c : Nat) (f : Core → Core) : (s.modCore c f).temp = s.temp := rfl
@[simp] theorem modCore_stepAt (s : State) (c : Nat) (f : Core → Core) : (s.modCore c f).stepAt = s.stepAt := rfl
@[simp] theorem modCore_dieHeld (s : State) (c : Nat) (f : Core → Core) : (s.modCore c f).dieHeld = s.dieHeld := rfl
@[simp] theorem modCore_fwVersion (s : State) (c : Nat) (f : Core → Core) : (s.modCore c f).fwVersion = s.fwVersion := rfl
@[simp] theorem modCore_fwRollback (s : State) (c : Nat) (f : Core → Core) : (s.modCore c f).fwRollback = s.fwRollback := rfl
@[simp] theorem modCore_fwImage (s : State) (c : Nat) (f : Core → Core) : (s.modCore c f).fwImage = s.fwImage := rfl
@[simp] theorem modCore_fwFlash (s : State) (c : Nat) (f : Core → Core) : (s.modCore c f).fwFlash = s.fwFlash := rfl
@[simp] theorem modCore_mailbox (s : State) (c : Nat) (f : Core → Core) : (s.modCore c f).mailbox = s.mailbox := rfl
@[simp] theorem modCore_mailAsked (s : State) (c : Nat) (f : Core → Core) : (s.modCore c f).mailAsked = s.mailAsked := rfl

/-! ### modCtx -/

@[simp] theorem modCtx_powered (s : State) (c j : Nat) (f : Ctx → Ctx) : (s.modCtx c j f).powered = s.powered := rfl
@[simp] theorem modCtx_stage (s : State) (c j : Nat) (f : Ctx → Ctx) : (s.modCtx c j f).stage = s.stage := rfl
@[simp] theorem modCtx_mhz (s : State) (c j : Nat) (f : Ctx → Ctx) : (s.modCtx c j f).mhz = s.mhz := rfl
@[simp] theorem modCtx_clk (s : State) (c j : Nat) (f : Ctx → Ctx) : (s.modCtx c j f).clk = s.clk := rfl
@[simp] theorem modCtx_ns (s : State) (c j : Nat) (f : Ctx → Ctx) : (s.modCtx c j f).ns = s.ns := rfl
@[simp] theorem modCtx_tacc (s : State) (c j : Nat) (f : Ctx → Ctx) : (s.modCtx c j f).tacc = s.tacc := rfl
@[simp] theorem modCtx_nsNew (s : State) (c j : Nat) (f : Ctx → Ctx) : (s.modCtx c j f).nsNew = s.nsNew := rfl
@[simp] theorem modCtx_bun (s : State) (c j : Nat) (f : Ctx → Ctx) : (s.modCtx c j f).bun = s.bun := rfl
@[simp] theorem modCtx_pending (s : State) (c j : Nat) (f : Ctx → Ctx) : (s.modCtx c j f).pending = s.pending := rfl
@[simp] theorem modCtx_agenda (s : State) (c j : Nat) (f : Ctx → Ctx) : (s.modCtx c j f).agenda = s.agenda := rfl
@[simp] theorem modCtx_ev (s : State) (c j : Nat) (f : Ctx → Ctx) : (s.modCtx c j f).ev = s.ev := rfl
@[simp] theorem modCtx_free (s : State) (c j : Nat) (f : Ctx → Ctx) : (s.modCtx c j f).free = s.free := rfl
@[simp] theorem modCtx_clusters (s : State) (c j : Nat) (f : Ctx → Ctx) : (s.modCtx c j f).clusters = s.clusters := rfl
@[simp] theorem modCtx_mem (s : State) (c j : Nat) (f : Ctx → Ctx) : (s.modCtx c j f).mem = s.mem := rfl
@[simp] theorem modCtx_poison (s : State) (c j : Nat) (f : Ctx → Ctx) : (s.modCtx c j f).poison = s.poison := rfl
@[simp] theorem modCtx_padPoison (s : State) (c j : Nat) (f : Ctx → Ctx) : (s.modCtx c j f).padPoison = s.padPoison := rfl
@[simp] theorem modCtx_l2 (s : State) (c j : Nat) (f : Ctx → Ctx) : (s.modCtx c j f).l2 = s.l2 := rfl
@[simp] theorem modCtx_cellarLines (s : State) (c j : Nat) (f : Ctx → Ctx) : (s.modCtx c j f).cellarLines = s.cellarLines := rfl
@[simp] theorem modCtx_keyTags (s : State) (c j : Nat) (f : Ctx → Ctx) : (s.modCtx c j f).keyTags = s.keyTags := rfl
@[simp] theorem modCtx_baleBits (s : State) (c j : Nat) (f : Ctx → Ctx) : (s.modCtx c j f).baleBits = s.baleBits := rfl
@[simp] theorem modCtx_versions (s : State) (c j : Nat) (f : Ctx → Ctx) : (s.modCtx c j f).versions = s.versions := rfl
@[simp] theorem modCtx_journal (s : State) (c j : Nat) (f : Ctx → Ctx) : (s.modCtx c j f).journal = s.journal := rfl
@[simp] theorem modCtx_cellarOpen (s : State) (c j : Nat) (f : Ctx → Ctx) : (s.modCtx c j f).cellarOpen = s.cellarOpen := rfl
@[simp] theorem modCtx_rpt (s : State) (c j : Nat) (f : Ctx → Ctx) : (s.modCtx c j f).rpt = s.rpt := rfl
@[simp] theorem modCtx_writeFails (s : State) (c j : Nat) (f : Ctx → Ctx) : (s.modCtx c j f).writeFails = s.writeFails := rfl
@[simp] theorem modCtx_sproot (s : State) (c j : Nat) (f : Ctx → Ctx) : (s.modCtx c j f).sproot = s.sproot := rfl
@[simp] theorem modCtx_wtBase (s : State) (c j : Nat) (f : Ctx → Ctx) : (s.modCtx c j f).wtBase = s.wtBase := rfl
@[simp] theorem modCtx_mcBase (s : State) (c j : Nat) (f : Ctx → Ctx) : (s.modCtx c j f).mcBase = s.mcBase := rfl
@[simp] theorem modCtx_routes (s : State) (c j : Nat) (f : Ctx → Ctx) : (s.modCtx c j f).routes = s.routes := rfl
@[simp] theorem modCtx_rtLoad (s : State) (c j : Nat) (f : Ctx → Ctx) : (s.modCtx c j f).rtLoad = s.rtLoad := rfl
@[simp] theorem modCtx_keyValid (s : State) (c j : Nat) (f : Ctx → Ctx) : (s.modCtx c j f).keyValid = s.keyValid := rfl
@[simp] theorem modCtx_keyHeld (s : State) (c j : Nat) (f : Ctx → Ctx) : (s.modCtx c j f).keyHeld = s.keyHeld := rfl
@[simp] theorem modCtx_keyMb (s : State) (c j : Nat) (f : Ctx → Ctx) : (s.modCtx c j f).keyMb = s.keyMb := rfl
@[simp] theorem modCtx_retired (s : State) (c j : Nat) (f : Ctx → Ctx) : (s.modCtx c j f).retired = s.retired := rfl
@[simp] theorem modCtx_flash (s : State) (c j : Nat) (f : Ctx → Ctx) : (s.modCtx c j f).flash = s.flash := rfl
@[simp] theorem modCtx_retCnt (s : State) (c j : Nat) (f : Ctx → Ctx) : (s.modCtx c j f).retCnt = s.retCnt := rfl
@[simp] theorem modCtx_capGen (s : State) (c j : Nat) (f : Ctx → Ctx) : (s.modCtx c j f).capGen = s.capGen := rfl
@[simp] theorem modCtx_recovery (s : State) (c j : Nat) (f : Ctx → Ctx) : (s.modCtx c j f).recovery = s.recovery := rfl
@[simp] theorem modCtx_dev (s : State) (c j : Nat) (f : Ctx → Ctx) : (s.modCtx c j f).dev = s.dev := rfl
@[simp] theorem modCtx_walks (s : State) (c j : Nat) (f : Ctx → Ctx) : (s.modCtx c j f).walks = s.walks := rfl
@[simp] theorem modCtx_invals (s : State) (c j : Nat) (f : Ctx → Ctx) : (s.modCtx c j f).invals = s.invals := rfl
@[simp] theorem modCtx_replay (s : State) (c j : Nat) (f : Ctx → Ctx) : (s.modCtx c j f).replay = s.replay := rfl
@[simp] theorem modCtx_triggers (s : State) (c j : Nat) (f : Ctx → Ctx) : (s.modCtx c j f).triggers = s.triggers := rfl
@[simp] theorem modCtx_replayNo (s : State) (c j : Nat) (f : Ctx → Ctx) : (s.modCtx c j f).replayNo = s.replayNo := rfl
@[simp] theorem modCtx_tflags (s : State) (c j : Nat) (f : Ctx → Ctx) : (s.modCtx c j f).tflags = s.tflags := rfl
@[simp] theorem modCtx_aq (s : State) (c j : Nat) (f : Ctx → Ctx) : (s.modCtx c j f).aq = s.aq := rfl
@[simp] theorem modCtx_held (s : State) (c j : Nat) (f : Ctx → Ctx) : (s.modCtx c j f).held = s.held := rfl
@[simp] theorem modCtx_inbox (s : State) (c j : Nat) (f : Ctx → Ctx) : (s.modCtx c j f).inbox = s.inbox := rfl
@[simp] theorem modCtx_starts (s : State) (c j : Nat) (f : Ctx → Ctx) : (s.modCtx c j f).starts = s.starts := rfl
@[simp] theorem modCtx_deciding (s : State) (c j : Nat) (f : Ctx → Ctx) : (s.modCtx c j f).deciding = s.deciding := rfl
@[simp] theorem modCtx_damaged (s : State) (c j : Nat) (f : Ctx → Ctx) : (s.modCtx c j f).damaged = s.damaged := rfl
@[simp] theorem modCtx_killSt (s : State) (c j : Nat) (f : Ctx → Ctx) : (s.modCtx c j f).killSt = s.killSt := rfl
@[simp] theorem modCtx_copies (s : State) (c j : Nat) (f : Ctx → Ctx) : (s.modCtx c j f).copies = s.copies := rfl
@[simp] theorem modCtx_nextId (s : State) (c j : Nat) (f : Ctx → Ctx) : (s.modCtx c j f).nextId = s.nextId := rfl
@[simp] theorem modCtx_packets (s : State) (c j : Nat) (f : Ctx → Ctx) : (s.modCtx c j f).packets = s.packets := rfl
@[simp] theorem modCtx_remotes (s : State) (c j : Nat) (f : Ctx → Ctx) : (s.modCtx c j f).remotes = s.remotes := rfl
@[simp] theorem modCtx_readAt (s : State) (c j : Nat) (f : Ctx → Ctx) : (s.modCtx c j f).readAt = s.readAt := rfl
@[simp] theorem modCtx_rejected (s : State) (c j : Nat) (f : Ctx → Ctx) : (s.modCtx c j f).rejected = s.rejected := rfl
@[simp] theorem modCtx_tcFreed (s : State) (c j : Nat) (f : Ctx → Ctx) : (s.modCtx c j f).tcFreed = s.tcFreed := rfl
@[simp] theorem modCtx_gtracks (s : State) (c j : Nat) (f : Ctx → Ctx) : (s.modCtx c j f).gtracks = s.gtracks := rfl
@[simp] theorem modCtx_granaryQ (s : State) (c j : Nat) (f : Ctx → Ctx) : (s.modCtx c j f).granaryQ = s.granaryQ := rfl
@[simp] theorem modCtx_pools (s : State) (c j : Nat) (f : Ctx → Ctx) : (s.modCtx c j f).pools = s.pools := rfl
@[simp] theorem modCtx_resident (s : State) (c j : Nat) (f : Ctx → Ctx) : (s.modCtx c j f).resident = s.resident := rfl
@[simp] theorem modCtx_granForm (s : State) (c j : Nat) (f : Ctx → Ctx) : (s.modCtx c j f).granForm = s.granForm := rfl
@[simp] theorem modCtx_prefetch (s : State) (c j : Nat) (f : Ctx → Ctx) : (s.modCtx c j f).prefetch = s.prefetch := rfl
@[simp] theorem modCtx_prefetchWait (s : State) (c j : Nat) (f : Ctx → Ctx) : (s.modCtx c j f).prefetchWait = s.prefetchWait := rfl
@[simp] theorem modCtx_hidden (s : State) (c j : Nat) (f : Ctx → Ctx) : (s.modCtx c j f).hidden = s.hidden := rfl
@[simp] theorem modCtx_predB (s : State) (c j : Nat) (f : Ctx → Ctx) : (s.modCtx c j f).predB = s.predB := rfl
@[simp] theorem modCtx_granDrops (s : State) (c j : Nat) (f : Ctx → Ctx) : (s.modCtx c j f).granDrops = s.granDrops := rfl
@[simp] theorem modCtx_gleanQ (s : State) (c j : Nat) (f : Ctx → Ctx) : (s.modCtx c j f).gleanQ = s.gleanQ := rfl
@[simp] theorem modCtx_gleans (s : State) (c j : Nat) (f : Ctx → Ctx) : (s.modCtx c j f).gleans = s.gleans := rfl
@[simp] theorem modCtx_ringCfg (s : State) (c j : Nat) (f : Ctx → Ctx) : (s.modCtx c j f).ringCfg = s.ringCfg := rfl
@[simp] theorem modCtx_heatCtl (s : State) (c j : Nat) (f : Ctx → Ctx) : (s.modCtx c j f).heatCtl = s.heatCtl := rfl
@[simp] theorem modCtx_heat (s : State) (c j : Nat) (f : Ctx → Ctx) : (s.modCtx c j f).heat = s.heat := rfl
@[simp] theorem modCtx_heatPoison (s : State) (c j : Nat) (f : Ctx → Ctx) : (s.modCtx c j f).heatPoison = s.heatPoison := rfl
@[simp] theorem modCtx_heatCnt (s : State) (c j : Nat) (f : Ctx → Ctx) : (s.modCtx c j f).heatCnt = s.heatCnt := rfl
@[simp] theorem modCtx_decayAt (s : State) (c j : Nat) (f : Ctx → Ctx) : (s.modCtx c j f).decayAt = s.decayAt := rfl
@[simp] theorem modCtx_heatDue (s : State) (c j : Nat) (f : Ctx → Ctx) : (s.modCtx c j f).heatDue = s.heatDue := rfl
@[simp] theorem modCtx_migRing (s : State) (c j : Nat) (f : Ctx → Ctx) : (s.modCtx c j f).migRing = s.migRing := rfl
@[simp] theorem modCtx_migQ (s : State) (c j : Nat) (f : Ctx → Ctx) : (s.modCtx c j f).migQ = s.migQ := rfl
@[simp] theorem modCtx_migStall (s : State) (c j : Nat) (f : Ctx → Ctx) : (s.modCtx c j f).migStall = s.migStall := rfl
@[simp] theorem modCtx_migWait (s : State) (c j : Nat) (f : Ctx → Ctx) : (s.modCtx c j f).migWait = s.migWait := rfl
@[simp] theorem modCtx_moves (s : State) (c j : Nat) (f : Ctx → Ctx) : (s.modCtx c j f).moves = s.moves := rfl
@[simp] theorem modCtx_errCnt (s : State) (c j : Nat) (f : Ctx → Ctx) : (s.modCtx c j f).errCnt = s.errCnt := rfl
@[simp] theorem modCtx_mchk (s : State) (c j : Nat) (f : Ctx → Ctx) : (s.modCtx c j f).mchk = s.mchk := rfl
@[simp] theorem modCtx_mhead (s : State) (c j : Nat) (f : Ctx → Ctx) : (s.modCtx c j f).mhead = s.mhead := rfl
@[simp] theorem modCtx_apBase (s : State) (c j : Nat) (f : Ctx → Ctx) : (s.modCtx c j f).apBase = s.apBase := rfl
@[simp] theorem modCtx_hostData (s : State) (c j : Nat) (f : Ctx → Ctx) : (s.modCtx c j f).hostData = s.hostData := rfl
@[simp] theorem modCtx_hostErr (s : State) (c j : Nat) (f : Ctx → Ctx) : (s.modCtx c j f).hostErr = s.hostErr := rfl
@[simp] theorem modCtx_intStat (s : State) (c j : Nat) (f : Ctx → Ctx) : (s.modCtx c j f).intStat = s.intStat := rfl
@[simp] theorem modCtx_intEn (s : State) (c j : Nat) (f : Ctx → Ctx) : (s.modCtx c j f).intEn = s.intEn := rfl
@[simp] theorem modCtx_intAgain (s : State) (c j : Nat) (f : Ctx → Ctx) : (s.modCtx c j f).intAgain = s.intAgain := rfl
@[simp] theorem modCtx_msix (s : State) (c j : Nat) (f : Ctx → Ctx) : (s.modCtx c j f).msix = s.msix := rfl
@[simp] theorem modCtx_msixTable (s : State) (c j : Nat) (f : Ctx → Ctx) : (s.modCtx c j f).msixTable = s.msixTable := rfl
@[simp] theorem modCtx_msixPending (s : State) (c j : Nat) (f : Ctx → Ctx) : (s.modCtx c j f).msixPending = s.msixPending := rfl
@[simp] theorem modCtx_cmpCnt (s : State) (c j : Nat) (f : Ctx → Ctx) : (s.modCtx c j f).cmpCnt = s.cmpCnt := rfl
@[simp] theorem modCtx_links (s : State) (c j : Nat) (f : Ctx → Ctx) : (s.modCtx c j f).links = s.links := rfl
@[simp] theorem modCtx_eth (s : State) (c j : Nat) (f : Ctx → Ctx) : (s.modCtx c j f).eth = s.eth := rfl
@[simp] theorem modCtx_cxl (s : State) (c j : Nat) (f : Ctx → Ctx) : (s.modCtx c j f).cxl = s.cxl := rfl
@[simp] theorem modCtx_hbmTrained (s : State) (c j : Nat) (f : Ctx → Ctx) : (s.modCtx c j f).hbmTrained = s.hbmTrained := rfl
@[simp] theorem modCtx_powerCap (s : State) (c j : Nat) (f : Ctx → Ctx) : (s.modCtx c j f).powerCap = s.powerCap := rfl
@[simp] theorem modCtx_throttle (s : State) (c j : Nat) (f : Ctx → Ctx) : (s.modCtx c j f).throttle = s.throttle := rfl
@[simp] theorem modCtx_temp (s : State) (c j : Nat) (f : Ctx → Ctx) : (s.modCtx c j f).temp = s.temp := rfl
@[simp] theorem modCtx_stepAt (s : State) (c j : Nat) (f : Ctx → Ctx) : (s.modCtx c j f).stepAt = s.stepAt := rfl
@[simp] theorem modCtx_dieHeld (s : State) (c j : Nat) (f : Ctx → Ctx) : (s.modCtx c j f).dieHeld = s.dieHeld := rfl
@[simp] theorem modCtx_fwVersion (s : State) (c j : Nat) (f : Ctx → Ctx) : (s.modCtx c j f).fwVersion = s.fwVersion := rfl
@[simp] theorem modCtx_fwRollback (s : State) (c j : Nat) (f : Ctx → Ctx) : (s.modCtx c j f).fwRollback = s.fwRollback := rfl
@[simp] theorem modCtx_fwImage (s : State) (c j : Nat) (f : Ctx → Ctx) : (s.modCtx c j f).fwImage = s.fwImage := rfl
@[simp] theorem modCtx_fwFlash (s : State) (c j : Nat) (f : Ctx → Ctx) : (s.modCtx c j f).fwFlash = s.fwFlash := rfl
@[simp] theorem modCtx_mailbox (s : State) (c j : Nat) (f : Ctx → Ctx) : (s.modCtx c j f).mailbox = s.mailbox := rfl
@[simp] theorem modCtx_mailAsked (s : State) (c j : Nat) (f : Ctx → Ctx) : (s.modCtx c j f).mailAsked = s.mailAsked := rfl

/-! ### modCluster -/

@[simp] theorem modCluster_powered (s : State) (c : Nat) (f : Cluster → Cluster) : (s.modCluster c f).powered = s.powered := rfl
@[simp] theorem modCluster_stage (s : State) (c : Nat) (f : Cluster → Cluster) : (s.modCluster c f).stage = s.stage := rfl
@[simp] theorem modCluster_mhz (s : State) (c : Nat) (f : Cluster → Cluster) : (s.modCluster c f).mhz = s.mhz := rfl
@[simp] theorem modCluster_clk (s : State) (c : Nat) (f : Cluster → Cluster) : (s.modCluster c f).clk = s.clk := rfl
@[simp] theorem modCluster_ns (s : State) (c : Nat) (f : Cluster → Cluster) : (s.modCluster c f).ns = s.ns := rfl
@[simp] theorem modCluster_tacc (s : State) (c : Nat) (f : Cluster → Cluster) : (s.modCluster c f).tacc = s.tacc := rfl
@[simp] theorem modCluster_nsNew (s : State) (c : Nat) (f : Cluster → Cluster) : (s.modCluster c f).nsNew = s.nsNew := rfl
@[simp] theorem modCluster_bun (s : State) (c : Nat) (f : Cluster → Cluster) : (s.modCluster c f).bun = s.bun := rfl
@[simp] theorem modCluster_pending (s : State) (c : Nat) (f : Cluster → Cluster) : (s.modCluster c f).pending = s.pending := rfl
@[simp] theorem modCluster_agenda (s : State) (c : Nat) (f : Cluster → Cluster) : (s.modCluster c f).agenda = s.agenda := rfl
@[simp] theorem modCluster_ev (s : State) (c : Nat) (f : Cluster → Cluster) : (s.modCluster c f).ev = s.ev := rfl
@[simp] theorem modCluster_free (s : State) (c : Nat) (f : Cluster → Cluster) : (s.modCluster c f).free = s.free := rfl
@[simp] theorem modCluster_cores (s : State) (c : Nat) (f : Cluster → Cluster) : (s.modCluster c f).cores = s.cores := rfl
@[simp] theorem modCluster_mem (s : State) (c : Nat) (f : Cluster → Cluster) : (s.modCluster c f).mem = s.mem := rfl
@[simp] theorem modCluster_poison (s : State) (c : Nat) (f : Cluster → Cluster) : (s.modCluster c f).poison = s.poison := rfl
@[simp] theorem modCluster_padPoison (s : State) (c : Nat) (f : Cluster → Cluster) : (s.modCluster c f).padPoison = s.padPoison := rfl
@[simp] theorem modCluster_l2 (s : State) (c : Nat) (f : Cluster → Cluster) : (s.modCluster c f).l2 = s.l2 := rfl
@[simp] theorem modCluster_cellarLines (s : State) (c : Nat) (f : Cluster → Cluster) : (s.modCluster c f).cellarLines = s.cellarLines := rfl
@[simp] theorem modCluster_keyTags (s : State) (c : Nat) (f : Cluster → Cluster) : (s.modCluster c f).keyTags = s.keyTags := rfl
@[simp] theorem modCluster_baleBits (s : State) (c : Nat) (f : Cluster → Cluster) : (s.modCluster c f).baleBits = s.baleBits := rfl
@[simp] theorem modCluster_versions (s : State) (c : Nat) (f : Cluster → Cluster) : (s.modCluster c f).versions = s.versions := rfl
@[simp] theorem modCluster_journal (s : State) (c : Nat) (f : Cluster → Cluster) : (s.modCluster c f).journal = s.journal := rfl
@[simp] theorem modCluster_cellarOpen (s : State) (c : Nat) (f : Cluster → Cluster) : (s.modCluster c f).cellarOpen = s.cellarOpen := rfl
@[simp] theorem modCluster_rpt (s : State) (c : Nat) (f : Cluster → Cluster) : (s.modCluster c f).rpt = s.rpt := rfl
@[simp] theorem modCluster_writeFails (s : State) (c : Nat) (f : Cluster → Cluster) : (s.modCluster c f).writeFails = s.writeFails := rfl
@[simp] theorem modCluster_sproot (s : State) (c : Nat) (f : Cluster → Cluster) : (s.modCluster c f).sproot = s.sproot := rfl
@[simp] theorem modCluster_wtBase (s : State) (c : Nat) (f : Cluster → Cluster) : (s.modCluster c f).wtBase = s.wtBase := rfl
@[simp] theorem modCluster_mcBase (s : State) (c : Nat) (f : Cluster → Cluster) : (s.modCluster c f).mcBase = s.mcBase := rfl
@[simp] theorem modCluster_routes (s : State) (c : Nat) (f : Cluster → Cluster) : (s.modCluster c f).routes = s.routes := rfl
@[simp] theorem modCluster_rtLoad (s : State) (c : Nat) (f : Cluster → Cluster) : (s.modCluster c f).rtLoad = s.rtLoad := rfl
@[simp] theorem modCluster_keyValid (s : State) (c : Nat) (f : Cluster → Cluster) : (s.modCluster c f).keyValid = s.keyValid := rfl
@[simp] theorem modCluster_keyHeld (s : State) (c : Nat) (f : Cluster → Cluster) : (s.modCluster c f).keyHeld = s.keyHeld := rfl
@[simp] theorem modCluster_keyMb (s : State) (c : Nat) (f : Cluster → Cluster) : (s.modCluster c f).keyMb = s.keyMb := rfl
@[simp] theorem modCluster_retired (s : State) (c : Nat) (f : Cluster → Cluster) : (s.modCluster c f).retired = s.retired := rfl
@[simp] theorem modCluster_flash (s : State) (c : Nat) (f : Cluster → Cluster) : (s.modCluster c f).flash = s.flash := rfl
@[simp] theorem modCluster_retCnt (s : State) (c : Nat) (f : Cluster → Cluster) : (s.modCluster c f).retCnt = s.retCnt := rfl
@[simp] theorem modCluster_capGen (s : State) (c : Nat) (f : Cluster → Cluster) : (s.modCluster c f).capGen = s.capGen := rfl
@[simp] theorem modCluster_recovery (s : State) (c : Nat) (f : Cluster → Cluster) : (s.modCluster c f).recovery = s.recovery := rfl
@[simp] theorem modCluster_dev (s : State) (c : Nat) (f : Cluster → Cluster) : (s.modCluster c f).dev = s.dev := rfl
@[simp] theorem modCluster_walks (s : State) (c : Nat) (f : Cluster → Cluster) : (s.modCluster c f).walks = s.walks := rfl
@[simp] theorem modCluster_invals (s : State) (c : Nat) (f : Cluster → Cluster) : (s.modCluster c f).invals = s.invals := rfl
@[simp] theorem modCluster_replay (s : State) (c : Nat) (f : Cluster → Cluster) : (s.modCluster c f).replay = s.replay := rfl
@[simp] theorem modCluster_triggers (s : State) (c : Nat) (f : Cluster → Cluster) : (s.modCluster c f).triggers = s.triggers := rfl
@[simp] theorem modCluster_replayNo (s : State) (c : Nat) (f : Cluster → Cluster) : (s.modCluster c f).replayNo = s.replayNo := rfl
@[simp] theorem modCluster_tflags (s : State) (c : Nat) (f : Cluster → Cluster) : (s.modCluster c f).tflags = s.tflags := rfl
@[simp] theorem modCluster_aq (s : State) (c : Nat) (f : Cluster → Cluster) : (s.modCluster c f).aq = s.aq := rfl
@[simp] theorem modCluster_held (s : State) (c : Nat) (f : Cluster → Cluster) : (s.modCluster c f).held = s.held := rfl
@[simp] theorem modCluster_inbox (s : State) (c : Nat) (f : Cluster → Cluster) : (s.modCluster c f).inbox = s.inbox := rfl
@[simp] theorem modCluster_starts (s : State) (c : Nat) (f : Cluster → Cluster) : (s.modCluster c f).starts = s.starts := rfl
@[simp] theorem modCluster_deciding (s : State) (c : Nat) (f : Cluster → Cluster) : (s.modCluster c f).deciding = s.deciding := rfl
@[simp] theorem modCluster_damaged (s : State) (c : Nat) (f : Cluster → Cluster) : (s.modCluster c f).damaged = s.damaged := rfl
@[simp] theorem modCluster_killSt (s : State) (c : Nat) (f : Cluster → Cluster) : (s.modCluster c f).killSt = s.killSt := rfl
@[simp] theorem modCluster_copies (s : State) (c : Nat) (f : Cluster → Cluster) : (s.modCluster c f).copies = s.copies := rfl
@[simp] theorem modCluster_nextId (s : State) (c : Nat) (f : Cluster → Cluster) : (s.modCluster c f).nextId = s.nextId := rfl
@[simp] theorem modCluster_packets (s : State) (c : Nat) (f : Cluster → Cluster) : (s.modCluster c f).packets = s.packets := rfl
@[simp] theorem modCluster_remotes (s : State) (c : Nat) (f : Cluster → Cluster) : (s.modCluster c f).remotes = s.remotes := rfl
@[simp] theorem modCluster_readAt (s : State) (c : Nat) (f : Cluster → Cluster) : (s.modCluster c f).readAt = s.readAt := rfl
@[simp] theorem modCluster_rejected (s : State) (c : Nat) (f : Cluster → Cluster) : (s.modCluster c f).rejected = s.rejected := rfl
@[simp] theorem modCluster_tcFreed (s : State) (c : Nat) (f : Cluster → Cluster) : (s.modCluster c f).tcFreed = s.tcFreed := rfl
@[simp] theorem modCluster_gtracks (s : State) (c : Nat) (f : Cluster → Cluster) : (s.modCluster c f).gtracks = s.gtracks := rfl
@[simp] theorem modCluster_granaryQ (s : State) (c : Nat) (f : Cluster → Cluster) : (s.modCluster c f).granaryQ = s.granaryQ := rfl
@[simp] theorem modCluster_pools (s : State) (c : Nat) (f : Cluster → Cluster) : (s.modCluster c f).pools = s.pools := rfl
@[simp] theorem modCluster_resident (s : State) (c : Nat) (f : Cluster → Cluster) : (s.modCluster c f).resident = s.resident := rfl
@[simp] theorem modCluster_granForm (s : State) (c : Nat) (f : Cluster → Cluster) : (s.modCluster c f).granForm = s.granForm := rfl
@[simp] theorem modCluster_prefetch (s : State) (c : Nat) (f : Cluster → Cluster) : (s.modCluster c f).prefetch = s.prefetch := rfl
@[simp] theorem modCluster_prefetchWait (s : State) (c : Nat) (f : Cluster → Cluster) : (s.modCluster c f).prefetchWait = s.prefetchWait := rfl
@[simp] theorem modCluster_hidden (s : State) (c : Nat) (f : Cluster → Cluster) : (s.modCluster c f).hidden = s.hidden := rfl
@[simp] theorem modCluster_predB (s : State) (c : Nat) (f : Cluster → Cluster) : (s.modCluster c f).predB = s.predB := rfl
@[simp] theorem modCluster_granDrops (s : State) (c : Nat) (f : Cluster → Cluster) : (s.modCluster c f).granDrops = s.granDrops := rfl
@[simp] theorem modCluster_gleanQ (s : State) (c : Nat) (f : Cluster → Cluster) : (s.modCluster c f).gleanQ = s.gleanQ := rfl
@[simp] theorem modCluster_gleans (s : State) (c : Nat) (f : Cluster → Cluster) : (s.modCluster c f).gleans = s.gleans := rfl
@[simp] theorem modCluster_ringCfg (s : State) (c : Nat) (f : Cluster → Cluster) : (s.modCluster c f).ringCfg = s.ringCfg := rfl
@[simp] theorem modCluster_heatCtl (s : State) (c : Nat) (f : Cluster → Cluster) : (s.modCluster c f).heatCtl = s.heatCtl := rfl
@[simp] theorem modCluster_heat (s : State) (c : Nat) (f : Cluster → Cluster) : (s.modCluster c f).heat = s.heat := rfl
@[simp] theorem modCluster_heatPoison (s : State) (c : Nat) (f : Cluster → Cluster) : (s.modCluster c f).heatPoison = s.heatPoison := rfl
@[simp] theorem modCluster_heatCnt (s : State) (c : Nat) (f : Cluster → Cluster) : (s.modCluster c f).heatCnt = s.heatCnt := rfl
@[simp] theorem modCluster_decayAt (s : State) (c : Nat) (f : Cluster → Cluster) : (s.modCluster c f).decayAt = s.decayAt := rfl
@[simp] theorem modCluster_heatDue (s : State) (c : Nat) (f : Cluster → Cluster) : (s.modCluster c f).heatDue = s.heatDue := rfl
@[simp] theorem modCluster_migRing (s : State) (c : Nat) (f : Cluster → Cluster) : (s.modCluster c f).migRing = s.migRing := rfl
@[simp] theorem modCluster_migQ (s : State) (c : Nat) (f : Cluster → Cluster) : (s.modCluster c f).migQ = s.migQ := rfl
@[simp] theorem modCluster_migStall (s : State) (c : Nat) (f : Cluster → Cluster) : (s.modCluster c f).migStall = s.migStall := rfl
@[simp] theorem modCluster_migWait (s : State) (c : Nat) (f : Cluster → Cluster) : (s.modCluster c f).migWait = s.migWait := rfl
@[simp] theorem modCluster_moves (s : State) (c : Nat) (f : Cluster → Cluster) : (s.modCluster c f).moves = s.moves := rfl
@[simp] theorem modCluster_errCnt (s : State) (c : Nat) (f : Cluster → Cluster) : (s.modCluster c f).errCnt = s.errCnt := rfl
@[simp] theorem modCluster_mchk (s : State) (c : Nat) (f : Cluster → Cluster) : (s.modCluster c f).mchk = s.mchk := rfl
@[simp] theorem modCluster_mhead (s : State) (c : Nat) (f : Cluster → Cluster) : (s.modCluster c f).mhead = s.mhead := rfl
@[simp] theorem modCluster_apBase (s : State) (c : Nat) (f : Cluster → Cluster) : (s.modCluster c f).apBase = s.apBase := rfl
@[simp] theorem modCluster_hostData (s : State) (c : Nat) (f : Cluster → Cluster) : (s.modCluster c f).hostData = s.hostData := rfl
@[simp] theorem modCluster_hostErr (s : State) (c : Nat) (f : Cluster → Cluster) : (s.modCluster c f).hostErr = s.hostErr := rfl
@[simp] theorem modCluster_intStat (s : State) (c : Nat) (f : Cluster → Cluster) : (s.modCluster c f).intStat = s.intStat := rfl
@[simp] theorem modCluster_intEn (s : State) (c : Nat) (f : Cluster → Cluster) : (s.modCluster c f).intEn = s.intEn := rfl
@[simp] theorem modCluster_intAgain (s : State) (c : Nat) (f : Cluster → Cluster) : (s.modCluster c f).intAgain = s.intAgain := rfl
@[simp] theorem modCluster_msix (s : State) (c : Nat) (f : Cluster → Cluster) : (s.modCluster c f).msix = s.msix := rfl
@[simp] theorem modCluster_msixTable (s : State) (c : Nat) (f : Cluster → Cluster) : (s.modCluster c f).msixTable = s.msixTable := rfl
@[simp] theorem modCluster_msixPending (s : State) (c : Nat) (f : Cluster → Cluster) : (s.modCluster c f).msixPending = s.msixPending := rfl
@[simp] theorem modCluster_cmpCnt (s : State) (c : Nat) (f : Cluster → Cluster) : (s.modCluster c f).cmpCnt = s.cmpCnt := rfl
@[simp] theorem modCluster_links (s : State) (c : Nat) (f : Cluster → Cluster) : (s.modCluster c f).links = s.links := rfl
@[simp] theorem modCluster_eth (s : State) (c : Nat) (f : Cluster → Cluster) : (s.modCluster c f).eth = s.eth := rfl
@[simp] theorem modCluster_cxl (s : State) (c : Nat) (f : Cluster → Cluster) : (s.modCluster c f).cxl = s.cxl := rfl
@[simp] theorem modCluster_hbmTrained (s : State) (c : Nat) (f : Cluster → Cluster) : (s.modCluster c f).hbmTrained = s.hbmTrained := rfl
@[simp] theorem modCluster_powerCap (s : State) (c : Nat) (f : Cluster → Cluster) : (s.modCluster c f).powerCap = s.powerCap := rfl
@[simp] theorem modCluster_throttle (s : State) (c : Nat) (f : Cluster → Cluster) : (s.modCluster c f).throttle = s.throttle := rfl
@[simp] theorem modCluster_temp (s : State) (c : Nat) (f : Cluster → Cluster) : (s.modCluster c f).temp = s.temp := rfl
@[simp] theorem modCluster_stepAt (s : State) (c : Nat) (f : Cluster → Cluster) : (s.modCluster c f).stepAt = s.stepAt := rfl
@[simp] theorem modCluster_dieHeld (s : State) (c : Nat) (f : Cluster → Cluster) : (s.modCluster c f).dieHeld = s.dieHeld := rfl
@[simp] theorem modCluster_fwVersion (s : State) (c : Nat) (f : Cluster → Cluster) : (s.modCluster c f).fwVersion = s.fwVersion := rfl
@[simp] theorem modCluster_fwRollback (s : State) (c : Nat) (f : Cluster → Cluster) : (s.modCluster c f).fwRollback = s.fwRollback := rfl
@[simp] theorem modCluster_fwImage (s : State) (c : Nat) (f : Cluster → Cluster) : (s.modCluster c f).fwImage = s.fwImage := rfl
@[simp] theorem modCluster_fwFlash (s : State) (c : Nat) (f : Cluster → Cluster) : (s.modCluster c f).fwFlash = s.fwFlash := rfl
@[simp] theorem modCluster_mailbox (s : State) (c : Nat) (f : Cluster → Cluster) : (s.modCluster c f).mailbox = s.mailbox := rfl
@[simp] theorem modCluster_mailAsked (s : State) (c : Nat) (f : Cluster → Cluster) : (s.modCluster c f).mailAsked = s.mailAsked := rfl

/-! ### Draws -/

@[simp] theorem drawNat_powered (s : State) : s.drawNat.2.powered = s.powered := rfl
@[simp] theorem drawNat_stage (s : State) : s.drawNat.2.stage = s.stage := rfl
@[simp] theorem drawNat_mhz (s : State) : s.drawNat.2.mhz = s.mhz := rfl
@[simp] theorem drawNat_clk (s : State) : s.drawNat.2.clk = s.clk := rfl
@[simp] theorem drawNat_ns (s : State) : s.drawNat.2.ns = s.ns := rfl
@[simp] theorem drawNat_tacc (s : State) : s.drawNat.2.tacc = s.tacc := rfl
@[simp] theorem drawNat_nsNew (s : State) : s.drawNat.2.nsNew = s.nsNew := rfl
@[simp] theorem drawNat_bun (s : State) : s.drawNat.2.bun = s.bun := rfl
@[simp] theorem drawNat_pending (s : State) : s.drawNat.2.pending = s.pending := rfl
@[simp] theorem drawNat_agenda (s : State) : s.drawNat.2.agenda = s.agenda := rfl
@[simp] theorem drawNat_ev (s : State) : s.drawNat.2.ev = s.ev := rfl
@[simp] theorem drawNat_cores (s : State) : s.drawNat.2.cores = s.cores := rfl
@[simp] theorem drawNat_clusters (s : State) : s.drawNat.2.clusters = s.clusters := rfl
@[simp] theorem drawNat_mem (s : State) : s.drawNat.2.mem = s.mem := rfl
@[simp] theorem drawNat_poison (s : State) : s.drawNat.2.poison = s.poison := rfl
@[simp] theorem drawNat_padPoison (s : State) : s.drawNat.2.padPoison = s.padPoison := rfl
@[simp] theorem drawNat_l2 (s : State) : s.drawNat.2.l2 = s.l2 := rfl
@[simp] theorem drawNat_cellarLines (s : State) : s.drawNat.2.cellarLines = s.cellarLines := rfl
@[simp] theorem drawNat_keyTags (s : State) : s.drawNat.2.keyTags = s.keyTags := rfl
@[simp] theorem drawNat_baleBits (s : State) : s.drawNat.2.baleBits = s.baleBits := rfl
@[simp] theorem drawNat_versions (s : State) : s.drawNat.2.versions = s.versions := rfl
@[simp] theorem drawNat_journal (s : State) : s.drawNat.2.journal = s.journal := rfl
@[simp] theorem drawNat_cellarOpen (s : State) : s.drawNat.2.cellarOpen = s.cellarOpen := rfl
@[simp] theorem drawNat_rpt (s : State) : s.drawNat.2.rpt = s.rpt := rfl
@[simp] theorem drawNat_writeFails (s : State) : s.drawNat.2.writeFails = s.writeFails := rfl
@[simp] theorem drawNat_sproot (s : State) : s.drawNat.2.sproot = s.sproot := rfl
@[simp] theorem drawNat_wtBase (s : State) : s.drawNat.2.wtBase = s.wtBase := rfl
@[simp] theorem drawNat_mcBase (s : State) : s.drawNat.2.mcBase = s.mcBase := rfl
@[simp] theorem drawNat_routes (s : State) : s.drawNat.2.routes = s.routes := rfl
@[simp] theorem drawNat_rtLoad (s : State) : s.drawNat.2.rtLoad = s.rtLoad := rfl
@[simp] theorem drawNat_keyValid (s : State) : s.drawNat.2.keyValid = s.keyValid := rfl
@[simp] theorem drawNat_keyHeld (s : State) : s.drawNat.2.keyHeld = s.keyHeld := rfl
@[simp] theorem drawNat_keyMb (s : State) : s.drawNat.2.keyMb = s.keyMb := rfl
@[simp] theorem drawNat_retired (s : State) : s.drawNat.2.retired = s.retired := rfl
@[simp] theorem drawNat_flash (s : State) : s.drawNat.2.flash = s.flash := rfl
@[simp] theorem drawNat_retCnt (s : State) : s.drawNat.2.retCnt = s.retCnt := rfl
@[simp] theorem drawNat_capGen (s : State) : s.drawNat.2.capGen = s.capGen := rfl
@[simp] theorem drawNat_recovery (s : State) : s.drawNat.2.recovery = s.recovery := rfl
@[simp] theorem drawNat_dev (s : State) : s.drawNat.2.dev = s.dev := rfl
@[simp] theorem drawNat_walks (s : State) : s.drawNat.2.walks = s.walks := rfl
@[simp] theorem drawNat_invals (s : State) : s.drawNat.2.invals = s.invals := rfl
@[simp] theorem drawNat_replay (s : State) : s.drawNat.2.replay = s.replay := rfl
@[simp] theorem drawNat_triggers (s : State) : s.drawNat.2.triggers = s.triggers := rfl
@[simp] theorem drawNat_replayNo (s : State) : s.drawNat.2.replayNo = s.replayNo := rfl
@[simp] theorem drawNat_tflags (s : State) : s.drawNat.2.tflags = s.tflags := rfl
@[simp] theorem drawNat_aq (s : State) : s.drawNat.2.aq = s.aq := rfl
@[simp] theorem drawNat_held (s : State) : s.drawNat.2.held = s.held := rfl
@[simp] theorem drawNat_inbox (s : State) : s.drawNat.2.inbox = s.inbox := rfl
@[simp] theorem drawNat_starts (s : State) : s.drawNat.2.starts = s.starts := rfl
@[simp] theorem drawNat_deciding (s : State) : s.drawNat.2.deciding = s.deciding := rfl
@[simp] theorem drawNat_damaged (s : State) : s.drawNat.2.damaged = s.damaged := rfl
@[simp] theorem drawNat_killSt (s : State) : s.drawNat.2.killSt = s.killSt := rfl
@[simp] theorem drawNat_copies (s : State) : s.drawNat.2.copies = s.copies := rfl
@[simp] theorem drawNat_nextId (s : State) : s.drawNat.2.nextId = s.nextId := rfl
@[simp] theorem drawNat_packets (s : State) : s.drawNat.2.packets = s.packets := rfl
@[simp] theorem drawNat_remotes (s : State) : s.drawNat.2.remotes = s.remotes := rfl
@[simp] theorem drawNat_readAt (s : State) : s.drawNat.2.readAt = s.readAt := rfl
@[simp] theorem drawNat_rejected (s : State) : s.drawNat.2.rejected = s.rejected := rfl
@[simp] theorem drawNat_tcFreed (s : State) : s.drawNat.2.tcFreed = s.tcFreed := rfl
@[simp] theorem drawNat_gtracks (s : State) : s.drawNat.2.gtracks = s.gtracks := rfl
@[simp] theorem drawNat_granaryQ (s : State) : s.drawNat.2.granaryQ = s.granaryQ := rfl
@[simp] theorem drawNat_pools (s : State) : s.drawNat.2.pools = s.pools := rfl
@[simp] theorem drawNat_resident (s : State) : s.drawNat.2.resident = s.resident := rfl
@[simp] theorem drawNat_granForm (s : State) : s.drawNat.2.granForm = s.granForm := rfl
@[simp] theorem drawNat_prefetch (s : State) : s.drawNat.2.prefetch = s.prefetch := rfl
@[simp] theorem drawNat_prefetchWait (s : State) : s.drawNat.2.prefetchWait = s.prefetchWait := rfl
@[simp] theorem drawNat_hidden (s : State) : s.drawNat.2.hidden = s.hidden := rfl
@[simp] theorem drawNat_predB (s : State) : s.drawNat.2.predB = s.predB := rfl
@[simp] theorem drawNat_granDrops (s : State) : s.drawNat.2.granDrops = s.granDrops := rfl
@[simp] theorem drawNat_gleanQ (s : State) : s.drawNat.2.gleanQ = s.gleanQ := rfl
@[simp] theorem drawNat_gleans (s : State) : s.drawNat.2.gleans = s.gleans := rfl
@[simp] theorem drawNat_ringCfg (s : State) : s.drawNat.2.ringCfg = s.ringCfg := rfl
@[simp] theorem drawNat_heatCtl (s : State) : s.drawNat.2.heatCtl = s.heatCtl := rfl
@[simp] theorem drawNat_heat (s : State) : s.drawNat.2.heat = s.heat := rfl
@[simp] theorem drawNat_heatPoison (s : State) : s.drawNat.2.heatPoison = s.heatPoison := rfl
@[simp] theorem drawNat_heatCnt (s : State) : s.drawNat.2.heatCnt = s.heatCnt := rfl
@[simp] theorem drawNat_decayAt (s : State) : s.drawNat.2.decayAt = s.decayAt := rfl
@[simp] theorem drawNat_heatDue (s : State) : s.drawNat.2.heatDue = s.heatDue := rfl
@[simp] theorem drawNat_migRing (s : State) : s.drawNat.2.migRing = s.migRing := rfl
@[simp] theorem drawNat_migQ (s : State) : s.drawNat.2.migQ = s.migQ := rfl
@[simp] theorem drawNat_migStall (s : State) : s.drawNat.2.migStall = s.migStall := rfl
@[simp] theorem drawNat_migWait (s : State) : s.drawNat.2.migWait = s.migWait := rfl
@[simp] theorem drawNat_moves (s : State) : s.drawNat.2.moves = s.moves := rfl
@[simp] theorem drawNat_errCnt (s : State) : s.drawNat.2.errCnt = s.errCnt := rfl
@[simp] theorem drawNat_mchk (s : State) : s.drawNat.2.mchk = s.mchk := rfl
@[simp] theorem drawNat_mhead (s : State) : s.drawNat.2.mhead = s.mhead := rfl
@[simp] theorem drawNat_apBase (s : State) : s.drawNat.2.apBase = s.apBase := rfl
@[simp] theorem drawNat_hostData (s : State) : s.drawNat.2.hostData = s.hostData := rfl
@[simp] theorem drawNat_hostErr (s : State) : s.drawNat.2.hostErr = s.hostErr := rfl
@[simp] theorem drawNat_intStat (s : State) : s.drawNat.2.intStat = s.intStat := rfl
@[simp] theorem drawNat_intEn (s : State) : s.drawNat.2.intEn = s.intEn := rfl
@[simp] theorem drawNat_intAgain (s : State) : s.drawNat.2.intAgain = s.intAgain := rfl
@[simp] theorem drawNat_msix (s : State) : s.drawNat.2.msix = s.msix := rfl
@[simp] theorem drawNat_msixTable (s : State) : s.drawNat.2.msixTable = s.msixTable := rfl
@[simp] theorem drawNat_msixPending (s : State) : s.drawNat.2.msixPending = s.msixPending := rfl
@[simp] theorem drawNat_cmpCnt (s : State) : s.drawNat.2.cmpCnt = s.cmpCnt := rfl
@[simp] theorem drawNat_links (s : State) : s.drawNat.2.links = s.links := rfl
@[simp] theorem drawNat_eth (s : State) : s.drawNat.2.eth = s.eth := rfl
@[simp] theorem drawNat_cxl (s : State) : s.drawNat.2.cxl = s.cxl := rfl
@[simp] theorem drawNat_hbmTrained (s : State) : s.drawNat.2.hbmTrained = s.hbmTrained := rfl
@[simp] theorem drawNat_powerCap (s : State) : s.drawNat.2.powerCap = s.powerCap := rfl
@[simp] theorem drawNat_throttle (s : State) : s.drawNat.2.throttle = s.throttle := rfl
@[simp] theorem drawNat_temp (s : State) : s.drawNat.2.temp = s.temp := rfl
@[simp] theorem drawNat_stepAt (s : State) : s.drawNat.2.stepAt = s.stepAt := rfl
@[simp] theorem drawNat_dieHeld (s : State) : s.drawNat.2.dieHeld = s.dieHeld := rfl
@[simp] theorem drawNat_fwVersion (s : State) : s.drawNat.2.fwVersion = s.fwVersion := rfl
@[simp] theorem drawNat_fwRollback (s : State) : s.drawNat.2.fwRollback = s.fwRollback := rfl
@[simp] theorem drawNat_fwImage (s : State) : s.drawNat.2.fwImage = s.fwImage := rfl
@[simp] theorem drawNat_fwFlash (s : State) : s.drawNat.2.fwFlash = s.fwFlash := rfl
@[simp] theorem drawNat_mailbox (s : State) : s.drawNat.2.mailbox = s.mailbox := rfl
@[simp] theorem drawNat_mailAsked (s : State) : s.drawNat.2.mailAsked = s.mailAsked := rfl
@[simp] theorem drawNat_free (s : State) : s.drawNat.2.free = s.free + 1 := rfl

/-! ### What is written -/

@[simp] theorem emit_effs (s : State) (e : Eff) : (s.emit e).bun.effs = s.bun.effs ++ [e] := rfl
@[simp] theorem emit_trap (s : State) (e : Eff) : (s.emit e).bun.trap = s.bun.trap := rfl
@[simp] theorem emit_hold (s : State) (e : Eff) : (s.emit e).bun.hold = s.bun.hold := rfl
@[simp] theorem emit_words (s : State) (e : Eff) : (s.emit e).bun.words = s.bun.words := rfl
@[simp] theorem emit_miss (s : State) (e : Eff) : (s.emit e).bun.miss = s.bun.miss := rfl

theorem modCore_core (s : State) (c k : Nat) (f : Core → Core) :
    (s.modCore c f).core k = if k = c then f (s.core c) else s.core k :=
  tget_tset _ _ _ _ _

@[simp] theorem modCore_core_same (s : State) (c : Nat) (f : Core → Core) : (s.modCore c f).core c = f (s.core c) := by
  rw [modCore_core, if_pos rfl]

theorem modCore_core_other (s : State) {c k : Nat} (f : Core → Core) (h : k ≠ c) : (s.modCore c f).core k = s.core k := by
  rw [modCore_core, if_neg h]

theorem modCtx_core_other (s : State) {c j k : Nat} (f : Ctx → Ctx) (h : k ≠ c) : (s.modCtx c j f).core k = s.core k :=
  modCore_core_other s _ h

@[simp] theorem modCtx_ctx_same (s : State) (c j : Nat) (f : Ctx → Ctx) : (s.modCtx c j f).ctx c j = f (s.ctx c j) := by
  unfold State.ctx State.modCtx
  rw [modCore_core_same]
  exact tget_tset_same _ _ _ _

theorem modCtx_ctx_other (s : State) {c j n : Nat} (f : Ctx → Ctx) (h : n ≠ j) : (s.modCtx c j f).ctx c n = s.ctx c n := by
  unfold State.ctx State.modCtx
  rw [modCore_core_same]
  exact tget_tset_other _ _ _ h

@[simp] theorem modCtx_banks (s : State) (c j k : Nat) (f : Ctx → Ctx) : ((s.modCtx c j f).core k).banks = (s.core k).banks := by
  unfold State.modCtx
  rw [modCore_core]
  split
  · next h => rw [h]
  · rfl

theorem modCluster_cluster (s : State) (c k : Nat) (f : Cluster → Cluster) :
    (s.modCluster c f).cluster k = if k = c then f (s.cluster c) else s.cluster k :=
  tget_tset _ _ _ _ _

@[simp] theorem modCluster_cluster_same (s : State) (c : Nat) (f : Cluster → Cluster) :
    (s.modCluster c f).cluster c = f (s.cluster c) := by
  rw [modCluster_cluster, if_pos rfl]

/-! ### Updates by cases: what every case leaves -/

@[simp] theorem trap_powered (s : State) (c d : Nat) : (s.trap c d).powered = s.powered := by
  unfold State.trap; split <;> rfl
@[simp] theorem trap_stage (s : State) (c d : Nat) : (s.trap c d).stage = s.stage := by
  unfold State.trap; split <;> rfl
@[simp] theorem trap_mhz (s : State) (c d : Nat) : (s.trap c d).mhz = s.mhz := by
  unfold State.trap; split <;> rfl
@[simp] theorem trap_agenda (s : State) (c d : Nat) : (s.trap c d).agenda = s.agenda := by
  unfold State.trap; split <;> rfl
@[simp] theorem trap_ev (s : State) (c d : Nat) : (s.trap c d).ev = s.ev := by
  unfold State.trap; split <;> rfl
@[simp] theorem trap_mem (s : State) (c d : Nat) : (s.trap c d).mem = s.mem := by
  unfold State.trap; split <;> rfl
@[simp] theorem trap_poison (s : State) (c d : Nat) : (s.trap c d).poison = s.poison := by
  unfold State.trap; split <;> rfl
@[simp] theorem trap_padPoison (s : State) (c d : Nat) : (s.trap c d).padPoison = s.padPoison := by
  unfold State.trap; split <;> rfl
@[simp] theorem trap_cores (s : State) (c d : Nat) : (s.trap c d).cores = s.cores := by
  unfold State.trap; split <;> rfl
@[simp] theorem trap_clusters (s : State) (c d : Nat) : (s.trap c d).clusters = s.clusters := by
  unfold State.trap; split <;> rfl
@[simp] theorem trap_copies (s : State) (c d : Nat) : (s.trap c d).copies = s.copies := by
  unfold State.trap; split <;> rfl
@[simp] theorem trap_packets (s : State) (c d : Nat) : (s.trap c d).packets = s.packets := by
  unfold State.trap; split <;> rfl
@[simp] theorem trap_remotes (s : State) (c d : Nat) : (s.trap c d).remotes = s.remotes := by
  unfold State.trap; split <;> rfl
@[simp] theorem trap_keyTags (s : State) (c d : Nat) : (s.trap c d).keyTags = s.keyTags := by
  unfold State.trap; split <;> rfl
@[simp] theorem trap_l2 (s : State) (c d : Nat) : (s.trap c d).l2 = s.l2 := by
  unfold State.trap; split <;> rfl
@[simp] theorem trap_replay (s : State) (c d : Nat) : (s.trap c d).replay = s.replay := by
  unfold State.trap; split <;> rfl
@[simp] theorem trap_free (s : State) (c d : Nat) : (s.trap c d).free = s.free := by
  unfold State.trap; split <;> rfl
@[simp] theorem trap_clk (s : State) (c d : Nat) : (s.trap c d).clk = s.clk := by
  unfold State.trap; split <;> rfl
@[simp] theorem trap_pending (s : State) (c d : Nat) : (s.trap c d).pending = s.pending := by
  unfold State.trap; split <;> rfl

@[simp] theorem waitFor_powered (s : State) (w c : Nat) : (s.waitFor w c).powered = s.powered := by
  unfold State.waitFor; split <;> rfl
@[simp] theorem waitFor_stage (s : State) (w c : Nat) : (s.waitFor w c).stage = s.stage := by
  unfold State.waitFor; split <;> rfl
@[simp] theorem waitFor_mhz (s : State) (w c : Nat) : (s.waitFor w c).mhz = s.mhz := by
  unfold State.waitFor; split <;> rfl
@[simp] theorem waitFor_agenda (s : State) (w c : Nat) : (s.waitFor w c).agenda = s.agenda := by
  unfold State.waitFor; split <;> rfl
@[simp] theorem waitFor_ev (s : State) (w c : Nat) : (s.waitFor w c).ev = s.ev := by
  unfold State.waitFor; split <;> rfl
@[simp] theorem waitFor_mem (s : State) (w c : Nat) : (s.waitFor w c).mem = s.mem := by
  unfold State.waitFor; split <;> rfl
@[simp] theorem waitFor_poison (s : State) (w c : Nat) : (s.waitFor w c).poison = s.poison := by
  unfold State.waitFor; split <;> rfl
@[simp] theorem waitFor_padPoison (s : State) (w c : Nat) : (s.waitFor w c).padPoison = s.padPoison := by
  unfold State.waitFor; split <;> rfl
@[simp] theorem waitFor_cores (s : State) (w c : Nat) : (s.waitFor w c).cores = s.cores := by
  unfold State.waitFor; split <;> rfl
@[simp] theorem waitFor_clusters (s : State) (w c : Nat) : (s.waitFor w c).clusters = s.clusters := by
  unfold State.waitFor; split <;> rfl
@[simp] theorem waitFor_copies (s : State) (w c : Nat) : (s.waitFor w c).copies = s.copies := by
  unfold State.waitFor; split <;> rfl
@[simp] theorem waitFor_packets (s : State) (w c : Nat) : (s.waitFor w c).packets = s.packets := by
  unfold State.waitFor; split <;> rfl
@[simp] theorem waitFor_remotes (s : State) (w c : Nat) : (s.waitFor w c).remotes = s.remotes := by
  unfold State.waitFor; split <;> rfl
@[simp] theorem waitFor_keyTags (s : State) (w c : Nat) : (s.waitFor w c).keyTags = s.keyTags := by
  unfold State.waitFor; split <;> rfl
@[simp] theorem waitFor_l2 (s : State) (w c : Nat) : (s.waitFor w c).l2 = s.l2 := by
  unfold State.waitFor; split <;> rfl
@[simp] theorem waitFor_replay (s : State) (w c : Nat) : (s.waitFor w c).replay = s.replay := by
  unfold State.waitFor; split <;> rfl
@[simp] theorem waitFor_free (s : State) (w c : Nat) : (s.waitFor w c).free = s.free := by
  unfold State.waitFor; split <;> rfl
@[simp] theorem waitFor_clk (s : State) (w c : Nat) : (s.waitFor w c).clk = s.clk := by
  unfold State.waitFor; split <;> rfl
@[simp] theorem waitFor_pending (s : State) (w c : Nat) : (s.waitFor w c).pending = s.pending := by
  unfold State.waitFor; split <;> rfl

@[simp] theorem modBank_powered (s : State) (c j : Nat) (f : Bank → Bank) : (s.modBank c j f).powered = s.powered := by
  unfold State.modBank; split <;> rfl
@[simp] theorem modBank_stage (s : State) (c j : Nat) (f : Bank → Bank) : (s.modBank c j f).stage = s.stage := by
  unfold State.modBank; split <;> rfl
@[simp] theorem modBank_mhz (s : State) (c j : Nat) (f : Bank → Bank) : (s.modBank c j f).mhz = s.mhz := by
  unfold State.modBank; split <;> rfl
@[simp] theorem modBank_agenda (s : State) (c j : Nat) (f : Bank → Bank) : (s.modBank c j f).agenda = s.agenda := by
  unfold State.modBank; split <;> rfl
@[simp] theorem modBank_ev (s : State) (c j : Nat) (f : Bank → Bank) : (s.modBank c j f).ev = s.ev := by
  unfold State.modBank; split <;> rfl
@[simp] theorem modBank_mem (s : State) (c j : Nat) (f : Bank → Bank) : (s.modBank c j f).mem = s.mem := by
  unfold State.modBank; split <;> rfl
@[simp] theorem modBank_poison (s : State) (c j : Nat) (f : Bank → Bank) : (s.modBank c j f).poison = s.poison := by
  unfold State.modBank; split <;> rfl
@[simp] theorem modBank_padPoison (s : State) (c j : Nat) (f : Bank → Bank) : (s.modBank c j f).padPoison = s.padPoison := by
  unfold State.modBank; split <;> rfl
@[simp] theorem modBank_clusters (s : State) (c j : Nat) (f : Bank → Bank) : (s.modBank c j f).clusters = s.clusters := by
  unfold State.modBank; split <;> rfl
@[simp] theorem modBank_copies (s : State) (c j : Nat) (f : Bank → Bank) : (s.modBank c j f).copies = s.copies := by
  unfold State.modBank; split <;> rfl
@[simp] theorem modBank_packets (s : State) (c j : Nat) (f : Bank → Bank) : (s.modBank c j f).packets = s.packets := by
  unfold State.modBank; split <;> rfl
@[simp] theorem modBank_remotes (s : State) (c j : Nat) (f : Bank → Bank) : (s.modBank c j f).remotes = s.remotes := by
  unfold State.modBank; split <;> rfl
@[simp] theorem modBank_keyTags (s : State) (c j : Nat) (f : Bank → Bank) : (s.modBank c j f).keyTags = s.keyTags := by
  unfold State.modBank; split <;> rfl
@[simp] theorem modBank_l2 (s : State) (c j : Nat) (f : Bank → Bank) : (s.modBank c j f).l2 = s.l2 := by
  unfold State.modBank; split <;> rfl
@[simp] theorem modBank_replay (s : State) (c j : Nat) (f : Bank → Bank) : (s.modBank c j f).replay = s.replay := by
  unfold State.modBank; split <;> rfl
@[simp] theorem modBank_bun (s : State) (c j : Nat) (f : Bank → Bank) : (s.modBank c j f).bun = s.bun := by
  unfold State.modBank; split <;> rfl
@[simp] theorem modBank_pending (s : State) (c j : Nat) (f : Bank → Bank) : (s.modBank c j f).pending = s.pending := by
  unfold State.modBank; split <;> rfl
@[simp] theorem modBank_free (s : State) (c j : Nat) (f : Bank → Bank) : (s.modBank c j f).free = s.free := by
  unfold State.modBank; split <;> rfl
@[simp] theorem modBank_clk (s : State) (c j : Nat) (f : Bank → Bank) : (s.modBank c j f).clk = s.clk := by
  unfold State.modBank; split <;> rfl

@[simp] theorem passTo_powered (s : State) (t : Nat) : (s.passTo t).powered = s.powered := by
  unfold State.passTo; dsimp only; split_ifs <;> rfl
@[simp] theorem passTo_stage (s : State) (t : Nat) : (s.passTo t).stage = s.stage := by
  unfold State.passTo; dsimp only; split_ifs <;> rfl
@[simp] theorem passTo_mhz (s : State) (t : Nat) : (s.passTo t).mhz = s.mhz := by
  unfold State.passTo; dsimp only; split_ifs <;> rfl
@[simp] theorem passTo_agenda (s : State) (t : Nat) : (s.passTo t).agenda = s.agenda := by
  unfold State.passTo; dsimp only; split_ifs <;> rfl
@[simp] theorem passTo_ev (s : State) (t : Nat) : (s.passTo t).ev = s.ev := by
  unfold State.passTo; dsimp only; split_ifs <;> rfl
@[simp] theorem passTo_mem (s : State) (t : Nat) : (s.passTo t).mem = s.mem := by
  unfold State.passTo; dsimp only; split_ifs <;> rfl
@[simp] theorem passTo_poison (s : State) (t : Nat) : (s.passTo t).poison = s.poison := by
  unfold State.passTo; dsimp only; split_ifs <;> rfl
@[simp] theorem passTo_padPoison (s : State) (t : Nat) : (s.passTo t).padPoison = s.padPoison := by
  unfold State.passTo; dsimp only; split_ifs <;> rfl
@[simp] theorem passTo_cores (s : State) (t : Nat) : (s.passTo t).cores = s.cores := by
  unfold State.passTo; dsimp only; split_ifs <;> rfl
@[simp] theorem passTo_clusters (s : State) (t : Nat) : (s.passTo t).clusters = s.clusters := by
  unfold State.passTo; dsimp only; split_ifs <;> rfl
@[simp] theorem passTo_copies (s : State) (t : Nat) : (s.passTo t).copies = s.copies := by
  unfold State.passTo; dsimp only; split_ifs <;> rfl
@[simp] theorem passTo_packets (s : State) (t : Nat) : (s.passTo t).packets = s.packets := by
  unfold State.passTo; dsimp only; split_ifs <;> rfl
@[simp] theorem passTo_remotes (s : State) (t : Nat) : (s.passTo t).remotes = s.remotes := by
  unfold State.passTo; dsimp only; split_ifs <;> rfl
@[simp] theorem passTo_keyTags (s : State) (t : Nat) : (s.passTo t).keyTags = s.keyTags := by
  unfold State.passTo; dsimp only; split_ifs <;> rfl
@[simp] theorem passTo_l2 (s : State) (t : Nat) : (s.passTo t).l2 = s.l2 := by
  unfold State.passTo; dsimp only; split_ifs <;> rfl
@[simp] theorem passTo_replay (s : State) (t : Nat) : (s.passTo t).replay = s.replay := by
  unfold State.passTo; dsimp only; split_ifs <;> rfl
@[simp] theorem passTo_bun (s : State) (t : Nat) : (s.passTo t).bun = s.bun := by
  unfold State.passTo; dsimp only; split_ifs <;> rfl
@[simp] theorem passTo_pending (s : State) (t : Nat) : (s.passTo t).pending = s.pending := by
  unfold State.passTo; dsimp only; split_ifs <;> rfl
@[simp] theorem passTo_free (s : State) (t : Nat) : (s.passTo t).free = s.free := by
  unfold State.passTo; dsimp only; split_ifs <;> rfl

theorem passTo_clk (s : State) (t : Nat) : (s.passTo t).clk = max s.clk t := by
  unfold State.passTo
  dsimp only
  split_ifs with h
  · exact (Nat.max_eq_left h).symm
  all_goals exact (Nat.max_eq_right (Nat.le_of_lt (Nat.lt_of_not_le h))).symm

end Sys2Proof.Laws
end

