-- ==== Sys2Proof/Laws/Ops.lean ====
section
/-! SUPPORT. What each shared operation can do, said once: which operations change the bundle in hand alone; traps,
waits and accesses by cases; landings; how a bundle ends; what a step comes to. -/

namespace Sys2Proof.Laws

open Sys2Proof.Machine

/-! ### Operations that change the bundle in hand alone -/

/-- t is s but for the bundle in hand and the count of free values drawn. -/
def OnlyBundle (s t : State) : Prop := ∃ b n, t = { s with bun := b, free := n }

theorem OnlyBundle.refl (s : State) : OnlyBundle s s := ⟨s.bun, s.free, rfl⟩

theorem OnlyBundle.trans {s t u : State} (h : OnlyBundle s t) (g : OnlyBundle t u) : OnlyBundle s u := by
  obtain ⟨b, n, rfl⟩ := h
  obtain ⟨c, k, rfl⟩ := g
  exact ⟨c, k, rfl⟩

theorem onlyBundle_emit (s : State) (e : Eff) : OnlyBundle s (s.emit e) := ⟨_, s.free, rfl⟩

theorem onlyBundle_trap (s : State) (c d : Nat) : OnlyBundle s (s.trap c d) := by
  unfold State.trap
  split
  · exact .refl s
  · exact ⟨_, s.free, rfl⟩

theorem onlyBundle_waitFor (s : State) (w c : Nat) : OnlyBundle s (s.waitFor w c) := by
  unfold State.waitFor
  split <;> exact ⟨_, s.free, rfl⟩

theorem onlyBundle_parkFor (s : State) (w : Wait) : OnlyBundle s (s.parkFor w) := ⟨_, s.free, rfl⟩

theorem onlyBundle_result (s : State) (d lat : Nat) (w : Word) : OnlyBundle s (s.result d lat w) := onlyBundle_emit s _

theorem onlyBundle_unless (s : State) (bad : Bool) (c d : Nat) {k : State → State} (h : OnlyBundle s (k s)) :
    OnlyBundle s (s.unless bad c d k) := by
  unfold State.unless
  cases bad with
  | true => exact onlyBundle_trap s c d
  | false => exact h

theorem onlyBundle_types (s : State) (good : Bool) {k : State → State} (h : OnlyBundle s (k s)) : OnlyBundle s (s.types good k) :=
  onlyBundle_unless s _ _ _ h

theorem onlyBundle_access (s : State) (a : Access) {k : Nat → Nat → Bool → State} (h : ∀ p y g, OnlyBundle s (k p y g)) :
    OnlyBundle s (s.access a k) := by
  cases a with
  | at_ pa key g => exact h pa key g
  | fault c d => exact onlyBundle_trap s c d
  | miss sp va => exact ⟨_, s.free, rfl⟩

theorem onlyBundle_branch (s : State) (b : Bool) (t : Nat) : OnlyBundle s (s.branch b t) := by
  cases b with
  | true => exact onlyBundle_emit s _
  | false => exact .refl s

theorem onlyBundle_pushMask (s : State) (lat : Nat) (w : Word) : OnlyBundle s (s.pushMask lat w) :=
  onlyBundle_unless s _ _ _ (onlyBundle_emit s _)

theorem onlyBundle_qRoom (s : State) (k : Nat) {go : State → State} (h : OnlyBundle s (go s)) : OnlyBundle s (s.qRoom k go) := by
  unfold State.qRoom
  dsimp only
  split
  · exact h
  · split
    · exact onlyBundle_trap s _ _
    · exact onlyBundle_waitFor s _ _

theorem onlyBundle_trackRoom (s : State) (ch : Nat) {go : State → State} (h : OnlyBundle s (go s)) :
    OnlyBundle s (s.trackRoom ch go) := by
  unfold State.trackRoom
  split
  · exact h
  · split
    · exact onlyBundle_trap s _ _
    · exact onlyBundle_waitFor s _ _

theorem onlyBundle_creditRoom (s : State) (e n : Nat) {go : State → State} (h : OnlyBundle s (go s)) :
    OnlyBundle s (s.creditRoom e n go) := by
  unfold State.creditRoom
  dsimp only
  split
  · exact h
  · split
    · exact onlyBundle_trap s _ _
    · exact onlyBundle_waitFor s _ _

theorem onlyBundle_checks (s : State) (l : List Check) {go : State → State} (h : OnlyBundle s (go s)) :
    OnlyBundle s (s.checks l go) := by
  unfold State.checks
  split
  · exact onlyBundle_trap s _ _
  · exact h

theorem onlyBundle_memGate (s : State) {go : State → State} (h : OnlyBundle s (go s)) : OnlyBundle s (s.memGate go) := by
  unfold State.memGate
  split
  · exact h
  · exact onlyBundle_waitFor s _ _

theorem onlyBundle_jump (s : State) (t : Word) : OnlyBundle s (s.jump t) := by
  unfold State.jump
  dsimp only
  split
  · split
    · exact onlyBundle_emit s _
    · exact onlyBundle_waitFor s _ _
  · exact onlyBundle_emit s _

theorem onlyBundle_vresult (s : State) (d lat w : Nat) (l : List Nat) : OnlyBundle s (s.vresult d lat w l) := onlyBundle_emit s _

theorem onlyBundle_vresultAll (s : State) (d lat w : Nat) (l : List Nat) : OnlyBundle s (s.vresultAll d lat w l) :=
  onlyBundle_emit s _

theorem onlyBundle_vmap1 (s : State) (d a lat : Nat) (f : Nat → Nat → Nat) : OnlyBundle s (s.vmap1 d a lat f) :=
  onlyBundle_vresult s _ _ _ _

theorem onlyBundle_vmap2 (s : State) (d a b lat : Nat) (f : Nat → Nat → Nat → Nat) : OnlyBundle s (s.vmap2 d a b lat f) :=
  onlyBundle_vresult s _ _ _ _

theorem onlyBundle_vmap3 (s : State) (d a b c lat : Nat) (f : Nat → Nat → Nat → Nat → Nat) :
    OnlyBundle s (s.vmap3 d a b c lat f) :=
  onlyBundle_vresult s _ _ _ _

theorem onlyBundle_reserve (s : State) (f n : Nat) : OnlyBundle s (s.reserve f n) := by
  unfold State.reserve
  split
  · exact onlyBundle_emit s _
  · exact .refl s

/-! ### Traps and waits by cases -/

@[simp] theorem unless_true (s : State) (c d : Nat) (k : State → State) : s.unless true c d k = s.trap c d := rfl
@[simp] theorem unless_false (s : State) (c d : Nat) (k : State → State) : s.unless false c d k = k s := rfl

theorem trap_of_none {s : State} (c d : Nat) (h : s.bun.trap = none) :
    s.trap c d = { s with bun := { s.bun with trap := some ⟨c, d, s.bun.slot⟩ } } := by
  unfold State.trap; rw [h]

theorem trap_of_some {s : State} {t : Trap} (c d : Nat) (h : s.bun.trap = some t) : s.trap c d = s := by
  unfold State.trap; rw [h]

theorem waitFor_of_none {s : State} (w c : Nat) (h : s.bun.hold = none) :
    s.waitFor w c = { s with bun := { s.bun with hold := some ⟨w, c, .none, []⟩ } } := by
  unfold State.waitFor; rw [h]

theorem waitFor_of_some {s : State} {x : Hold} (w c : Nat) (h : s.bun.hold = some x) :
    s.waitFor w c = { s with bun := { s.bun with hold := some { x with also := x.also ++ [c] } } } := by
  unfold State.waitFor; rw [h]

@[simp] theorem access_at (s : State) (pa key : Nat) (g : Bool) (k : Nat → Nat → Bool → State) :
    s.access (.at_ pa key g) k = k pa key g := rfl
@[simp] theorem access_fault (s : State) (c d : Nat) (k : Nat → Nat → Bool → State) : s.access (.fault c d) k = s.trap c d := rfl

/-! ### Registers and landings -/

@[simp] theorem sr_zero (b : Bank) : b.sr 0 = 0 := rfl

theorem sr_land_s (b : Bank) (k n : Nat) (w : Word) (m : Nat) :
    (b.land (.s k) (.word w m)).sr n = if n = k ∧ k ≠ 0 then w else b.sr n := by
  unfold Bank.land
  by_cases hk : k = 0
  · simp [hk]
  · unfold Bank.sr
    by_cases hn : n = 0
    · have : ¬ (0 = k) := fun e => hk e.symm
      simp [hk, hn, this]
    · simp [hk, hn, tget_tset]

@[simp] theorem land_s0 (b : Bank) (v : Word) (m : Nat) : b.land (.s 0) (.word v m) = b := rfl

/-- A landing enters the list by its cycle. -/
theorem mem_insertLanding (x y : Landing) (l : List Landing) : y ∈ insertLanding x l ↔ y = x ∨ y ∈ l := by
  induction l with
  | nil => simp [insertLanding]
  | cons z l ih =>
    unfold insertLanding
    split
    · simp
    · simp [ih, or_left_comm]

/-! ### How a bundle ends (R73) -/

/-- Nothing makes a bundle illegal: neither its values together nor a slot (R84). -/
theorem illegalTrap_eq_none {s : State} :
    s.illegalTrap = none ↔ s.bundleBadNow = none ∧ s.firstIllegal (slotsOf s.bun.words) = none := by
  unfold State.illegalTrap
  cases s.bundleBadNow <;> simp

theorem finishBundle_hold {s : State} {h : Hold} (e : s.bun.hold = some h) : s.finishBundle = s.holdBundle h := by
  unfold State.finishBundle; rw [e]

theorem finishBundle_illegal {s : State} {tr : Trap} (e : s.bun.hold = none) (g : s.illegalTrap = some tr) :
    s.finishBundle = (State.trapBundle { s with bun := { s.bun with dropLf := none, clearCh := none } } tr).dropFaults s.bun.core := by
  unfold State.finishBundle
  simp only [e, g]

theorem finishBundle_miss {s : State} (e : s.bun.hold = none) (g : s.illegalTrap = none)
    (m : s.bun.miss ≠ []) : s.finishBundle = s.holdTranslation s.bun.miss := by
  unfold State.finishBundle
  simp [e, g, m]

theorem finishBundle_trap {s : State} {t : Trap} (e : s.bun.hold = none) (g : s.illegalTrap = none)
    (m : s.bun.miss = []) (h : s.bun.trap = some t) : s.finishBundle = (s.trapBundle t).dropFaults s.bun.core := by
  unfold State.finishBundle
  simp [e, g, m, h]

theorem finishBundle_commit {s : State} (e : s.bun.hold = none) (g : s.illegalTrap = none)
    (m : s.bun.miss = []) (h : s.bun.trap = none) : s.finishBundle = (s.commitBundle.clearBundle).dropFaults s.bun.core := by
  unfold State.finishBundle
  simp [e, g, m, h]

/-! ### A step -/

@[simp] theorem runSlots_nil (s : State) : runSlots [] s = .next s := rfl

theorem runSlots_cons {k : Nat} {i : Instr} {l : List (Nat × Instr)} {s t : State}
    (h : exec i (State.readMarks { s with bun := { s.bun with slot := k }, pending := l } i) = .next t) :
    runSlots ((k, i) :: l) s = runSlots l t := by
  rw [runSlots, h]

theorem runEvent_next {i : Instr} {ops : List Nat} {s t : State} (h : exec i { s with ev := ops } = .next t) :
    runEvent i ops s = finishSlots t := by
  unfold runEvent; rw [h]

theorem finishSlots_idle {s : State} (h : s.bun.words = []) : finishSlots s = .next s := by
  unfold finishSlots; rw [h]; rfl

theorem go_agenda {s : State} {i : Instr} {ops : List Nat} {l : List (Instr × List Nat)} (h : s.agenda = (i, ops) :: l)
    (up : overLinks i = false ∨ 2 ≤ s.stage) :
    s.go = runEvent i ops { s with agenda := l } := by
  have n : ¬(overLinks i = true ∧ s.stage < 2) := by rcases up with u | u <;> simp [u]; omega
  unfold State.go State.advance
  simp only [h]
  rw [if_neg n]
  simp

end Sys2Proof.Laws
end

