-- ==== Sys2Proof/Laws/PerInstr.lean ====
section
/-! SUPPORT. One lemma per constructor: the word of a well-formed slot form has 32 bits (R60); an event has none. -/

namespace Sys2Proof.Laws.Encoding

/-- The word of a well-formed form fits a slot. -/
def Statement (i : Instr) : Prop := ∀ (sm : SlotMap) (w : Nat), i.wf = true → encode i = some (sm, w) → w < 2 ^ 32

theorem word_lt {sm' sm : SlotMap} {w' w : Nat} (e : some (sm', w') = some (sm, w)) (h : w' < 2 ^ 32) : w < 2 ^ 32 := by
  cases e; exact h

theorem add (d a b : Nat) : Statement (.add d a b) := fun _ _ h e =>
  word_lt e (by have h := of_decide_eq_true h; omega)
theorem sub (d a b : Nat) : Statement (.sub d a b) := fun _ _ h e =>
  word_lt e (by have h := of_decide_eq_true h; omega)
theorem and (d a b : Nat) : Statement (.and d a b) := fun _ _ h e =>
  word_lt e (by have h := of_decide_eq_true h; omega)
theorem or (d a b : Nat) : Statement (.or d a b) := fun _ _ h e =>
  word_lt e (by have h := of_decide_eq_true h; omega)
theorem xor (d a b : Nat) : Statement (.xor d a b) := fun _ _ h e =>
  word_lt e (by have h := of_decide_eq_true h; omega)
theorem andn (d a b : Nat) : Statement (.andn d a b) := fun _ _ h e =>
  word_lt e (by have h := of_decide_eq_true h; omega)
theorem shl (d a b : Nat) : Statement (.shl d a b) := fun _ _ h e =>
  word_lt e (by have h := of_decide_eq_true h; omega)
theorem shr (d a b : Nat) : Statement (.shr d a b) := fun _ _ h e =>
  word_lt e (by have h := of_decide_eq_true h; omega)
theorem sar (d a b : Nat) : Statement (.sar d a b) := fun _ _ h e =>
  word_lt e (by have h := of_decide_eq_true h; omega)
theorem ror (d a b : Nat) : Statement (.ror d a b) := fun _ _ h e =>
  word_lt e (by have h := of_decide_eq_true h; omega)
theorem minI64 (d a b : Nat) : Statement (.minI64 d a b) := fun _ _ h e =>
  word_lt e (by have h := of_decide_eq_true h; omega)
theorem minN64 (d a b : Nat) : Statement (.minN64 d a b) := fun _ _ h e =>
  word_lt e (by have h := of_decide_eq_true h; omega)
theorem maxI64 (d a b : Nat) : Statement (.maxI64 d a b) := fun _ _ h e =>
  word_lt e (by have h := of_decide_eq_true h; omega)
theorem maxN64 (d a b : Nat) : Statement (.maxN64 d a b) := fun _ _ h e =>
  word_lt e (by have h := of_decide_eq_true h; omega)
theorem addsI64 (d a b : Nat) : Statement (.addsI64 d a b) := fun _ _ h e =>
  word_lt e (by have h := of_decide_eq_true h; omega)
theorem addsN64 (d a b : Nat) : Statement (.addsN64 d a b) := fun _ _ h e =>
  word_lt e (by have h := of_decide_eq_true h; omega)
theorem subsI64 (d a b : Nat) : Statement (.subsI64 d a b) := fun _ _ h e =>
  word_lt e (by have h := of_decide_eq_true h; omega)
theorem subsN64 (d a b : Nat) : Statement (.subsN64 d a b) := fun _ _ h e =>
  word_lt e (by have h := of_decide_eq_true h; omega)
theorem mul (d a b : Nat) : Statement (.mul d a b) := fun _ _ h e =>
  word_lt e (by have h := of_decide_eq_true h; omega)
theorem mulhI64 (d a b : Nat) : Statement (.mulhI64 d a b) := fun _ _ h e =>
  word_lt e (by have h := of_decide_eq_true h; omega)
theorem mulhN64 (d a b : Nat) : Statement (.mulhN64 d a b) := fun _ _ h e =>
  word_lt e (by have h := of_decide_eq_true h; omega)
theorem clz (d a : Nat) : Statement (.clz d a) := fun _ _ h e =>
  word_lt e (by have h := of_decide_eq_true h; omega)
theorem ctz (d a : Nat) : Statement (.ctz d a) := fun _ _ h e =>
  word_lt e (by have h := of_decide_eq_true h; omega)
theorem popc (d a : Nat) : Statement (.popc d a) := fun _ _ h e =>
  word_lt e (by have h := of_decide_eq_true h; omega)
theorem neg (d a : Nat) : Statement (.neg d a) := fun _ _ h e =>
  word_lt e (by have h := of_decide_eq_true h; omega)
theorem not (d a : Nat) : Statement (.not d a) := fun _ _ h e =>
  word_lt e (by have h := of_decide_eq_true h; omega)
theorem abs (d a : Nat) : Statement (.abs d a) := fun _ _ h e =>
  word_lt e (by have h := of_decide_eq_true h; omega)
theorem sx8 (d a : Nat) : Statement (.sx8 d a) := fun _ _ h e =>
  word_lt e (by have h := of_decide_eq_true h; omega)
theorem sx16 (d a : Nat) : Statement (.sx16 d a) := fun _ _ h e =>
  word_lt e (by have h := of_decide_eq_true h; omega)
theorem sx32 (d a : Nat) : Statement (.sx32 d a) := fun _ _ h e =>
  word_lt e (by have h := of_decide_eq_true h; omega)
theorem zx8 (d a : Nat) : Statement (.zx8 d a) := fun _ _ h e =>
  word_lt e (by have h := of_decide_eq_true h; omega)
theorem zx16 (d a : Nat) : Statement (.zx16 d a) := fun _ _ h e =>
  word_lt e (by have h := of_decide_eq_true h; omega)
theorem zx32 (d a : Nat) : Statement (.zx32 d a) := fun _ _ h e =>
  word_lt e (by have h := of_decide_eq_true h; omega)
theorem brev (d a : Nat) : Statement (.brev d a) := fun _ _ h e =>
  word_lt e (by have h := of_decide_eq_true h; omega)
theorem bswap (d a : Nat) : Statement (.bswap d a) := fun _ _ h e =>
  word_lt e (by have h := of_decide_eq_true h; omega)
theorem divI64 (d a b : Nat) : Statement (.divI64 d a b) := fun _ _ h e =>
  word_lt e (by have h := of_decide_eq_true h; omega)
theorem divN64 (d a b : Nat) : Statement (.divN64 d a b) := fun _ _ h e =>
  word_lt e (by have h := of_decide_eq_true h; omega)
theorem remI64 (d a b : Nat) : Statement (.remI64 d a b) := fun _ _ h e =>
  word_lt e (by have h := of_decide_eq_true h; omega)
theorem remN64 (d a b : Nat) : Statement (.remN64 d a b) := fun _ _ h e =>
  word_lt e (by have h := of_decide_eq_true h; omega)
theorem cmp (d a b c : Nat) : Statement (.cmp d a b c) := fun _ _ h e =>
  word_lt e (by have h := of_decide_eq_true h; omega)
theorem addi (d a i : Nat) : Statement (.addi d a i) := fun _ _ h e =>
  word_lt e (by have h := of_decide_eq_true h; omega)
theorem andi (d a i : Nat) : Statement (.andi d a i) := fun _ _ h e =>
  word_lt e (by have h := of_decide_eq_true h; omega)
theorem ori (d a i : Nat) : Statement (.ori d a i) := fun _ _ h e =>
  word_lt e (by have h := of_decide_eq_true h; omega)
theorem xori (d a i : Nat) : Statement (.xori d a i) := fun _ _ h e =>
  word_lt e (by have h := of_decide_eq_true h; omega)
theorem shli (d a n : Nat) : Statement (.shli d a n) := fun _ _ h e =>
  word_lt e (by have h := of_decide_eq_true h; omega)
theorem shri (d a n : Nat) : Statement (.shri d a n) := fun _ _ h e =>
  word_lt e (by have h := of_decide_eq_true h; omega)
theorem sari (d a n : Nat) : Statement (.sari d a n) := fun _ _ h e =>
  word_lt e (by have h := of_decide_eq_true h; omega)
theorem rori (d a n : Nat) : Statement (.rori d a n) := fun _ _ h e =>
  word_lt e (by have h := of_decide_eq_true h; omega)
theorem cmpi (d a c i : Nat) : Statement (.cmpi d a c i) := fun _ _ h e =>
  word_lt e (by have h := of_decide_eq_true h; omega)
theorem movi (d i : Nat) : Statement (.movi d i) := fun _ _ h e =>
  word_lt e (by have h := of_decide_eq_true h; omega)
theorem movk (d a i : Nat) : Statement (.movk d a i) := fun _ _ h e =>
  word_lt e (by have h := of_decide_eq_true h; omega)
theorem lea (d a i : Nat) : Statement (.lea d a i) := fun _ _ h e =>
  word_lt e (by have h := of_decide_eq_true h; omega)
theorem bextN64 (d a l p : Nat) : Statement (.bextN64 d a l p) := fun _ _ h e =>
  word_lt e (by have h := of_decide_eq_true h; omega)
theorem bextI64 (d a l p : Nat) : Statement (.bextI64 d a l p) := fun _ _ h e =>
  word_lt e (by have h := of_decide_eq_true h; omega)
theorem bins (d a l p : Nat) : Statement (.bins d a l p) := fun _ _ h e =>
  word_lt e (by have h := of_decide_eq_true h; omega)
theorem crd (d n : Nat) : Statement (.crd d n) := fun _ _ h e =>
  word_lt e (by have h := of_decide_eq_true h; omega)
theorem cwr (a n : Nat) : Statement (.cwr a n) := fun _ _ h e =>
  word_lt e (by have h := of_decide_eq_true h; omega)
theorem gset (a f i : Nat) : Statement (.gset a f i) := fun _ _ h e =>
  word_lt e (by have h := of_decide_eq_true h; omega)
theorem gget (d f i : Nat) : Statement (.gget d f i) := fun _ _ h e =>
  word_lt e (by have h := of_decide_eq_true h; omega)
theorem ld (d a t o : Nat) : Statement (.ld d a t o) := fun _ _ h e =>
  word_lt e (by have h := of_decide_eq_true h; omega)
theorem st (d a t o : Nat) : Statement (.st d a t o) := fun _ _ h e =>
  word_lt e (by have h := of_decide_eq_true h; omega)
theorem ldx (d o : Nat) : Statement (.ldx d o) := fun _ _ h e =>
  word_lt e (by have h := of_decide_eq_true h; omega)
theorem stx (d o : Nat) : Statement (.stx d o) := fun _ _ h e =>
  word_lt e (by have h := of_decide_eq_true h; omega)
theorem ldAcq (d a s z o : Nat) : Statement (.ldAcq d a s z o) := fun _ _ h e =>
  word_lt e (by have h := of_decide_eq_true h; omega)
theorem stRel (d a s z o : Nat) : Statement (.stRel d a s z o) := fun _ _ h e =>
  word_lt e (by have h := of_decide_eq_true h; omega)
theorem amoAdd (d a b s o z : Nat) : Statement (.amoAdd d a b s o z) := fun _ _ h e =>
  word_lt e (by have h := of_decide_eq_true h; omega)
theorem amoAnd (d a b s o z : Nat) : Statement (.amoAnd d a b s o z) := fun _ _ h e =>
  word_lt e (by have h := of_decide_eq_true h; omega)
theorem amoOr (d a b s o z : Nat) : Statement (.amoOr d a b s o z) := fun _ _ h e =>
  word_lt e (by have h := of_decide_eq_true h; omega)
theorem amoXor (d a b s o z : Nat) : Statement (.amoXor d a b s o z) := fun _ _ h e =>
  word_lt e (by have h := of_decide_eq_true h; omega)
theorem amoMinI (d a b s o z : Nat) : Statement (.amoMinI d a b s o z) := fun _ _ h e =>
  word_lt e (by have h := of_decide_eq_true h; omega)
theorem amoMaxI (d a b s o z : Nat) : Statement (.amoMaxI d a b s o z) := fun _ _ h e =>
  word_lt e (by have h := of_decide_eq_true h; omega)
theorem amoMinN (d a b s o z : Nat) : Statement (.amoMinN d a b s o z) := fun _ _ h e =>
  word_lt e (by have h := of_decide_eq_true h; omega)
theorem amoMaxN (d a b s o z : Nat) : Statement (.amoMaxN d a b s o z) := fun _ _ h e =>
  word_lt e (by have h := of_decide_eq_true h; omega)
theorem amoSwap (d a b s o z : Nat) : Statement (.amoSwap d a b s o z) := fun _ _ h e =>
  word_lt e (by have h := of_decide_eq_true h; omega)
theorem amoFadd (d a b s o z : Nat) : Statement (.amoFadd d a b s o z) := fun _ _ h e =>
  word_lt e (by have h := of_decide_eq_true h; omega)
theorem cas (d a b s o z : Nat) : Statement (.cas d a b s o z) := fun _ _ h e =>
  word_lt e (by have h := of_decide_eq_true h; omega)
theorem fence (d s : Nat) : Statement (.fence d s) := fun _ _ h e =>
  word_lt e (by have h := of_decide_eq_true h; omega)
theorem fwait (a : Nat) : Statement (.fwait a) := fun _ _ h e =>
  word_lt e (by have h := of_decide_eq_true h; omega)
theorem publish (a s : Nat) : Statement (.publish a s) := fun _ _ h e =>
  word_lt e (by have h := of_decide_eq_true h; omega)
theorem xformSplit (d a b f : Nat) : Statement (.xformSplit d a b f) := fun _ _ h e =>
  word_lt e (by have h := of_decide_eq_true h; omega)
theorem xformMerge (d a b f : Nat) : Statement (.xformMerge d a b f) := fun _ _ h e =>
  word_lt e (by have h := of_decide_eq_true h; omega)
theorem xformConv (d a b f g : Nat) : Statement (.xformConv d a b f g) := fun _ _ h e =>
  word_lt e (by have h := of_decide_eq_true h; omega)
theorem xformZero (d b : Nat) : Statement (.xformZero d b) := fun _ _ h e =>
  word_lt e (by have h := of_decide_eq_true h; omega)
theorem xformBpack (d a b : Nat) : Statement (.xformBpack d a b) := fun _ _ h e =>
  word_lt e (by have h := of_decide_eq_true h; omega)
theorem xformBunpack (d a b : Nat) : Statement (.xformBunpack d a b) := fun _ _ h e =>
  word_lt e (by have h := of_decide_eq_true h; omega)
theorem phaseStart (a n m : Nat) : Statement (.phaseStart a n m) := fun _ _ h e =>
  word_lt e (by have h := of_decide_eq_true h; omega)
theorem ckseal (d a n : Nat) : Statement (.ckseal d a n) := fun _ _ h e =>
  word_lt e (by have h := of_decide_eq_true h; omega)
theorem spawn (d a n : Nat) : Statement (.spawn d a n) := fun _ _ h e =>
  word_lt e (by have h := of_decide_eq_true h; omega)
theorem suspend (s p f : Nat) : Statement (.suspend s p f) := fun _ _ h e =>
  word_lt e (by have h := of_decide_eq_true h; omega)
theorem crewJoin (d a : Nat) : Statement (.crewJoin d a) := fun _ _ h e =>
  word_lt e (by have h := of_decide_eq_true h; omega)
theorem crewInfo (d a : Nat) : Statement (.crewInfo d a) := fun _ _ h e =>
  word_lt e (by have h := of_decide_eq_true h; omega)
theorem wvpin (d a : Nat) : Statement (.wvpin d a) := fun _ _ h e =>
  word_lt e (by have h := of_decide_eq_true h; omega)
theorem wvpinT (d a b : Nat) : Statement (.wvpinT d a b) := fun _ _ h e =>
  word_lt e (by have h := of_decide_eq_true h; omega)
theorem wvget (d a : Nat) : Statement (.wvget d a) := fun _ _ h e =>
  word_lt e (by have h := of_decide_eq_true h; omega)
theorem wvgetT (d a b : Nat) : Statement (.wvgetT d a b) := fun _ _ h e =>
  word_lt e (by have h := of_decide_eq_true h; omega)
theorem wvrel (d a : Nat) : Statement (.wvrel d a) := fun _ _ h e =>
  word_lt e (by have h := of_decide_eq_true h; omega)
theorem wvrelT (d a b : Nat) : Statement (.wvrelT d a b) := fun _ _ h e =>
  word_lt e (by have h := of_decide_eq_true h; omega)
theorem wvnewStage (d a : Nat) : Statement (.wvnewStage d a) := fun _ _ h e =>
  word_lt e (by have h := of_decide_eq_true h; omega)
theorem wvnewPub (a : Nat) : Statement (.wvnewPub a) := fun _ _ h e =>
  word_lt e (by have h := of_decide_eq_true h; omega)
theorem arrive (d a b : Nat) : Statement (.arrive d a b) := fun _ _ h e =>
  word_lt e (by have h := of_decide_eq_true h; omega)
theorem mwaitN32 (d a b : Nat) : Statement (.mwaitN32 d a b) := fun _ _ h e =>
  word_lt e (by have h := of_decide_eq_true h; omega)
theorem mwaitN64 (d a b : Nat) : Statement (.mwaitN64 d a b) := fun _ _ h e =>
  word_lt e (by have h := of_decide_eq_true h; omega)
theorem gtrig (d a b : Nat) : Statement (.gtrig d a b) := fun _ _ h e =>
  word_lt e (by have h := of_decide_eq_true h; omega)
theorem barInit (a b : Nat) : Statement (.barInit a b) := fun _ _ h e =>
  word_lt e (by have h := of_decide_eq_true h; omega)
theorem barExpect (a b : Nat) : Statement (.barExpect a b) := fun _ _ h e =>
  word_lt e (by have h := of_decide_eq_true h; omega)
theorem barArrive (d a b : Nat) : Statement (.barArrive d a b) := fun _ _ h e =>
  word_lt e (by have h := of_decide_eq_true h; omega)
theorem barWait (d a b : Nat) : Statement (.barWait d a b) := fun _ _ h e =>
  word_lt e (by have h := of_decide_eq_true h; omega)
theorem barTest (d a b : Nat) : Statement (.barTest d a b) := fun _ _ h e =>
  word_lt e (by have h := of_decide_eq_true h; omega)
theorem rdcnt (d n : Nat) : Statement (.rdcnt d n) := fun _ _ h e =>
  word_lt e (by have h := of_decide_eq_true h; omega)
theorem rbeg (l : Nat) : Statement (.rbeg l) := fun _ _ h e =>
  word_lt e (by have h := of_decide_eq_true h; omega)
theorem chkt (a b : Nat) : Statement (.chkt a b) := fun _ _ h e =>
  word_lt e (by have h := of_decide_eq_true h; omega)
theorem dormArm (d a : Nat) : Statement (.dormArm d a) := fun _ _ h e =>
  word_lt e (by have h := of_decide_eq_true h; omega)
theorem dormDisarm (d a : Nat) : Statement (.dormDisarm d a) := fun _ _ h e =>
  word_lt e (by have h := of_decide_eq_true h; omega)
theorem dormCount (d : Nat) : Statement (.dormCount d) := fun _ _ h e =>
  word_lt e (by have h := of_decide_eq_true h; omega)
theorem vfadd (d a b : Nat) : Statement (.vfadd d a b) := fun _ _ h e =>
  word_lt e (by have h := of_decide_eq_true h; omega)
theorem vfsub (d a b : Nat) : Statement (.vfsub d a b) := fun _ _ h e =>
  word_lt e (by have h := of_decide_eq_true h; omega)
theorem vfmul (d a b : Nat) : Statement (.vfmul d a b) := fun _ _ h e =>
  word_lt e (by have h := of_decide_eq_true h; omega)
theorem vfmin (d a b : Nat) : Statement (.vfmin d a b) := fun _ _ h e =>
  word_lt e (by have h := of_decide_eq_true h; omega)
theorem vfmax (d a b : Nat) : Statement (.vfmax d a b) := fun _ _ h e =>
  word_lt e (by have h := of_decide_eq_true h; omega)
theorem vfsgn (d a b : Nat) : Statement (.vfsgn d a b) := fun _ _ h e =>
  word_lt e (by have h := of_decide_eq_true h; omega)
theorem vfma (d a b c : Nat) : Statement (.vfma d a b c) := fun _ _ h e =>
  word_lt e (by have h := of_decide_eq_true h; omega)
theorem vfms (d a b c : Nat) : Statement (.vfms d a b c) := fun _ _ h e =>
  word_lt e (by have h := of_decide_eq_true h; omega)
theorem vnfma (d a b c : Nat) : Statement (.vnfma d a b c) := fun _ _ h e =>
  word_lt e (by have h := of_decide_eq_true h; omega)
theorem vnfms (d a b c : Nat) : Statement (.vnfms d a b c) := fun _ _ h e =>
  word_lt e (by have h := of_decide_eq_true h; omega)
theorem viadd (d a b : Nat) : Statement (.viadd d a b) := fun _ _ h e =>
  word_lt e (by have h := of_decide_eq_true h; omega)
theorem visub (d a b : Nat) : Statement (.visub d a b) := fun _ _ h e =>
  word_lt e (by have h := of_decide_eq_true h; omega)
theorem vimul (d a b : Nat) : Statement (.vimul d a b) := fun _ _ h e =>
  word_lt e (by have h := of_decide_eq_true h; omega)
theorem vimulh (d a b : Nat) : Statement (.vimulh d a b) := fun _ _ h e =>
  word_lt e (by have h := of_decide_eq_true h; omega)
theorem vand (d a b : Nat) : Statement (.vand d a b) := fun _ _ h e =>
  word_lt e (by have h := of_decide_eq_true h; omega)
theorem vor (d a b : Nat) : Statement (.vor d a b) := fun _ _ h e =>
  word_lt e (by have h := of_decide_eq_true h; omega)
theorem vxor (d a b : Nat) : Statement (.vxor d a b) := fun _ _ h e =>
  word_lt e (by have h := of_decide_eq_true h; omega)
theorem vandn (d a b : Nat) : Statement (.vandn d a b) := fun _ _ h e =>
  word_lt e (by have h := of_decide_eq_true h; omega)
theorem vshl (d a b : Nat) : Statement (.vshl d a b) := fun _ _ h e =>
  word_lt e (by have h := of_decide_eq_true h; omega)
theorem vshr (d a b : Nat) : Statement (.vshr d a b) := fun _ _ h e =>
  word_lt e (by have h := of_decide_eq_true h; omega)
theorem vsar (d a b : Nat) : Statement (.vsar d a b) := fun _ _ h e =>
  word_lt e (by have h := of_decide_eq_true h; omega)
theorem vimin (d a b : Nat) : Statement (.vimin d a b) := fun _ _ h e =>
  word_lt e (by have h := of_decide_eq_true h; omega)
theorem vimax (d a b : Nat) : Statement (.vimax d a b) := fun _ _ h e =>
  word_lt e (by have h := of_decide_eq_true h; omega)
theorem viadds (d a b : Nat) : Statement (.viadds d a b) := fun _ _ h e =>
  word_lt e (by have h := of_decide_eq_true h; omega)
theorem visubs (d a b : Nat) : Statement (.visubs d a b) := fun _ _ h e =>
  word_lt e (by have h := of_decide_eq_true h; omega)
theorem viabs (d a : Nat) : Statement (.viabs d a) := fun _ _ h e =>
  word_lt e (by have h := of_decide_eq_true h; omega)
theorem vineg (d a : Nat) : Statement (.vineg d a) := fun _ _ h e =>
  word_lt e (by have h := of_decide_eq_true h; omega)
theorem vcmp (d a b k : Nat) : Statement (.vcmp d a b k) := fun _ _ h e =>
  word_lt e (by have h := of_decide_eq_true h; omega)
theorem vcmpm (a b k : Nat) : Statement (.vcmpm a b k) := fun _ _ h e =>
  word_lt e (by have h := of_decide_eq_true h; omega)
theorem vsel (d a b c : Nat) : Statement (.vsel d a b c) := fun _ _ h e =>
  word_lt e (by have h := of_decide_eq_true h; omega)
theorem vsels (d a b c : Nat) : Statement (.vsels d a b c) := fun _ _ h e =>
  word_lt e (by have h := of_decide_eq_true h; omega)
theorem vcvt (d a p s : Nat) : Statement (.vcvt d a p s) := fun _ _ h e =>
  word_lt e (by have h := of_decide_eq_true h; omega)
theorem vcvtTote (d a m : Nat) : Statement (.vcvtTote d a m) := fun _ _ h e =>
  word_lt e (by have h := of_decide_eq_true h; omega)
theorem vcvtFrte (d a m : Nat) : Statement (.vcvtFrte d a m) := fun _ _ h e =>
  word_lt e (by have h := of_decide_eq_true h; omega)
theorem vfabs (d a : Nat) : Statement (.vfabs d a) := fun _ _ h e =>
  word_lt e (by have h := of_decide_eq_true h; omega)
theorem vfneg (d a : Nat) : Statement (.vfneg d a) := fun _ _ h e =>
  word_lt e (by have h := of_decide_eq_true h; omega)
theorem vsqrt (d a : Nat) : Statement (.vsqrt d a) := fun _ _ h e =>
  word_lt e (by have h := of_decide_eq_true h; omega)
theorem vrcp (d a : Nat) : Statement (.vrcp d a) := fun _ _ h e =>
  word_lt e (by have h := of_decide_eq_true h; omega)
theorem vrsqrt (d a : Nat) : Statement (.vrsqrt d a) := fun _ _ h e =>
  word_lt e (by have h := of_decide_eq_true h; omega)
theorem vexp2 (d a : Nat) : Statement (.vexp2 d a) := fun _ _ h e =>
  word_lt e (by have h := of_decide_eq_true h; omega)
theorem vexp (d a : Nat) : Statement (.vexp d a) := fun _ _ h e =>
  word_lt e (by have h := of_decide_eq_true h; omega)
theorem vlog2 (d a : Nat) : Statement (.vlog2 d a) := fun _ _ h e =>
  word_lt e (by have h := of_decide_eq_true h; omega)
theorem vtanh (d a : Nat) : Statement (.vtanh d a) := fun _ _ h e =>
  word_lt e (by have h := of_decide_eq_true h; omega)
theorem vsigm (d a : Nat) : Statement (.vsigm d a) := fun _ _ h e =>
  word_lt e (by have h := of_decide_eq_true h; omega)
theorem vperm (d a b : Nat) : Statement (.vperm d a b) := fun _ _ h e =>
  word_lt e (by have h := of_decide_eq_true h; omega)
theorem vperm2 (d a b c : Nat) : Statement (.vperm2 d a b c) := fun _ _ h e =>
  word_lt e (by have h := of_decide_eq_true h; omega)
theorem vzipl (d a b : Nat) : Statement (.vzipl d a b) := fun _ _ h e =>
  word_lt e (by have h := of_decide_eq_true h; omega)
theorem vziph (d a b : Nat) : Statement (.vziph d a b) := fun _ _ h e =>
  word_lt e (by have h := of_decide_eq_true h; omega)
theorem vunze (d a b : Nat) : Statement (.vunze d a b) := fun _ _ h e =>
  word_lt e (by have h := of_decide_eq_true h; omega)
theorem vunzo (d a b : Nat) : Statement (.vunzo d a b) := fun _ _ h e =>
  word_lt e (by have h := of_decide_eq_true h; omega)
theorem vrot (d a n : Nat) : Statement (.vrot d a n) := fun _ _ h e =>
  word_lt e (by have h := of_decide_eq_true h; omega)
theorem vshd (d a n : Nat) : Statement (.vshd d a n) := fun _ _ h e =>
  word_lt e (by have h := of_decide_eq_true h; omega)
theorem vcat (d a b n : Nat) : Statement (.vcat d a b n) := fun _ _ h e =>
  word_lt e (by have h := of_decide_eq_true h; omega)
theorem vredadd (d a : Nat) : Statement (.vredadd d a) := fun _ _ h e =>
  word_lt e (by have h := of_decide_eq_true h; omega)
theorem vredmin (d a : Nat) : Statement (.vredmin d a) := fun _ _ h e =>
  word_lt e (by have h := of_decide_eq_true h; omega)
theorem vredmax (d a : Nat) : Statement (.vredmax d a) := fun _ _ h e =>
  word_lt e (by have h := of_decide_eq_true h; omega)
theorem vredand (d a : Nat) : Statement (.vredand d a) := fun _ _ h e =>
  word_lt e (by have h := of_decide_eq_true h; omega)
theorem vredor (d a : Nat) : Statement (.vredor d a) := fun _ _ h e =>
  word_lt e (by have h := of_decide_eq_true h; omega)
theorem vredxor (d a : Nat) : Statement (.vredxor d a) := fun _ _ h e =>
  word_lt e (by have h := of_decide_eq_true h; omega)
theorem vscanadd (d a : Nat) : Statement (.vscanadd d a) := fun _ _ h e =>
  word_lt e (by have h := of_decide_eq_true h; omega)
theorem vscanmin (d a : Nat) : Statement (.vscanmin d a) := fun _ _ h e =>
  word_lt e (by have h := of_decide_eq_true h; omega)
theorem vscanmax (d a : Nat) : Statement (.vscanmax d a) := fun _ _ h e =>
  word_lt e (by have h := of_decide_eq_true h; omega)
theorem vscanxadd (d a : Nat) : Statement (.vscanxadd d a) := fun _ _ h e =>
  word_lt e (by have h := of_decide_eq_true h; omega)
theorem vscanxmin (d a : Nat) : Statement (.vscanxmin d a) := fun _ _ h e =>
  word_lt e (by have h := of_decide_eq_true h; omega)
theorem vscanxmax (d a : Nat) : Statement (.vscanxmax d a) := fun _ _ h e =>
  word_lt e (by have h := of_decide_eq_true h; omega)
theorem vcomp (d a : Nat) : Statement (.vcomp d a) := fun _ _ h e =>
  word_lt e (by have h := of_decide_eq_true h; omega)
theorem vexpd (d a : Nat) : Statement (.vexpd d a) := fun _ _ h e =>
  word_lt e (by have h := of_decide_eq_true h; omega)
theorem vm2v (d : Nat) : Statement (.vm2v d) := fun _ _ h e =>
  word_lt e (by have h := of_decide_eq_true h; omega)
theorem vnzm (a : Nat) : Statement (.vnzm a) := fun _ _ h e =>
  word_lt e (by have h := of_decide_eq_true h; omega)
theorem vmovi (d i : Nat) : Statement (.vmovi d i) := fun _ _ h e =>
  word_lt e (by have h := of_decide_eq_true h; omega)
theorem vmovih (d i : Nat) : Statement (.vmovih d i) := fun _ _ h e =>
  word_lt e (by have h := of_decide_eq_true h; omega)
theorem vext (d a l : Nat) : Statement (.vext d a l) := fun _ _ h e =>
  word_lt e (by have h := of_decide_eq_true h; omega)
theorem vexts (d a l : Nat) : Statement (.vexts d a l) := fun _ _ h e =>
  word_lt e (by have h := of_decide_eq_true h; omega)
theorem vext64 (d a l : Nat) : Statement (.vext64 d a l) := fun _ _ h e =>
  word_lt e (by have h := of_decide_eq_true h; omega)
theorem vaccr (d b q u : Nat) : Statement (.vaccr d b q u) := fun _ _ h e =>
  word_lt e (by have h := of_decide_eq_true h; omega)
theorem vaccw (a b q u : Nat) : Statement (.vaccw a b q u) := fun _ _ h e =>
  word_lt e (by have h := of_decide_eq_true h; omega)
theorem vaccrF64 (d b q u : Nat) : Statement (.vaccrF64 d b q u) := fun _ _ h e =>
  word_lt e (by have h := of_decide_eq_true h; omega)
theorem vaccwF64 (a b q u : Nat) : Statement (.vaccwF64 a b q u) := fun _ _ h e =>
  word_lt e (by have h := of_decide_eq_true h; omega)
theorem vld (d a m : Nat) : Statement (.vld d a m) := fun _ _ h e =>
  word_lt e (by have h := of_decide_eq_true h; omega)
theorem vst (a c m : Nat) : Statement (.vst a c m) := fun _ _ h e =>
  word_lt e (by have h := of_decide_eq_true h; omega)
theorem vgat (d a b : Nat) : Statement (.vgat d a b) := fun _ _ h e =>
  word_lt e (by have h := of_decide_eq_true h; omega)
theorem vscat (a b c : Nat) : Statement (.vscat a b c) := fun _ _ h e =>
  word_lt e (by have h := of_decide_eq_true h; omega)
theorem vqh (d k : Nat) : Statement (.vqh d k) := fun _ _ h e =>
  word_lt e (by have h := of_decide_eq_true h; omega)
theorem vchk (a b : Nat) : Statement (.vchk a b) := fun _ _ h e =>
  word_lt e (by have h := of_decide_eq_true h; omega)
theorem tmm (g x y : Nat) : Statement (.tmm g x y) := fun _ _ h e =>
  word_lt e (by have h := of_decide_eq_true h; omega)
theorem tmmt (g x y : Nat) : Statement (.tmmt g x y) := fun _ _ h e =>
  word_lt e (by have h := of_decide_eq_true h; omega)
theorem tlx (g x y : Nat) : Statement (.tlx g x y) := fun _ _ h e =>
  word_lt e (by have h := of_decide_eq_true h; omega)
theorem tlxT (g x y : Nat) : Statement (.tlxT g x y) := fun _ _ h e =>
  word_lt e (by have h := of_decide_eq_true h; omega)
theorem tlxX (g x y : Nat) : Statement (.tlxX g x y) := fun _ _ h e =>
  word_lt e (by have h := of_decide_eq_true h; omega)
theorem tlxTx (g x y : Nat) : Statement (.tlxTx g x y) := fun _ _ h e =>
  word_lt e (by have h := of_decide_eq_true h; omega)
theorem tla (g x y : Nat) : Statement (.tla g x y) := fun _ _ h e =>
  word_lt e (by have h := of_decide_eq_true h; omega)
theorem tlaT (g x y : Nat) : Statement (.tlaT g x y) := fun _ _ h e =>
  word_lt e (by have h := of_decide_eq_true h; omega)
theorem tproj (g x y : Nat) : Statement (.tproj g x y) := fun _ _ h e =>
  word_lt e (by have h := of_decide_eq_true h; omega)
theorem tlplE (g x y : Nat) : Statement (.tlplE g x y) := fun _ _ h e =>
  word_lt e (by have h := of_decide_eq_true h; omega)
theorem tlplA (g x y : Nat) : Statement (.tlplA g x y) := fun _ _ h e =>
  word_lt e (by have h := of_decide_eq_true h; omega)
theorem tlplEa (g x y : Nat) : Statement (.tlplEa g x y) := fun _ _ h e =>
  word_lt e (by have h := of_decide_eq_true h; omega)
theorem tzero (m : Nat) : Statement (.tzero m) := fun _ _ h e =>
  word_lt e (by have h := of_decide_eq_true h; omega)
theorem tldacc (f x y u : Nat) : Statement (.tldacc f x y u) := fun _ _ h e =>
  word_lt e (by have h := of_decide_eq_true h; omega)
theorem tstacc (f x y u : Nat) : Statement (.tstacc f x y u) := fun _ _ h e =>
  word_lt e (by have h := of_decide_eq_true h; omega)
theorem tstaccG (f x y u : Nat) : Statement (.tstaccG f x y u) := fun _ _ h e =>
  word_lt e (by have h := of_decide_eq_true h; omega)
theorem tscale (x y m : Nat) : Statement (.tscale x y m) := fun _ _ h e =>
  word_lt e (by have h := of_decide_eq_true h; omega)
theorem cpy (c g x y f : Nat) : Statement (.cpy c g x y f) := fun _ _ h e =>
  word_lt e (by have h := of_decide_eq_true h; omega)
theorem cpym (c g x y m f : Nat) : Statement (.cpym c g x y m f) := fun _ _ h e =>
  word_lt e (by have h := of_decide_eq_true h; omega)
theorem rdx (c g x y m f : Nat) : Statement (.rdx c g x y m f) := fun _ _ h e =>
  word_lt e (by have h := of_decide_eq_true h; omega)
theorem drain (c : Nat) : Statement (.drain c) := fun _ _ h e =>
  word_lt e (by have h := of_decide_eq_true h; omega)
theorem qpush (k x y : Nat) : Statement (.qpush k x y) := fun _ _ h e =>
  word_lt e (by have h := of_decide_eq_true h; omega)
theorem stash (c g x y : Nat) : Statement (.stash c g x y) := fun _ _ h e =>
  word_lt e (by have h := of_decide_eq_true h; omega)
theorem unstash (c g x y f : Nat) : Statement (.unstash c g x y f) := fun _ _ h e =>
  word_lt e (by have h := of_decide_eq_true h; omega)
theorem sdrop (c y : Nat) : Statement (.sdrop c y) := fun _ _ h e =>
  word_lt e (by have h := of_decide_eq_true h; omega)
theorem chsend (c g x y : Nat) : Statement (.chsend c g x y) := fun _ _ h e =>
  word_lt e (by have h := of_decide_eq_true h; omega)
theorem chack (c y : Nat) : Statement (.chack c y) := fun _ _ h e =>
  word_lt e (by have h := of_decide_eq_true h; omega)
theorem glean (c g x y : Nat) : Statement (.glean c g x y) := fun _ _ h e =>
  word_lt e (by have h := of_decide_eq_true h; omega)
theorem br (c a o : Nat) : Statement (.br c a o) := fun _ _ h e =>
  word_lt e (by have h := of_decide_eq_true h; omega)
theorem call (o : Nat) : Statement (.call o) := fun _ _ h e =>
  word_lt e (by have h := of_decide_eq_true h; omega)
theorem jr (a : Nat) : Statement (.jr a) := fun _ _ h e =>
  word_lt e (by have h := of_decide_eq_true h; omega)
theorem jrl (a : Nat) : Statement (.jrl a) := fun _ _ h e =>
  word_lt e (by have h := of_decide_eq_true h; omega)
theorem loopEnter (a o : Nat) : Statement (.loopEnter a o) := fun _ _ h e =>
  word_lt e (by have h := of_decide_eq_true h; omega)
theorem loop (a o : Nat) : Statement (.loop a o) := fun _ _ h e =>
  word_lt e (by have h := of_decide_eq_true h; omega)
theorem mpush (a : Nat) : Statement (.mpush a) := fun _ _ h e =>
  word_lt e (by have h := of_decide_eq_true h; omega)
theorem mpushRaw (a : Nat) : Statement (.mpushRaw a) := fun _ _ h e =>
  word_lt e (by have h := of_decide_eq_true h; omega)
theorem mpop (n : Nat) : Statement (.mpop n) := fun _ _ h e =>
  word_lt e (by have h := of_decide_eq_true h; omega)
theorem bnone (o : Nat) : Statement (.bnone o) := fun _ _ h e =>
  word_lt e (by have h := of_decide_eq_true h; omega)
theorem fmtw (a : Nat) : Statement (.fmtw a) := fun _ _ h e =>
  word_lt e (by have h := of_decide_eq_true h; omega)
theorem fmtwVty (v : Nat) : Statement (.fmtwVty v) := fun _ _ h e =>
  word_lt e (by have h := of_decide_eq_true h; omega)
theorem fmtwMab (b a : Nat) : Statement (.fmtwMab b a) := fun _ _ h e =>
  word_lt e (by have h := of_decide_eq_true h; omega)
theorem fmtwRnd (i s r : Nat) : Statement (.fmtwRnd i s r) := fun _ _ h e =>
  word_lt e (by have h := of_decide_eq_true h; omega)
theorem trap (c a k : Nat) : Statement (.trap c a k) := fun _ _ h e =>
  word_lt e (by have h := of_decide_eq_true h; omega)
theorem sysc (k : Nat) : Statement (.sysc k) := fun _ _ h e =>
  word_lt e (by have h := of_decide_eq_true h; omega)
theorem ebrk (k : Nat) : Statement (.ebrk k) := fun _ _ h e =>
  word_lt e (by have h := of_decide_eq_true h; omega)
theorem halt (k : Nat) : Statement (.halt k) := fun _ _ h e =>
  word_lt e (by have h := of_decide_eq_true h; omega)
theorem nopS : Statement (.nopS) := fun _ _ _ e => word_lt e (by decide)
theorem phaseCommitCore : Statement (.phaseCommitCore) := fun _ _ _ e => word_lt e (by decide)
theorem phaseCommitClu : Statement (.phaseCommitClu) := fun _ _ _ e => word_lt e (by decide)
theorem phaseCommitDev : Statement (.phaseCommitDev) := fun _ _ _ e => word_lt e (by decide)
theorem phaseCommitSys : Statement (.phaseCommitSys) := fun _ _ _ e => word_lt e (by decide)
theorem phaseCommitRcv : Statement (.phaseCommitRcv) := fun _ _ _ e => word_lt e (by decide)
theorem phaseAbort : Statement (.phaseAbort) := fun _ _ _ e => word_lt e (by decide)
theorem exit : Statement (.exit) := fun _ _ _ e => word_lt e (by decide)
theorem crewLeave : Statement (.crewLeave) := fun _ _ _ e => word_lt e (by decide)
theorem rcom : Statement (.rcom) := fun _ _ _ e => word_lt e (by decide)
theorem nopV : Statement (.nopV) := fun _ _ _ e => word_lt e (by decide)
theorem nopM : Statement (.nopM) := fun _ _ _ e => word_lt e (by decide)
theorem twait : Statement (.twait) := fun _ _ _ e => word_lt e (by decide)
theorem nopC : Statement (.nopC) := fun _ _ _ e => word_lt e (by decide)
theorem nopX : Statement (.nopX) := fun _ _ _ e => word_lt e (by decide)
theorem minv : Statement (.minv) := fun _ _ _ e => word_lt e (by decide)
theorem fmtwBlk00 : Statement (.fmtwBlk00) := fun _ _ _ e => word_lt e (by decide)
theorem fmtwBlk01 : Statement (.fmtwBlk01) := fun _ _ _ e => word_lt e (by decide)
theorem fmtwBlk10 : Statement (.fmtwBlk10) := fun _ _ _ e => word_lt e (by decide)
theorem fmtwBlk11 : Statement (.fmtwBlk11) := fun _ _ _ e => word_lt e (by decide)
theorem yield : Statement (.yield) := fun _ _ _ e => word_lt e (by decide)
theorem bundleIssue : Statement (.bundleIssue) := fun _ _ _ e => nomatch e
theorem bundleCommit : Statement (.bundleCommit) := fun _ _ _ e => nomatch e
theorem resultLanding : Statement (.resultLanding) := fun _ _ _ e => nomatch e
theorem globalLoadReturn : Statement (.globalLoadReturn) := fun _ _ _ e => nomatch e
theorem phaseReissue : Statement (.phaseReissue) := fun _ _ _ e => nomatch e
theorem walkComplete : Statement (.walkComplete) := fun _ _ _ e => nomatch e
theorem killComplete : Statement (.killComplete) := fun _ _ _ e => nomatch e
theorem contextLeave : Statement (.contextLeave) := fun _ _ _ e => nomatch e
theorem preemptionSwitch : Statement (.preemptionSwitch) := fun _ _ _ e => nomatch e
theorem dispatch : Statement (.dispatch) := fun _ _ _ e => nomatch e
theorem readyEntryAging : Statement (.readyEntryAging) := fun _ _ _ e => nomatch e
theorem arrivalPost : Statement (.arrivalPost) := fun _ _ _ e => nomatch e
theorem arrivalQueueAging : Statement (.arrivalQueueAging) := fun _ _ _ e => nomatch e
theorem squareZeroingComplete : Statement (.squareZeroingComplete) := fun _ _ _ e => nomatch e
theorem trig : Statement (.trig) := fun _ _ _ e => nomatch e
theorem replayStart : Statement (.replayStart) := fun _ _ _ e => nomatch e
theorem prefetchComplete : Statement (.prefetchComplete) := fun _ _ _ e => nomatch e
theorem granaryRequest : Statement (.granaryRequest) := fun _ _ _ e => nomatch e
theorem killreq : Statement (.killreq) := fun _ _ _ e => nomatch e
theorem schedulerMemoryWrite : Statement (.schedulerMemoryWrite) := fun _ _ _ e => nomatch e
theorem ringBlockWrite : Statement (.ringBlockWrite) := fun _ _ _ e => nomatch e
theorem splitChange : Statement (.splitChange) := fun _ _ _ e => nomatch e
theorem tlbInvalidate : Statement (.tlbInvalidate) := fun _ _ _ e => nomatch e
theorem invalidationComplete : Statement (.invalidationComplete) := fun _ _ _ e => nomatch e
theorem rtload : Statement (.rtload) := fun _ _ _ e => nomatch e
theorem routeTableSwitch : Statement (.routeTableSwitch) := fun _ _ _ e => nomatch e
theorem migcmd : Statement (.migcmd) := fun _ _ _ e => nomatch e
theorem migrationMoveComplete : Statement (.migrationMoveComplete) := fun _ _ _ e => nomatch e
theorem migrationReport : Statement (.migrationReport) := fun _ _ _ e => nomatch e
theorem memoryControllerAccess : Statement (.memoryControllerAccess) := fun _ _ _ e => nomatch e
theorem heatDecay : Statement (.heatDecay) := fun _ _ _ e => nomatch e
theorem clrq : Statement (.clrq) := fun _ _ _ e => nomatch e
theorem keyLoad : Statement (.keyLoad) := fun _ _ _ e => nomatch e
theorem attestation : Statement (.attestation) := fun _ _ _ e => nomatch e
theorem firmwareUpdate : Statement (.firmwareUpdate) := fun _ _ _ e => nomatch e
theorem granuleRetire : Statement (.granuleRetire) := fun _ _ _ e => nomatch e
theorem hostApertureRead : Statement (.hostApertureRead) := fun _ _ _ e => nomatch e
theorem hostApertureWrite : Statement (.hostApertureWrite) := fun _ _ _ e => nomatch e
theorem intstatClear : Statement (.intstatClear) := fun _ _ _ e => nomatch e
theorem registerWindowWrite : Statement (.registerWindowWrite) := fun _ _ _ e => nomatch e
theorem parkTimeout : Statement (.parkTimeout) := fun _ _ _ e => nomatch e
theorem contextWake : Statement (.contextWake) := fun _ _ _ e => nomatch e
theorem spinPark : Statement (.spinPark) := fun _ _ _ e => nomatch e
theorem remoteTimeout : Statement (.remoteTimeout) := fun _ _ _ e => nomatch e
theorem packetHop : Statement (.packetHop) := fun _ _ _ e => nomatch e
theorem ownerRequest : Statement (.ownerRequest) := fun _ _ _ e => nomatch e
theorem remoteReply : Statement (.remoteReply) := fun _ _ _ e => nomatch e
theorem storeAck : Statement (.storeAck) := fun _ _ _ e => nomatch e
theorem publishFlip : Statement (.publishFlip) := fun _ _ _ e => nomatch e
theorem tcBlockLand : Statement (.tcBlockLand) := fun _ _ _ e => nomatch e
theorem tcCreditReturn : Statement (.tcCreditReturn) := fun _ _ _ e => nomatch e
theorem recipientAck : Statement (.recipientAck) := fun _ _ _ e => nomatch e
theorem copySegment : Statement (.copySegment) := fun _ _ _ e => nomatch e
theorem copyComplete : Statement (.copyComplete) := fun _ _ _ e => nomatch e
theorem handlerStart : Statement (.handlerStart) := fun _ _ _ e => nomatch e
theorem chainedWordPlace : Statement (.chainedWordPlace) := fun _ _ _ e => nomatch e
theorem chainedWordAccept : Statement (.chainedWordAccept) := fun _ _ _ e => nomatch e
theorem mtWordStart : Statement (.mtWordStart) := fun _ _ _ e => nomatch e
theorem sequencerStep : Statement (.sequencerStep) := fun _ _ _ e => nomatch e
theorem mtWordComplete : Statement (.mtWordComplete) := fun _ _ _ e => nomatch e
theorem xformComplete : Statement (.xformComplete) := fun _ _ _ e => nomatch e
theorem releasePerformed : Statement (.releasePerformed) := fun _ _ _ e => nomatch e
theorem fwaitComplete : Statement (.fwaitComplete) := fun _ _ _ e => nomatch e
theorem cksealComplete : Statement (.cksealComplete) := fun _ _ _ e => nomatch e
theorem cellarPersist : Statement (.cellarPersist) := fun _ _ _ e => nomatch e
theorem l2Eviction : Statement (.l2Eviction) := fun _ _ _ e => nomatch e
theorem containmentEvent : Statement (.containmentEvent) := fun _ _ _ e => nomatch e
theorem replayFromSeal : Statement (.replayFromSeal) := fun _ _ _ e => nomatch e
theorem deviceReset : Statement (.deviceReset) := fun _ _ _ e => nomatch e
theorem ioDieReset : Statement (.ioDieReset) := fun _ _ _ e => nomatch e
theorem powerOn : Statement (.powerOn) := fun _ _ _ e => nomatch e
theorem reducedServiceEnd : Statement (.reducedServiceEnd) := fun _ _ _ e => nomatch e
theorem thermalContainment : Statement (.thermalContainment) := fun _ _ _ e => nomatch e
theorem thermalRelease : Statement (.thermalRelease) := fun _ _ _ e => nomatch e
theorem throttleDown : Statement (.throttleDown) := fun _ _ _ e => nomatch e
theorem throttleStepUp : Statement (.throttleStepUp) := fun _ _ _ e => nomatch e
theorem linkDown : Statement (.linkDown) := fun _ _ _ e => nomatch e
theorem flitReceive : Statement (.flitReceive) := fun _ _ _ e => nomatch e
theorem linkRetrain : Statement (.linkRetrain) := fun _ _ _ e => nomatch e
theorem linkStateFrame : Statement (.linkStateFrame) := fun _ _ _ e => nomatch e
theorem linkTrainingAttempt : Statement (.linkTrainingAttempt) := fun _ _ _ e => nomatch e
theorem linkRetryTimer : Statement (.linkRetryTimer) := fun _ _ _ e => nomatch e
theorem linkQuarantine : Statement (.linkQuarantine) := fun _ _ _ e => nomatch e
theorem cxlPortDown : Statement (.cxlPortDown) := fun _ _ _ e => nomatch e
theorem gleanerFrame : Statement (.gleanerFrame) := fun _ _ _ e => nomatch e
theorem gleanerResend : Statement (.gleanerResend) := fun _ _ _ e => nomatch e
theorem gleanerRingFailure : Statement (.gleanerRingFailure) := fun _ _ _ e => nomatch e
theorem patrolScrub : Statement (.patrolScrub) := fun _ _ _ e => nomatch e
theorem rptFirmwareWrite : Statement (.rptFirmwareWrite) := fun _ _ _ e => nomatch e
theorem linkBindingWrite : Statement (.linkBindingWrite) := fun _ _ _ e => nomatch e
theorem powerLoss : Statement (.powerLoss) := fun _ _ _ e => nomatch e
theorem hbmStackTrained : Statement (.hbmStackTrained) := fun _ _ _ e => nomatch e
theorem ethernetPortStateChange : Statement (.ethernetPortStateChange) := fun _ _ _ e => nomatch e
theorem gleanerRequest : Statement (.gleanerRequest) := fun _ _ _ e => nomatch e
theorem publishStatusReturn : Statement (.publishStatusReturn) := fun _ _ _ e => nomatch e

end Sys2Proof.Laws.Encoding
end

