-- ==== Sys2Proof/Tests/Slice0.lean ====
section
/-! SUPPORT. Tests: ill-formed terms, words of every form bit by bit, results that the manual's tables and rules give, and
for each statement's hypotheses, clause by clause, a state and operands that meet them. -/

namespace Sys2Proof.Tests

set_option Elab.async false

open Sys2Proof.Machine Sys2Proof.Safety

/-! ### Ill-formed terms -/

/-- Ill-formed terms, each against one check. -/
theorem wf_refuses1 :
    (Instr.add 32 4 16).wf = false ∧
    (Instr.clz 32 31).wf = false ∧
    (Instr.cmp 32 30 24 3).wf = false ∧
    (Instr.cmp 6 31 1 6).wf = false ∧
    (Instr.bextN64 27 0 57 34).wf = false ∧
    (Instr.bextI64 28 31 29 44).wf = false ∧
    (Instr.bins 14 14 58 37).wf = false ∧
    (Instr.crd 1 3409).wf = false ∧
    (Instr.cwr 32 69).wf = false ∧
    (Instr.cwr 2 1782).wf = false ∧
    (Instr.gset 32 0 9).wf = false ∧
    (Instr.gset 24 0 88).wf = false ∧
    (Instr.gget 6 0 110).wf = false ∧
    (Instr.ld 24 22 7 3844).wf = false ∧
    (Instr.st 11 3 3 384).wf = false ∧
    (Instr.ldx 24 16107).wf = false ∧
    (Instr.stx 7 12075).wf = false ∧
    (Instr.ldAcq 32 8 2 0 1792).wf = false ∧
    (Instr.ldAcq 29 21 6 0 420).wf = false ∧
    (Instr.stRel 24 20 5 0 164).wf = false ∧
    (Instr.amoAdd 32 21 0 1 1 0).wf = false ∧
    (Instr.amoAdd 22 12 23 7 3 1).wf = false ∧
    (Instr.amoAdd 24 22 5 2 0 1).wf = false ∧
    (Instr.amoAdd 22 18 21 4 1 0).wf = false ∧
    (Instr.cas 17 27 16 6 3 1).wf = false ∧
    (Instr.cas 27 12 15 1 0 1).wf = false ∧
    (Instr.cas 8 13 0 4 1 1).wf = false ∧
    (Instr.fence 14 7).wf = false ∧
    (Instr.fwait 32).wf = false ∧
    (Instr.publish 22 6).wf = false := by decide +kernel

/-- Ill-formed terms, each against one check. -/
theorem wf_refuses2 :
    (Instr.xformSplit 14 25 15 9).wf = false ∧
    (Instr.xformMerge 10 15 29 6).wf = false ∧
    (Instr.xformConv 9 30 22 15 3).wf = false ∧
    (Instr.xformConv 0 13 24 0 6).wf = false ∧
    (Instr.phaseStart 31 13 11).wf = false ∧
    (Instr.suspend 2 0 0).wf = false ∧
    (Instr.suspend 1 4 3).wf = false ∧
    (Instr.suspend 0 7 1).wf = false ∧
    (Instr.rdcnt 21 280).wf = false ∧
    (Instr.rbeg 64).wf = false ∧
    (Instr.dormCount 32).wf = false ∧
    (Instr.vfadd 31 9 6).wf = false ∧
    (Instr.vfma 31 12 17 10).wf = false ∧
    (Instr.vnfma 31 22 30 9).wf = false ∧
    (Instr.viadd 31 30 17).wf = false ∧
    (Instr.vand 31 21 11).wf = false ∧
    (Instr.vor 31 22 24).wf = false ∧
    (Instr.vxor 31 25 0).wf = false ∧
    (Instr.vshl 31 11 30).wf = false ∧
    (Instr.viabs 31 25).wf = false ∧
    (Instr.vcmp 31 26 25 1).wf = false ∧
    (Instr.vcmp 18 7 17 7).wf = false ∧
    (Instr.vcmpm 5 15 7).wf = false ∧
    (Instr.vsel 31 20 21 0).wf = false ∧
    (Instr.vcvt 0 22 0 14).wf = false ∧
    (Instr.vcvtTote 31 19 12).wf = false ∧
    (Instr.vcvtTote 12 25 1).wf = false ∧
    (Instr.vcvtTote 30 24 25).wf = false ∧
    (Instr.vcvtFrte 13 26 1).wf = false ∧
    (Instr.vcvtFrte 25 12 25).wf = false := by decide +kernel

/-- Ill-formed terms, each against one check. -/
theorem wf_refuses3 :
    (Instr.vfabs 31 28).wf = false ∧
    (Instr.vsqrt 31 21).wf = false ∧
    (Instr.vrcp 31 10).wf = false ∧
    (Instr.vexp2 31 30).wf = false ∧
    (Instr.vlog2 31 31).wf = false ∧
    (Instr.vtanh 31 26).wf = false ∧
    (Instr.vperm 31 3 30).wf = false ∧
    (Instr.vperm2 31 9 27 17).wf = false ∧
    (Instr.vzipl 31 27 20).wf = false ∧
    (Instr.vunze 31 28 17).wf = false ∧
    (Instr.vrot 31 1 17).wf = false ∧
    (Instr.vcomp 31 19).wf = false ∧
    (Instr.vm2v 31).wf = false ∧
    (Instr.vmovi 31 323869).wf = false ∧
    (Instr.vext64 26 0 3).wf = false ∧
    (Instr.vaccr 31 16 1 0).wf = false ∧
    (Instr.vaccr 23 10 2 0).wf = false ∧
    (Instr.vaccw 32 28 1 0).wf = false ∧
    (Instr.vaccw 17 11 2 3).wf = false ∧
    (Instr.vaccrF64 20 11 1 1).wf = false ∧
    (Instr.vaccwF64 28 9 0 3).wf = false ∧
    (Instr.vld 31 2 2).wf = false ∧
    (Instr.vld 3 7 3).wf = false ∧
    (Instr.vst 28 9 3).wf = false ∧
    (Instr.vgat 31 0 8).wf = false ∧
    (Instr.vqh 31 4).wf = false ∧
    (Instr.tmm 16 3 20).wf = false ∧
    (Instr.tzero 16).wf = false ∧
    (Instr.tzero 0).wf = false ∧
    (Instr.tldacc 7 27 21 0).wf = false := by decide +kernel

/-- Ill-formed terms, each against one check. -/
theorem wf_refuses4 :
    (Instr.tstacc 9 11 18 0).wf = false ∧
    (Instr.tstaccG 15 15 10 2).wf = false ∧
    (Instr.tscale 32 28 7).wf = false ∧
    (Instr.tscale 3 0 0).wf = false ∧
    (Instr.cpy 8 23 17 25 27).wf = false ∧
    (Instr.cpy 6 31 11 24 38).wf = false ∧
    (Instr.cpym 8 12 15 15 2 2).wf = false ∧
    (Instr.cpym 1 31 6 17 2 5).wf = false ∧
    (Instr.rdx 0 31 10 7 0 6).wf = false ∧
    (Instr.drain 8).wf = false ∧
    (Instr.qpush 8 29 6).wf = false ∧
    (Instr.stash 8 29 19 1).wf = false ∧
    (Instr.unstash 7 31 8 4 7).wf = false ∧
    (Instr.sdrop 8 19).wf = false ∧
    (Instr.br 14 4 100268).wf = false ∧
    (Instr.br 0 12 128519).wf = false ∧
    (Instr.call 131072).wf = false ∧
    (Instr.loop 27 45672).wf = false ∧
    (Instr.mpop 16).wf = false ∧
    (Instr.fmtwVty 14).wf = false ∧
    (Instr.fmtwMab 64 38).wf = false ∧
    (Instr.fmtwRnd 8 1 4).wf = false ∧
    (Instr.fmtwRnd 0 1 6).wf = false ∧
    (Instr.trap 7 21 110120).wf = false ∧
    (Instr.trap 0 24 121385).wf = false ∧
    (Instr.sysc 131072).wf = false := by decide +kernel

theorem wf_refuses_loop : (Instr.loopEnter 4 0).wf = false := by decide

/-! ### Words of every form -/

/-- Words of the S map, bit by bit from the encodings of R56, R107. -/
theorem decode_s1 :
    decodeSlot .s 0b000000_00000000000000000000000000 = some (.nopS) ∧
    decodeSlot .s 0b000001_01010_10101_01110_00000000000 = some (.add 10 21 14) ∧
    decodeSlot .s 0b000001_01010_10101_01110_00000000001 = some (.sub 10 21 14) ∧
    decodeSlot .s 0b000001_01010_10101_01110_00000000010 = some (.and 10 21 14) ∧
    decodeSlot .s 0b000001_01010_10101_01110_00000000011 = some (.or 10 21 14) ∧
    decodeSlot .s 0b000001_01010_10101_01110_00000000100 = some (.xor 10 21 14) ∧
    decodeSlot .s 0b000001_01010_10101_01110_00000000101 = some (.andn 10 21 14) ∧
    decodeSlot .s 0b000001_01010_10101_01110_00000000110 = some (.shl 10 21 14) ∧
    decodeSlot .s 0b000001_01010_10101_01110_00000000111 = some (.shr 10 21 14) ∧
    decodeSlot .s 0b000001_01010_10101_01110_00000001000 = some (.sar 10 21 14) ∧
    decodeSlot .s 0b000001_01010_10101_01110_00000001001 = some (.ror 10 21 14) ∧
    decodeSlot .s 0b000001_01010_10101_01110_00000001010 = some (.minI64 10 21 14) ∧
    decodeSlot .s 0b000001_01010_10101_01110_00000001011 = some (.minN64 10 21 14) ∧
    decodeSlot .s 0b000001_01010_10101_01110_00000001100 = some (.maxI64 10 21 14) ∧
    decodeSlot .s 0b000001_01010_10101_01110_00000001101 = some (.maxN64 10 21 14) ∧
    decodeSlot .s 0b000001_01010_10101_01110_00000001110 = some (.addsI64 10 21 14) ∧
    decodeSlot .s 0b000001_01010_10101_01110_00000001111 = some (.addsN64 10 21 14) ∧
    decodeSlot .s 0b000001_01010_10101_01110_00000010000 = some (.subsI64 10 21 14) ∧
    decodeSlot .s 0b000001_01010_10101_01110_00000010001 = some (.subsN64 10 21 14) ∧
    decodeSlot .s 0b000001_01010_10101_01110_00000010010 = some (.mul 10 21 14) ∧
    decodeSlot .s 0b000001_01010_10101_01110_00000010011 = some (.mulhI64 10 21 14) ∧
    decodeSlot .s 0b000001_01010_10101_01110_00000010100 = some (.mulhN64 10 21 14) := by decide +kernel

/-- Words of the S map, bit by bit from the encodings of R108, R109. -/
theorem decode_s2 :
    decodeSlot .s 0b000010_01010_10101_0000000000000000 = some (.clz 10 21) ∧
    decodeSlot .s 0b000010_01010_10101_0000000000000001 = some (.ctz 10 21) ∧
    decodeSlot .s 0b000010_01010_10101_0000000000000010 = some (.popc 10 21) ∧
    decodeSlot .s 0b000010_01010_10101_0000000000000011 = some (.neg 10 21) ∧
    decodeSlot .s 0b000010_01010_10101_0000000000000100 = some (.not 10 21) ∧
    decodeSlot .s 0b000010_01010_10101_0000000000000101 = some (.abs 10 21) ∧
    decodeSlot .s 0b000010_01010_10101_0000000000000110 = some (.sx8 10 21) ∧
    decodeSlot .s 0b000010_01010_10101_0000000000000111 = some (.sx16 10 21) ∧
    decodeSlot .s 0b000010_01010_10101_0000000000001000 = some (.sx32 10 21) ∧
    decodeSlot .s 0b000010_01010_10101_0000000000001001 = some (.zx8 10 21) ∧
    decodeSlot .s 0b000010_01010_10101_0000000000001010 = some (.zx16 10 21) ∧
    decodeSlot .s 0b000010_01010_10101_0000000000001011 = some (.zx32 10 21) ∧
    decodeSlot .s 0b000010_01010_10101_0000000000001100 = some (.brev 10 21) ∧
    decodeSlot .s 0b000010_01010_10101_0000000000001101 = some (.bswap 10 21) ∧
    decodeSlot .s 0b000011_01010_10101_01110_00000000000 = some (.divI64 10 21 14) ∧
    decodeSlot .s 0b000011_01010_10101_01110_00000000001 = some (.divN64 10 21 14) ∧
    decodeSlot .s 0b000011_01010_10101_01110_00000000010 = some (.remI64 10 21 14) ∧
    decodeSlot .s 0b000011_01010_10101_01110_00000000011 = some (.remN64 10 21 14) := by decide +kernel

/-- Words of the S map, bit by bit from the encodings of R110, R111, R112, R113, R114, R115. -/
theorem decode_s3 :
    decodeSlot .s 0b000100_01010_10101_01110_00000000_011 = some (.cmp 10 21 14 3) ∧
    decodeSlot .s 0b000101_01010_10101_1011001101101101 = some (.addi 10 21 45933) ∧
    decodeSlot .s 0b000110_01010_10101_1011001101101101 = some (.andi 10 21 45933) ∧
    decodeSlot .s 0b000111_01010_10101_1011001101101101 = some (.ori 10 21 45933) ∧
    decodeSlot .s 0b001000_01010_10101_1011001101101101 = some (.xori 10 21 45933) ∧
    decodeSlot .s 0b001001_01010_10101_0000000000_100101 = some (.shli 10 21 37) ∧
    decodeSlot .s 0b001001_01010_10101_0000000001_100101 = some (.shri 10 21 37) ∧
    decodeSlot .s 0b001001_01010_10101_0000000010_100101 = some (.sari 10 21 37) ∧
    decodeSlot .s 0b001001_01010_10101_0000000011_100101 = some (.rori 10 21 37) ∧
    decodeSlot .s 0b001010_01010_10101_101_1011011001011 = some (.cmpi 10 21 5 5835) ∧
    decodeSlot .s 0b001011_01010_100110101101010010110 = some (.movi 10 1268374) ∧
    decodeSlot .s 0b001100_01010_10101_1011001101101101 = some (.movk 10 21 45933) ∧
    decodeSlot .s 0b001101_01010_10101_1011001101101101 = some (.lea 10 21 45933) ∧
    decodeSlot .s 0b001110_01010_10101_0000_010101_100110 = some (.bextN64 10 21 21 38) ∧
    decodeSlot .s 0b001110_01010_10101_0001_010101_100110 = some (.bextI64 10 21 21 38) ∧
    decodeSlot .s 0b001111_01010_10101_0000_010101_100110 = some (.bins 10 21 21 38) := by decide +kernel

/-- Words of the S map, bit by bit from the encodings of R116, R118, R240, R242, R244, R246, R248. -/
theorem decode_s4 :
    decodeSlot .s 0b010000_01010_000000000_000000110011 = some (.crd 10 51) ∧
    decodeSlot .s 0b010001_00000_10101_0000_000001000111 = some (.cwr 21 71) ∧
    decodeSlot .s 0b010010_00000_10101_00000000_1_1100101 = some (.gset 21 1 101) ∧
    decodeSlot .s 0b010011_01010_0000000000000_0_0101101 = some (.gget 10 0 45) ∧
    decodeSlot .s 0b010100_01010_10101_101_1011011001011 = some (.ld 10 21 5 5835) ∧
    decodeSlot .s 0b010101_01010_10101_100_1011011001011 = some (.st 10 21 4 5835) ∧
    decodeSlot .s 0b010110_01010_0000000_10101001101000 = some (.ldx 10 10856) ∧
    decodeSlot .s 0b010110_01010_0000010_11110101001000 = some (.stx 10 15688) ∧
    decodeSlot .s 0b010111_01010_10101_0_010_1_10011010011 = some (.ldAcq 10 21 2 1 1235) ∧
    decodeSlot .s 0b010111_01010_10101_1_100_1_10011010011 = some (.stRel 10 21 4 1 1235) ∧
    decodeSlot .s 0b011000_01010_10101_01110_0_011_01_1_0000 = some (.amoAdd 10 21 14 3 1 1) ∧
    decodeSlot .s 0b011000_01010_10101_01110_0_011_01_1_0001 = some (.amoAnd 10 21 14 3 1 1) ∧
    decodeSlot .s 0b011000_01010_10101_01110_0_011_01_1_0010 = some (.amoOr 10 21 14 3 1 1) ∧
    decodeSlot .s 0b011000_01010_10101_01110_0_011_01_1_0011 = some (.amoXor 10 21 14 3 1 1) ∧
    decodeSlot .s 0b011000_01010_10101_01110_0_011_01_1_0100 = some (.amoMinI 10 21 14 3 1 1) ∧
    decodeSlot .s 0b011000_01010_10101_01110_0_011_01_1_0101 = some (.amoMaxI 10 21 14 3 1 1) ∧
    decodeSlot .s 0b011000_01010_10101_01110_0_011_01_1_0110 = some (.amoMinN 10 21 14 3 1 1) ∧
    decodeSlot .s 0b011000_01010_10101_01110_0_011_01_1_0111 = some (.amoMaxN 10 21 14 3 1 1) ∧
    decodeSlot .s 0b011000_01010_10101_01110_0_011_01_1_1000 = some (.amoSwap 10 21 14 3 1 1) ∧
    decodeSlot .s 0b011000_01010_10101_01110_0_011_01_1_1001 = some (.amoFadd 10 21 14 3 1 1) := by decide +kernel

/-- Words of the S map, bit by bit from the encodings of R197, R249, R251, R252, R253, R256, R257, R262. -/
theorem decode_s5 :
    decodeSlot .s 0b011001_01010_10101_01110_0_011_01_1_0000 = some (.cas 10 21 14 3 1 1) ∧
    decodeSlot .s 0b011010_01010_000000000000000000_100 = some (.fence 10 4) ∧
    decodeSlot .s 0b011011_00000_10101_0000000000000000 = some (.fwait 21) ∧
    decodeSlot .s 0b011100_00000_10101_0000000000000_100 = some (.publish 21 4) ∧
    decodeSlot .s 0b011101_01010_10101_01110_000_1000_0000 = some (.xformSplit 10 21 14 8) ∧
    decodeSlot .s 0b011101_01010_10101_01110_001_1001_0000 = some (.xformMerge 10 21 14 9) ∧
    decodeSlot .s 0b011101_01010_10101_01110_010_1001_0011 = some (.xformConv 10 21 14 9 3) ∧
    decodeSlot .s 0b011101_01010_00000_01110_01100000000 = some (.xformZero 10 14) ∧
    decodeSlot .s 0b011101_01010_10101_01110_10000000000 = some (.xformBpack 10 21 14) ∧
    decodeSlot .s 0b011101_01010_10101_01110_10100000000 = some (.xformBunpack 10 21 14) ∧
    decodeSlot .s 0b011110_00000_10101_00000000_1000_1010 = some (.phaseStart 21 8 10) ∧
    decodeSlot .s 0b011110_00000000000100000000000_000 = some (.phaseCommitCore) ∧
    decodeSlot .s 0b011110_00000000000100000000000_001 = some (.phaseCommitClu) ∧
    decodeSlot .s 0b011110_00000000000100000000000_010 = some (.phaseCommitDev) ∧
    decodeSlot .s 0b011110_00000000000100000000000_011 = some (.phaseCommitSys) ∧
    decodeSlot .s 0b011110_00000000000100000000000_100 = some (.phaseCommitRcv) ∧
    decodeSlot .s 0b011110_00000000001000000000000000 = some (.phaseAbort) := by decide +kernel

/-- Words of the S map, bit by bit from the encodings of R264, R377, R378, R379, R380, R382, R387. -/
theorem decode_s6 :
    decodeSlot .s 0b011111_01010_10101_00000000000000_10 = some (.ckseal 10 21 2) ∧
    decodeSlot .s 0b100000_01010_10101_0000000000_100101 = some (.spawn 10 21 37) ∧
    decodeSlot .s 0b100001_00000000000000000000_1_101_10 = some (.suspend 1 5 2) ∧
    decodeSlot .s 0b100010_00000000000000000000000000 = some (.exit) ∧
    decodeSlot .s 0b100011_01010_10101_0000000000000000 = some (.crewJoin 10 21) ∧
    decodeSlot .s 0b100011_00000000000000000000000001 = some (.crewLeave) ∧
    decodeSlot .s 0b100011_01010_10101_0000000000000010 = some (.crewInfo 10 21) ∧
    decodeSlot .s 0b100100_01010_10101_0000000000000000 = some (.wvpin 10 21) ∧
    decodeSlot .s 0b100100_01010_10101_01110_00000001000 = some (.wvpinT 10 21 14) ∧
    decodeSlot .s 0b100100_01010_10101_0000000000000001 = some (.wvget 10 21) ∧
    decodeSlot .s 0b100100_01010_10101_01110_00000001001 = some (.wvgetT 10 21 14) ∧
    decodeSlot .s 0b100100_01010_10101_0000000000000010 = some (.wvrel 10 21) ∧
    decodeSlot .s 0b100100_01010_10101_01110_00000001010 = some (.wvrelT 10 21 14) ∧
    decodeSlot .s 0b100100_01010_10101_0000000000000011 = some (.wvnewStage 10 21) ∧
    decodeSlot .s 0b100100_00000_10101_0000000000000100 = some (.wvnewPub 21) ∧
    decodeSlot .s 0b100101_01010_10101_01110_00000000000 = some (.arrive 10 21 14) := by decide +kernel

/-- Words of the S map, bit by bit from the encodings of R119, R354, R356, R381, R383, R384, R424, R425, R427. -/
theorem decode_s7 :
    decodeSlot .s 0b100110_01010_10101_01110_00000000000 = some (.mwaitN32 10 21 14) ∧
    decodeSlot .s 0b100110_01010_10101_01110_00000000001 = some (.mwaitN64 10 21 14) ∧
    decodeSlot .s 0b100111_01010_10101_01110_00000000000 = some (.gtrig 10 21 14) ∧
    decodeSlot .s 0b101000_00000_10101_01110_00000000000 = some (.barInit 21 14) ∧
    decodeSlot .s 0b101000_00000_10101_01110_00000000001 = some (.barExpect 21 14) ∧
    decodeSlot .s 0b101000_01010_10101_01110_00000000010 = some (.barArrive 10 21 14) ∧
    decodeSlot .s 0b101000_01010_10101_01110_00000000011 = some (.barWait 10 21 14) ∧
    decodeSlot .s 0b101000_01010_10101_01110_00000000100 = some (.barTest 10 21 14) ∧
    decodeSlot .s 0b101001_01010_000000000_000000101010 = some (.rdcnt 10 42) ∧
    decodeSlot .s 0b101010_00000000000000000000_100101 = some (.rbeg 37) ∧
    decodeSlot .s 0b101011_00000000000000000000000000 = some (.rcom) ∧
    decodeSlot .s 0b101100_00000_10101_01110_00000000000 = some (.chkt 21 14) ∧
    decodeSlot .s 0b101101_01010_10101_0000000000000000 = some (.dormArm 10 21) ∧
    decodeSlot .s 0b101101_01010_10101_0000000000000001 = some (.dormDisarm 10 21) ∧
    decodeSlot .s 0b101101_01010_000000000000000000010 = some (.dormCount 10) := by decide +kernel

/-- Words of the V map, bit by bit from the encodings of R56, R136, R137, R138. -/
theorem decode_v1 :
    decodeSlot .v 0b000000_00000000000000000000000000 = some (.nopV) ∧
    decodeSlot .v 0b000001_01010_10101_01110_00000000000 = some (.vfadd 10 21 14) ∧
    decodeSlot .v 0b000001_01010_10101_01110_00000000001 = some (.vfsub 10 21 14) ∧
    decodeSlot .v 0b000001_01010_10101_01110_00000000010 = some (.vfmul 10 21 14) ∧
    decodeSlot .v 0b000001_01010_10101_01110_00000000011 = some (.vfmin 10 21 14) ∧
    decodeSlot .v 0b000001_01010_10101_01110_00000000100 = some (.vfmax 10 21 14) ∧
    decodeSlot .v 0b000001_01010_10101_01110_00000000101 = some (.vfsgn 10 21 14) ∧
    decodeSlot .v 0b000010_01010_10101_01110_10011_000000 = some (.vfma 10 21 14 19) ∧
    decodeSlot .v 0b000010_01010_10101_01110_10011_000001 = some (.vfms 10 21 14 19) ∧
    decodeSlot .v 0b000010_01010_10101_01110_10011_000010 = some (.vnfma 10 21 14 19) ∧
    decodeSlot .v 0b000010_01010_10101_01110_10011_000011 = some (.vnfms 10 21 14 19) ∧
    decodeSlot .v 0b000011_01010_10101_01110_00000000000 = some (.viadd 10 21 14) ∧
    decodeSlot .v 0b000011_01010_10101_01110_00000000001 = some (.visub 10 21 14) ∧
    decodeSlot .v 0b000011_01010_10101_01110_00000000010 = some (.vimul 10 21 14) ∧
    decodeSlot .v 0b000011_01010_10101_01110_00000000011 = some (.vimulh 10 21 14) ∧
    decodeSlot .v 0b000011_01010_10101_01110_00000000100 = some (.vand 10 21 14) ∧
    decodeSlot .v 0b000011_01010_10101_01110_00000000101 = some (.vor 10 21 14) ∧
    decodeSlot .v 0b000011_01010_10101_01110_00000000110 = some (.vxor 10 21 14) ∧
    decodeSlot .v 0b000011_01010_10101_01110_00000000111 = some (.vandn 10 21 14) ∧
    decodeSlot .v 0b000011_01010_10101_01110_00000001000 = some (.vshl 10 21 14) ∧
    decodeSlot .v 0b000011_01010_10101_01110_00000001001 = some (.vshr 10 21 14) ∧
    decodeSlot .v 0b000011_01010_10101_01110_00000001010 = some (.vsar 10 21 14) := by decide +kernel

/-- Words of the V map, bit by bit from the encodings of R138, R139, R140, R141, R142, R143. -/
theorem decode_v2 :
    decodeSlot .v 0b000011_01010_10101_01110_00000001011 = some (.vimin 10 21 14) ∧
    decodeSlot .v 0b000011_01010_10101_01110_00000001100 = some (.vimax 10 21 14) ∧
    decodeSlot .v 0b000011_01010_10101_01110_00000001101 = some (.viadds 10 21 14) ∧
    decodeSlot .v 0b000011_01010_10101_01110_00000001110 = some (.visubs 10 21 14) ∧
    decodeSlot .v 0b000011_01010_10101_0000000000001111 = some (.viabs 10 21) ∧
    decodeSlot .v 0b000011_01010_10101_0000000000010000 = some (.vineg 10 21) ∧
    decodeSlot .v 0b000100_01010_10101_01110_00000000_101 = some (.vcmp 10 21 14 5) ∧
    decodeSlot .v 0b000100_00000_10101_01110_00000001_101 = some (.vcmpm 21 14 5) ∧
    decodeSlot .v 0b000101_01010_10101_01110_10011_000000 = some (.vsel 10 21 14 19) ∧
    decodeSlot .v 0b000101_01010_10101_01110_10011_000001 = some (.vsels 10 21 14 19) ∧
    decodeSlot .v 0b000110_01010_10101_0000000000_10_0110 = some (.vcvt 10 21 2 6) ∧
    decodeSlot .v 0b000110_01010_10101_00000_10100_001110 = some (.vcvtTote 10 21 20) ∧
    decodeSlot .v 0b000110_01010_10101_00000_01001_001111 = some (.vcvtFrte 10 21 9) ∧
    decodeSlot .v 0b000111_01010_10101_0000000000000000 = some (.vfabs 10 21) ∧
    decodeSlot .v 0b000111_01010_10101_0000000000000001 = some (.vfneg 10 21) ∧
    decodeSlot .v 0b000111_01010_10101_0000000000000010 = some (.vsqrt 10 21) ∧
    decodeSlot .v 0b000111_01010_10101_0000000000000011 = some (.vrcp 10 21) ∧
    decodeSlot .v 0b000111_01010_10101_0000000000000100 = some (.vrsqrt 10 21) ∧
    decodeSlot .v 0b000111_01010_10101_0000000000000101 = some (.vexp2 10 21) ∧
    decodeSlot .v 0b000111_01010_10101_0000000000000110 = some (.vexp 10 21) ∧
    decodeSlot .v 0b000111_01010_10101_0000000000000111 = some (.vlog2 10 21) ∧
    decodeSlot .v 0b000111_01010_10101_0000000000001000 = some (.vtanh 10 21) := by decide +kernel

/-- Words of the V map, bit by bit from the encodings of R143, R145, R146, R147. -/
theorem decode_v3 :
    decodeSlot .v 0b000111_01010_10101_0000000000001001 = some (.vsigm 10 21) ∧
    decodeSlot .v 0b001000_01010_10101_01110_00000000000 = some (.vperm 10 21 14) ∧
    decodeSlot .v 0b001000_01010_10101_01110_10011_000001 = some (.vperm2 10 21 14 19) ∧
    decodeSlot .v 0b001000_01010_10101_01110_00000000010 = some (.vzipl 10 21 14) ∧
    decodeSlot .v 0b001000_01010_10101_01110_00000000011 = some (.vziph 10 21 14) ∧
    decodeSlot .v 0b001000_01010_10101_01110_00000000100 = some (.vunze 10 21 14) ∧
    decodeSlot .v 0b001000_01010_10101_01110_00000000101 = some (.vunzo 10 21 14) ∧
    decodeSlot .v 0b001001_01010_10101_0000000000_100101 = some (.vrot 10 21 37) ∧
    decodeSlot .v 0b001001_01010_10101_0000000001_100101 = some (.vshd 10 21 37) ∧
    decodeSlot .v 0b001001_01010_10101_01110_00010_100101 = some (.vcat 10 21 14 37) ∧
    decodeSlot .v 0b001010_01010_10101_0000000000000000 = some (.vredadd 10 21) ∧
    decodeSlot .v 0b001010_01010_10101_0000000000000001 = some (.vredmin 10 21) ∧
    decodeSlot .v 0b001010_01010_10101_0000000000000010 = some (.vredmax 10 21) ∧
    decodeSlot .v 0b001010_01010_10101_0000000000000011 = some (.vredand 10 21) ∧
    decodeSlot .v 0b001010_01010_10101_0000000000000100 = some (.vredor 10 21) ∧
    decodeSlot .v 0b001010_01010_10101_0000000000000101 = some (.vredxor 10 21) := by decide +kernel

/-- Words of the V map, bit by bit from the encodings of R148, R149, R150, R151, R152. -/
theorem decode_v4 :
    decodeSlot .v 0b001011_01010_10101_0000000000000000 = some (.vscanadd 10 21) ∧
    decodeSlot .v 0b001011_01010_10101_0000000000000001 = some (.vscanmin 10 21) ∧
    decodeSlot .v 0b001011_01010_10101_0000000000000010 = some (.vscanmax 10 21) ∧
    decodeSlot .v 0b001011_01010_10101_0000000000001000 = some (.vscanxadd 10 21) ∧
    decodeSlot .v 0b001011_01010_10101_0000000000001001 = some (.vscanxmin 10 21) ∧
    decodeSlot .v 0b001011_01010_10101_0000000000001010 = some (.vscanxmax 10 21) ∧
    decodeSlot .v 0b001100_01010_10101_0000000000000000 = some (.vcomp 10 21) ∧
    decodeSlot .v 0b001100_01010_10101_0000000000000001 = some (.vexpd 10 21) ∧
    decodeSlot .v 0b001100_01010_000000000000000000010 = some (.vm2v 10) ∧
    decodeSlot .v 0b001100_00000_10101_0000000000000011 = some (.vnzm 21) ∧
    decodeSlot .v 0b001101_01010_0_10011011001101101100 = some (.vmovi 10 635756) ∧
    decodeSlot .v 0b001101_01010_1_10011011001101101100 = some (.vmovih 10 635756) ∧
    decodeSlot .v 0b001110_01010_10101_0000000000_100101 = some (.vext 10 21 37) ∧
    decodeSlot .v 0b001110_01010_10101_0000000001_100101 = some (.vexts 10 21 37) ∧
    decodeSlot .v 0b001110_01010_10101_0000000010_111110 = some (.vext64 10 21 62) ∧
    decodeSlot .v 0b001111_01010_00000_01110_0000000_01_10 = some (.vaccr 10 14 1 2) ∧
    decodeSlot .v 0b001111_00000_10101_01110_0000001_01_10 = some (.vaccw 21 14 1 2) ∧
    decodeSlot .v 0b001111_01010_00000_01110_0000010_10_10 = some (.vaccrF64 10 14 2 2) ∧
    decodeSlot .v 0b001111_00000_10101_01110_0000011_10_10 = some (.vaccwF64 21 14 2 2) := by decide +kernel

/-- Words of the V map, bit by bit from the encodings of R154, R155, R259, R260. -/
theorem decode_v5 :
    decodeSlot .v 0b010000_01010_10101_00000000000000_10 = some (.vld 10 21 2) ∧
    decodeSlot .v 0b010001_00000_10101_00000_10011_0000_10 = some (.vst 21 19 2) ∧
    decodeSlot .v 0b010010_01010_10101_01110_00000000000 = some (.vgat 10 21 14) ∧
    decodeSlot .v 0b010010_00000_10101_01110_10011_000001 = some (.vscat 21 14 19) ∧
    decodeSlot .v 0b010011_01010_000000000000000000_101 = some (.vqh 10 5) ∧
    decodeSlot .v 0b010100_00000_10101_01110_00000000000 = some (.vchk 21 14) := by decide +kernel

/-- Words of the M map, bit by bit from the encodings of R64, R170, R171, R173, R174, R175, R176, R178, R179, R180. -/
theorem decode_m1 :
    decodeSlot .m 0b000000_00000000000000000000000000 = some (.nopM) ∧
    decodeSlot .m 0b000001_0000_0110_11010_00111_00000000 = some (.tmm 6 26 7) ∧
    decodeSlot .m 0b000010_0000_0110_11010_00111_00000000 = some (.tmmt 6 26 7) ∧
    decodeSlot .m 0b000011_0000_0110_11010_00111_00000000 = some (.tlx 6 26 7) ∧
    decodeSlot .m 0b000011_0001_0110_11010_00111_00000000 = some (.tlxT 6 26 7) ∧
    decodeSlot .m 0b000011_0010_0110_11010_00111_00000000 = some (.tlxX 6 26 7) ∧
    decodeSlot .m 0b000011_0011_0110_11010_00111_00000000 = some (.tlxTx 6 26 7) ∧
    decodeSlot .m 0b000100_0000_0110_11010_00111_00000000 = some (.tla 6 26 7) ∧
    decodeSlot .m 0b000100_0001_0110_11010_00111_00000000 = some (.tlaT 6 26 7) ∧
    decodeSlot .m 0b000101_0000_0110_11010_00111_00000000 = some (.tproj 6 26 7) ∧
    decodeSlot .m 0b000110_0001_0110_11010_00111_00000000 = some (.tlplE 6 26 7) ∧
    decodeSlot .m 0b000110_0010_0110_11010_00111_00000000 = some (.tlplA 6 26 7) ∧
    decodeSlot .m 0b000110_0011_0110_11010_00111_00000000 = some (.tlplEa 6 26 7) ∧
    decodeSlot .m 0b000111_0000000000000000000000_0110 = some (.tzero 6) ∧
    decodeSlot .m 0b001000_0001_0000_11010_00111_000000_10 = some (.tldacc 1 26 7 2) ∧
    decodeSlot .m 0b001001_0110_0000_11010_00111_000000_10 = some (.tstacc 6 26 7 2) ∧
    decodeSlot .m 0b001001_0110_0000_11010_00111_000001_10 = some (.tstaccG 6 26 7 2) := by decide +kernel

/-- Words of the M map, bit by bit from the encodings of R165, R182. -/
theorem decode_m2 :
    decodeSlot .m 0b001010_00000000_11010_00111_0000_0110 = some (.tscale 26 7 6) ∧
    decodeSlot .m 0b001011_00000000000000000000000000 = some (.twait) := by decide +kernel

/-- Words of the C map, bit by bit from the encodings of R65, R330, R336, R338, R339, R342, R343, R344, R346, R347, R348, R349. -/
theorem decode_c1 :
    decodeSlot .c 0b000000_00000000000000000000000000 = some (.nopC) ∧
    decodeSlot .c 0b000001_101_01100_11010_00111_00_100101 = some (.cpy 5 12 26 7 37) ∧
    decodeSlot .c 0b000010_101_01100_11010_00111_00_10_0_101 = some (.cpym 5 12 26 7 2 5) ∧
    decodeSlot .c 0b000011_101_01100_11010_00111_00_10_0_101 = some (.rdx 5 12 26 7 2 5) ∧
    decodeSlot .c 0b000100_101_00000000000000000000000 = some (.drain 5) ∧
    decodeSlot .c 0b000101_101_00000_11010_00111_00000000 = some (.qpush 5 26 7) ∧
    decodeSlot .c 0b000110_101_01100_11010_00111_00000000 = some (.stash 5 12 26 7) ∧
    decodeSlot .c 0b000111_101_01100_11010_00111_00000_101 = some (.unstash 5 12 26 7 5) ∧
    decodeSlot .c 0b001000_101_0000000000_00111_00000000 = some (.sdrop 5 7) ∧
    decodeSlot .c 0b001001_101_01100_11010_00111_00000000 = some (.chsend 5 12 26 7) ∧
    decodeSlot .c 0b001010_101_0000000000_00111_00000000 = some (.chack 5 7) ∧
    decodeSlot .c 0b001011_101_01100_11010_00111_00000000 = some (.glean 5 12 26 7) := by decide +kernel

/-- Words of the X map, bit by bit from the encodings of R66, R122, R123, R125, R126, R127. -/
theorem decode_x1 :
    decodeSlot .x 0b000000_00000000000000000000000000 = some (.nopX) ∧
    decodeSlot .x 0b000001_0110_10101_11001011001101101 = some (.br 6 21 104045) ∧
    decodeSlot .x 0b000010_000000000_11001011001101101 = some (.call 104045) ∧
    decodeSlot .x 0b000011_0000_10101_00000000000000000 = some (.jr 21) ∧
    decodeSlot .x 0b000011_0001_10101_00000000000000000 = some (.jrl 21) ∧
    decodeSlot .x 0b000100_0001_10101_01011001101101101 = some (.loopEnter 21 45933) ∧
    decodeSlot .x 0b000100_0000_10101_11001011001101101 = some (.loop 21 104045) ∧
    decodeSlot .x 0b000101_0000_10101_00000000000000000 = some (.mpush 21) ∧
    decodeSlot .x 0b000101_0001_10101_00000000000000000 = some (.mpushRaw 21) ∧
    decodeSlot .x 0b000110_00000000000000000000000000 = some (.minv) ∧
    decodeSlot .x 0b000111_0110_0000000000000000000000 = some (.mpop 6) ∧
    decodeSlot .x 0b001000_000000000_11001011001101101 = some (.bnone 104045) ∧
    decodeSlot .x 0b001001_0000_10101_00000000000000000 = some (.fmtw 21) ∧
    decodeSlot .x 0b001001_0001000000000000000000_0110 = some (.fmtwVty 6) ∧
    decodeSlot .x 0b001001_00100000000000_100101_100101 = some (.fmtwMab 37 37) ∧
    decodeSlot .x 0b001001_0011000000000000000_101_1_100 = some (.fmtwRnd 5 1 4) ∧
    decodeSlot .x 0b001001_010000000000000000000000_0_0 = some (.fmtwBlk00) ∧
    decodeSlot .x 0b001001_010000000000000000000000_0_1 = some (.fmtwBlk01) ∧
    decodeSlot .x 0b001001_010000000000000000000000_1_0 = some (.fmtwBlk10) ∧
    decodeSlot .x 0b001001_010000000000000000000000_1_1 = some (.fmtwBlk11) := by decide +kernel

/-- Words of the X map, bit by bit from the encodings of R129, R130, R131. -/
theorem decode_x2 :
    decodeSlot .x 0b001010_0110_10101_11001011001101101 = some (.trap 6 21 104045) ∧
    decodeSlot .x 0b001011_000000000_11001011001101101 = some (.sysc 104045) ∧
    decodeSlot .x 0b001100_000000000_11001011001101101 = some (.ebrk 104045) ∧
    decodeSlot .x 0b001101_00000000000000000000000000 = some (.yield) ∧
    decodeSlot .x 0b001110_000000000_11001011001101101 = some (.halt 104045) := by decide +kernel

/-! ### A small device -/

/-- An aperture address. -/
def apw (o : Nat) : Word := wd (0xFFFF * 2 ^ 40 + o)

/-- The leaf of page 2: physical 0x2_0000, read, written and executed under key 0. -/
def leaf2 : Word := wd (0x20000 + 0x1F)

/-- A strand of crew 0 on core 0. -/
def strand : Ctx :=
  { Ctx.empty with st := .running, bank := some 0, uid := 7, crew := 0, tag := 3, pc := 0x20000 }

def bankOf (regs : Tab Word) : Bank := { Bank.zero with owner := some 0, s := regs }

def coreOf (x : Ctx) (b : Bank) : Core :=
  { Core.reset with ctxs := [(0, x)], banks := [(0, b)], tlb := [⟨0, 2, 16, leaf2⟩] }

/-- Crew 0 of cluster 0: four squares, all accumulators. -/
def crewOne : Crew := { Crew.free with live := true, memb := 2, sqCnt := 4, accm := 15 }

def device (x : Ctx) (b : Bank) : State :=
  { State.reset with
    cores := [(0, coreOf x b)], clusters := [(0, { Cluster.reset with crews := [(0, crewOne)] })]
    bun := { Bundle.none with words := List.replicate 8 0, pc := 0x20000, t := 100 } }

/-- A device whose strand has these registers. -/
def regs (l : Tab Word) : State := device strand (bankOf l)

/-- The bundle in hand holds these effects. -/
def holding (s : State) (es : List Eff) : State := { s with bun := { s.bun with effs := es } }

/-- A bundle of nops has no illegal slot. -/
theorem nops_legal (s : State) : s.firstIllegal (slotsOf (List.replicate 8 0)) = none := by
  rw [show slotsOf (List.replicate 8 0) = [(1, some .nopS), (2, some .nopS), (3, some .nopV), (4, some .nopV), (5, some .nopM),
    (6, some .nopC), (7, some .nopX)] by decide +kernel]
  simp [State.firstIllegal, State.slotIllegal, State.chainedWord, saOnly, vaOnly, mtOp]

/-- Nor is a bundle of nops, of as many as decode, illegal as a whole. -/
theorem nops_good (s : State) (ws : List Nat) (l : List (Nat × Instr)) (hw : s.bun.words = ws) (h0 : ws.headD 0 = 0)
    (hl : ((slotsOf ws).filterMap fun p => p.2.map fun i => (p.1, i)) = l) (he : (l.flatMap fun p => slotWrites p.2) = [])
    (hn : ∀ p, p ∈ l → p.2 ∈ [Instr.nopS, .nopV, .nopM, .nopC, .nopX]) : s.bundleBadNow = none := by
  unfold State.bundleBadNow
  rw [show s.header = 0 by unfold State.header; rw [hw, h0], hw, hl, show hdrPop 0 = 0 by decide]
  simp only [he]
  simp [bit]
  intro k i hp
  have := hn (k, i) hp
  simp only [List.mem_cons, List.not_mem_nil, or_false] at this
  rcases this with rfl | rfl | rfl | rfl | rfl <;> simp

theorem nops_not_illegal (s : State) (hw : s.bun.words = List.replicate 8 0) : s.illegalTrap = none := by
  rw [Laws.illegalTrap_eq_none]
  exact ⟨nops_good s _ _ hw rfl rfl (by decide +kernel) (by decide +kernel), by rw [hw]; exact nops_legal s⟩

theorem committing_holding (x : Ctx) (b : Bank) (es : List Eff) : committing (holding (device x b) es) es := by
  refine ⟨?_, show hdrPop 0 = 0 by decide, rfl⟩
  rw [readyToCommit, nops_not_illegal _ rfl]
  rfl

/-- What a bundle's slots leave, seen through a test; a fault or refusal fails it. -/
def after (r : Answer) (f : State → Bool) : Bool := match r with | .next t => f t | _ => false

/-- The word that a form puts on its way to a scalar register. -/
def gives (i : Instr) (s : State) (d : Nat) (w : Word) : Bool :=
  after (exec i s) fun t => match t.bun.effs with | [.land _ (.s k) (.word x 0)] => k == d && x == w | _ => false

/-- The cause and detail that a form traps with. -/
def trapsWith (i : Instr) (s : State) (c n : Nat) : Bool :=
  after (exec i s) fun t => match t.bun.trap with | some r => r.cause == c && r.detail == n | none => false

/-- The registers most tests use: extremes, addresses in the aperture and in page 2, bad addresses. -/
def regs0 : State := regs
  [(1, 0x8000000000000000#64), (2, 0xFFFFFFFFFFFFFFFF#64), (3, 5), (4, apw 0), (5, apw 0x4000), (6, wd 0x20000), (7, apw 1),
   (8, apw 0xFFFC), (9, wd (2 ^ 56)), (10, wd 0x5000000), (11, apw 0xFFC0), (12, 512)]

/-! ### Results by the manual's tables -/

/-- R107: a sum wraps; a shift by 64 is a shift by 0; clamping. -/
theorem test_add_wraps : gives (.add 12 2 3) regs0 12 4 = true := by decide +kernel
theorem test_shl_by_64 : gives (.shl 12 3 13) (regs [(3, 5), (13, 64)]) 12 5 = true := by decide +kernel
theorem test_sar_sign : gives (.sar 12 1 3) regs0 12 0xFC00000000000000#64 = true := by decide +kernel
theorem test_adds_clamps : gives (.addsI64 12 1 2) regs0 12 0x8000000000000000#64 = true := by decide +kernel
theorem test_subs_natural : gives (.subsN64 12 3 2) regs0 12 0 = true := by decide +kernel
theorem test_mulh_signed : gives (.mulhI64 12 1 2) regs0 12 0 = true := by decide +kernel
theorem test_mulh_natural : gives (.mulhN64 12 2 2) regs0 12 0xFFFFFFFFFFFFFFFE#64 = true := by decide +kernel
/-- R108. -/
theorem test_clz_zero : gives (.clz 12 0) regs0 12 64 = true := by decide +kernel
theorem test_ctz_top : gives (.ctz 12 1) regs0 12 63 = true := by decide +kernel
theorem test_abs_least : gives (.abs 12 1) regs0 12 0x8000000000000000#64 = true := by decide +kernel
theorem test_bswap : gives (.bswap 12 3) regs0 12 0x0500000000000000#64 = true := by decide +kernel
/-- R109: the settled cases. -/
theorem test_div_by_zero : gives (.divI64 12 3 0) regs0 12 0xFFFFFFFFFFFFFFFF#64 = true := by decide +kernel
theorem test_div_least : gives (.divI64 12 1 2) regs0 12 0x8000000000000000#64 = true := by decide +kernel
theorem test_rem_by_zero : gives (.remI64 12 3 0) regs0 12 5 = true := by decide +kernel
theorem test_rem_least : gives (.remI64 12 1 2) regs0 12 0 = true := by decide +kernel
/-- R110. -/
theorem test_cmp_signed : gives (.cmp 12 1 3 2) regs0 12 1 = true := by decide +kernel
theorem test_cmpi_natural : gives (.cmpi 12 1 7 0x1FFF) regs0 12 1 = true := by decide +kernel
/-- R111 to R115. -/
theorem test_addi_sign : gives (.addi 12 3 0xFFFF) regs0 12 4 = true := by decide +kernel
theorem test_movi_sign : gives (.movi 12 0x1FFFFF) regs0 12 0xFFFFFFFFFFFFFFFF#64 = true := by decide +kernel
theorem test_movk : gives (.movk 12 3 0xABCD) regs0 12 0x5ABCD#64 = true := by decide +kernel
theorem test_lea_back : gives (.lea 12 0 0xFFFF) regs0 12 0x1FFE0#64 = true := by decide +kernel
theorem test_bext_signed : gives (.bextI64 12 3 2 0) regs0 12 0xFFFFFFFFFFFFFFFD#64 = true := by decide +kernel
theorem test_bins_keeps : gives (.bins 2 0 7 8) regs0 2 0xFFFFFFFFFFFF00FF#64 = true := by decide +kernel
/-- R100, R117: ctx gives core, priority, bank and slot. -/
theorem test_crd_tag : gives (.crd 12 4) regs0 12 3 = true := by decide +kernel
/-- R119. -/
theorem test_chkt : trapsWith (.chkt 3 2) regs0 0x0C (3 + 2 * 32) = true := by decide +kernel
/-- R84, R239: the faults of an address, in their order. -/
theorem test_ld_beyond : trapsWith (.ld 12 9 4 0) regs0 0x03 0 = true := by decide +kernel
theorem test_ld_misaligned : trapsWith (.ld 12 7 4 0) regs0 0x05 (0xFFFF * 2 ^ 40 + 1) = true := by decide +kernel
theorem test_st_bounds : trapsWith (.st 3 8 6 4) regs0 0x06 0x10000 = true := by decide +kernel
theorem test_ld_last :
    (after (exec (.ld 12 8 4 0) regs0) fun t => t.bun.effs == [.loadPad 12 4 (padBase 0 + 0xFFFC)]) = true := by decide +kernel
/-- R93: the seventeenth entry overflows. -/
theorem test_mask_overflow :
    trapsWith (.mpush 3) (device strand { bankOf [] with mask := List.replicate 16 0 }) 0x08 0 = true := by decide +kernel
/-- R124: count 1 leaves the loop with the counter zero. -/
theorem test_loop_ends :
    (after (exec (.loop 4 0) (regs [(4, 1)])) fun t => t.bun.effs == [.loopCount 4 0]) = true := by decide +kernel
theorem test_loop_back :
    (after (exec (.loop 4 0) (regs [(4, 2)])) fun t => t.bun.effs == [.loopCount 4 1, .transfer 0x20000 true]) = true := by
  decide +kernel
/-- R129 to R131. -/
theorem test_trap : trapsWith (.trap 1 0 9) regs0 0x13 9 = true := by decide +kernel
theorem test_sysc : trapsWith (.sysc 5) regs0 0x14 5 = true := by decide +kernel

/-- The element of 32 bits that a vector form puts on its way. -/
def lane (i : Instr) (s : State) (e : Nat) : Option Nat :=
  match exec i s with
  | .next t => match t.bun.effs with
    | .land _ (.v _) (.vec _ v _) :: _ => some (elemAt 32 v e)
    | _ => none
  | _ => none

/-- A device whose vector registers 1, 2 and 3 hold one value in each lane. -/
def vregs (a b c : Nat) : State :=
  device strand { bankOf [] with v := [(1, ofElems 32 (List.replicate 64 a)), (2, ofElems 32 (List.replicate 64 b)),
    (3, ofElems 32 (List.replicate 64 c))] }

/-- R136: 1.5 + 2.5; the negated fused form; the least of zeros is -0. -/
theorem test_vfadd : lane (.vfadd 4 1 2) (vregs 0x3FC00000 0x40200000 0) 63 = some 0x40800000 := by decide +kernel
theorem test_vnfma : lane (.vnfma 4 1 2 3) (vregs 0x3FC00000 0x40000000 0x3F800000) 0 = some 0xC0000000 := by decide +kernel
theorem test_vfmin_zeros : lane (.vfmin 4 1 2) (vregs 0 0x80000000 0) 5 = some 0x80000000 := by decide +kernel
/-- R141: 1.0 as i32 needs an integer type; R144: a square root. -/
theorem test_vsqrt : lane (.vsqrt 4 1) (vregs 0x40800000 0 0) 1 = some 0x40000000 := by decide +kernel
/-- R140, R145. -/
theorem test_vand : lane (.vand 4 1 2) (vregs 12 10 0) 2 = some 8 := by decide +kernel
theorem test_vshd : lane (.vshd 4 1 60) (vregs 9 0 0) 4 = some 0 := by decide +kernel
theorem test_vrot : lane (.vrot 4 1 60) (vregs 9 0 0) 4 = some 9 := by decide +kernel
/-- R149, R150: compaction under an all-zero top; a constant's sign. -/
theorem test_vmovi : lane (.vmovi 4 0xFFFFF) (vregs 0 0 0) 7 = some 0xFFFFFFFF := by decide +kernel
theorem test_vext : gives (.vexts 4 1 63) (vregs 0xFFFFFFFF 0 0) 4 0xFFFFFFFFFFFFFFFF#64 = true := by decide +kernel
/-- R147: a sum of 64 ones. -/
theorem test_vredadd : lane (.vredadd 4 1) (vregs 0x3F800000 0 0) 0 = some 0x42800000 := by decide +kernel
/-- R155. -/
theorem test_vchk : trapsWith (.vchk 1 2) (vregs 1 2 0) 0x0C (1 + 2 * 32) = true := by decide +kernel

/-- R249: the old value stays where cas does not match. -/
theorem test_rmw : (Rmw.mk 10 4 7 3).new 4 = none ∧ (Rmw.mk 10 4 7 4).new 4 = some 7 ∧ (Rmw.mk 4 4 0xFFFFFFFF#64 0).new 1 = some 0xFFFFFFFF :=
  by decide +kernel
/-- The CRC-32C check value of "123456789". -/
theorem test_crc32c : crc32c [0x31, 0x32, 0x33, 0x34, 0x35, 0x36, 0x37, 0x38, 0x39] = 0xE3069283 := by decide +kernel

/-- A bundle of one addi in slot SA, run as the first after reset: s5 := s0 + 7 lands two cycles on (R75, R111). -/
theorem test_step_addi :
    (after (step (State.reset.withFetchWord 32 0b000101_00101_00000_0000000000000111)) fun t =>
      ((t.landUntil 0 0 2).bankOf 0 0).sr 5 == 7 && (t.ctx 0 0).pc == 0x10020) = true := by decide +kernel
/-- A module without power has no step. -/
theorem test_no_power : (match step { State.reset with powered := false } with | .fault .noPower => true | _ => false) = true := by
  decide +kernel

/-! ### Hypotheses that something meets: forms -/

/-- O3: each case of a quotient. -/
theorem witness_divide : regs0.rs 0 = 0 ∧ (regs0.rs 3 ≠ 0 ∧ ¬((regs0.rs 1).toInt = -2 ^ 63 ∧ (regs0.rs 3).toInt = -1)) ∧
    ((regs0.rs 1).toInt = -2 ^ 63 ∧ (regs0.rs 2).toInt = -1) := by decide +kernel

/-- O4 and O5: fields at the ends of their ranges. -/
theorem witness_fields : (5 : Nat) ≤ 5 ∧ (7 : Nat) ≤ 7 ∧ 0x1FFF < 2 ^ 13 ∧ 0xFFFF < 2 ^ 16 ∧ (63 : Nat) < 64 ∧ 0x1FFFFF < 2 ^ 21 ∧
    63 + 0 + 1 ≤ 64 ∧ (3 : Nat) ≤ 5 ∧ 0 + 63 + 1 ≤ 64 := by decide

/-- A strand with queue 0 enabled (eight elements of 4 bytes from offset 0, its head present) and link FIFO 0 bound to its crew
with a word waiting. -/
def queued : State :=
  device strand { bankOf [(1, 4), (2, 9)] with qc := [(0, wd (2 ^ 63 + 2 ^ 37 + 7 * 2 ^ 29))], present := [(0, 1)] }

def linked : State :=
  let s := regs0
  { s with cores := [(0, { s.core 0 with lf := [(0, ⟨[⟨5, 0, false, 0, 0, 0⟩], [], [], 0, false, wd (2 ^ 63), 0⟩)] })] }

/-- O6: what crd and cwr ask. -/
theorem witness_control : ¬(0x048 ≤ 0x00C ∧ 0x00C < 0x058) ∧ queued.qReady 0 = true ∧ linked.lfBound 0 = true ∧
    ((linked.lf 0).inq = [⟨5, 0, false, 0, 0, 0⟩] ∧ (⟨5, 0, false, 0, 0, 0⟩ : InWord).len = 0) ∧ ¬(0x040 ≤ 0x003 ∧ 0x003 < 0x048) ∧ ¬(0x050 ≤ 0x003 ∧ 0x003 < 0x058) ∧
    ((regs0.rs 3).getLsbD 62 = false ∧ (regs0.rs 3).getLsbD 63 = false) ∧ regs0.rs 3 = regs0.rs 3 ∧
    (regs0.rs 3 ≠ regs0.rs 2 ∧ untouched regs0 = true) := by decide +kernel

/-- A strand that counts idle cycles in counter 0x030 and busy ones of context 0 in 0x031, with a word of a packet pushed. -/
def counting (out : Nat) (part : List Word) : State :=
  let s := regs0
  { s with cores := [(0, { s.core 0 with
      pcsel := [(0, 2), (1, wd (6 + 2 ^ 16))], seqr := { Sequencer.idle with run := some (regs0.mtCapture (.tzero 15)) }
      lf := [(0, ⟨[], List.replicate out 0, part, 7, false, wd (2 ^ 63), 0⟩)] })] }

/-- O6: registers at the ends of the ranges, counters of each sort, a queue word in each case, words of a packet. -/
theorem witness_control_more : (3 : Nat) < 4 ∧ (0x03F ∉ [0x004, 0x005, 0x006, 0x00C, 0x00D] ∧ ¬(0x030 ≤ 0x02F ∧ 0x02F < 0x038)) ∧
    isGlobal ((queued.allot 0 0).1 + 0 + 0 * 4) = false ∧ (2 ≤ 0x1F ∧ 0x1F ≠ 0x020 ∧ 0x1F < 0x030) ∧
    ((tget 0 ((counting 0 []).core 0).pcsel 0).toNat % 256 = 2 ∧ ((counting 0 []).core 0).running = some 0 ∧
      (tget 0 ((counting 0 []).core 0).pcsel 0).toNat / 256 % 256 = 0) ∧
    ((tget 0 ((counting 0 []).core 0).pcsel 1).toNat % 256 = 6 ∧ ((counting 0 []).core 0).seqr.run = some (regs0.mtCapture (.tzero 15)) ∧
      (regs0.mtCapture (.tzero 15)).ctx < 8) ∧
    (∀ q, q ∈ [2 ^ 62, 2 ^ 63 + 2 * 2 ^ 37, 2 ^ 63 + 2 ^ 23 - 1, 2 ^ 63 + 2 ^ 37] → q < 2 ^ 64) ∧
    ((2 ^ 63 + 2 * 2 ^ 37) / 2 ^ 29 % 256 + 1 < (2 ^ 63 + 2 * 2 ^ 37) / 2 ^ 37 % 512 ∧
      (regs0.allot 0 0).2 < (2 ^ 63 + 2 ^ 23 - 1) % 2 ^ 23 + 1 * (4 * 1) ∧ (2 ^ 63 + 2 ^ 37) % 2 ^ 23 + 1 * (4 * 1) ≤ (regs0.allot 0 0).2) ∧
    ((counting 0 []).lfBound 0 = true ∧ ((counting 0 []).lf 0).part = [] ∧ packetHeaderGood 0 = true ∧
      packetHeaderGood (2 ^ 60 * 15) = false) ∧
    (((counting 31 []).lf 0).outq.length + ((counting 31 []).lf 0).part.length < 32 ∧ 32 ≤ ((counting 32 []).lf 0).outq.length) ∧
    (((counting 0 [0]).lf 0).part.length = 1 ∧ 5 % 4 ≠ 0) ∧ regs0.lfBound 0 = false := by decide +kernel

/-- A window table at 4 MiB whose window 0 shows 64 KiB at 0x5_0000, with the shadow at page 2. -/
def mirrored : State :=
  { regs0 with
    wtBase := wd 0x400000
    mem := memWrite [] 0x400000 64 (2 ^ 511 + 2 ^ 510 + 0x50000 * 2 ^ 365 + 0x20000 * 2 ^ 309 + 65536 * 2 ^ 269) }

/-- O7: addresses that no mirage window shows, and one that a window does. -/
theorem witness_shadowed : isAperture 0xFFFF0000000000 = true ∧ regs0.mirages 0 = [] ∧ mirrored.mirages 0 = [(0x50000, 0x20000, 65536)] ∧
    isAperture 0x5FFFF = false ∧ regs0.locate (regs0.shadowed regs0.me.space (regs0.ea 6 13 8)) 8 8 false true = .at_ 0x20008 0 true ∧
    mirrored.locate (mirrored.shadowed mirrored.me.space 0x50008) 8 8 false true = .at_ 0x20008 0 true := by decide +kernel

/-- O7: a place in the allotment's last word, one in page 2; each fault, and a page without a translation. -/
theorem witness_loads : gateOpen regs0 = true ∧
    regs0.locate (regs0.ea 8 13 0) 4 4 true false = .at_ (padBase 0 + 0xFFFC) 0 false ∧
    regs0.locate (regs0.ea 6 13 8) 8 8 false true = .at_ 0x20008 0 true ∧
    regs0.locate (regs0.ea 6 11 0) 8 8 true false = .at_ 0x20000 0 true ∧
    regs0.locate (regs0.ea 4 11 0) 4 4 false true = .at_ (padBase 0) 0 false := by decide +kernel

theorem witness_loads_trap : untouched regs0 = true ∧ 2 ^ 56 ≤ regs0.ea 9 13 0 ∧
    (isAperture (regs0.ea 7 13 0) = true ∧ regs0.ea 7 13 0 % typeBytes 2 ≠ 0) ∧
    (isAperture (regs0.ea 8 13 4) = true ∧ regs0.ea 8 13 4 % typeBytes 4 = 0 ∧
      (regs0.allot 0 0).2 < regs0.ea 8 13 4 % 2 ^ 40 + typeBytes 4) ∧
    (regs0.ea 10 13 0 < 2 ^ 56 ∧ isAperture (regs0.ea 10 13 0) = false ∧ tlbFind (regs0.core 0).tlb 0 (regs0.ea 10 13 0) = none) := by
  decide +kernel

/-- O8. -/
theorem witness_atomics : gateOpen regs0 = true ∧
    regs0.locate (regs0.shadowed regs0.me.space (regs0.rs 4).toNat) (4 + 4 * 0) (4 + 4 * 0) true true = .at_ (padBase 0) 0 false ∧
    regs0.locate (regs0.shadowed regs0.me.space (regs0.rs 6).toNat) (4 + 4 * 1) (4 + 4 * 1) true true = .at_ 0x20000 0 true ∧
    2 ^ 32 - 1 < 2 ^ (8 * 4) ∧ 2 ^ 64 - 1 < 2 ^ (8 * 8) ∧ (7 : Nat) = (7 : Word).toNat % 2 ^ (8 * 4) ∧
    (8 : Nat) ≠ (7 : Word).toNat % 2 ^ (8 * 4) := by decide +kernel

/-- A strand with an open phase. -/
def inPhase : State := device { strand with phase := { Phase.closed with opened := true } } (bankOf [(4, apw 0), (6, wd 0x20000)])

/-- O9: a token of scope .rcv, a handle of another device, a phase of every accumulator, with a window list in the last eight
words of the allotment; an open phase; a seal header. -/
theorem witness_fences : gateOpen regs0 = true ∧
    (4 * 2 ^ 61 / 2 ^ 48 % 2 ^ 13 = 0 ∧ 4 * 2 ^ 61 / 2 ^ 61 % 8 ≤ 4) ∧
    ((regs [(1, wd 1)]).rs 1).toNat / 2 ^ 27 % 32 = 0 ∧ handleDev 1 ≠ regs0.dev ∧
    (regs0.me.phase.opened = false ∧ 15 &&& regs0.myCrew.accm = 15 ∧ regs0.me.crew ≠ 0xFFFF) ∧
    regs0.locatePad (regs0.rs 11).toNat (8 * 8) 8 = .at_ (padBase 0 + 0xFFC0) 0 false ∧
    (gateOpen inPhase = true ∧ inPhase.me.phase.opened = true ∧ inPhase.phaseCopies 0 7 = false) ∧
    (isAperture (regs0.rs 6).toNat = false ∧ regs0.locate (regs0.rs 6).toNat 64 64 true true = .at_ 0x20000 0 true) := by decide +kernel

/-- O10: split, merge, conv and zero of 128 rows of 32 (class m = 2) or a few elements; one bale block each way. -/
def transforms : State := regs [(1, apw 0), (2, apw 0x8000), (3, wd (2 * 2 ^ 32 + 128 * 2 ^ 16 + 32)), (4, 4), (5, 1)]

theorem witness_transforms : gateOpen transforms = true ∧ transforms.me.crew ≠ 0xFFFF ∧
    szTeGood (transforms.rs 3).toNat = true ∧ isAperture (transforms.rs 1).toNat = true ∧ isAperture (transforms.rs 2).toNat = true ∧
    (transforms.rs 1).toNat % 64 = 0 ∧ (transforms.rs 2).toNat % 64 = 0 ∧ (transforms.allot 0 0).2 = 65536 ∧
    0x8000 + xfRowsBytes 8 (transforms.rs 3).toNat ≤ 65536 ∧ 0 + xfTeBytes (transforms.rs 3).toNat ≤ 0x8000 ∧
    0x8000 + xfRowsBytes 9 (transforms.rs 3).toNat ≤ 65536 ∧ 0 + 4 * xfBits 9 / 8 ≤ 0x8000 ∧ (transforms.rs 4).toNat % 4 = 0 ∧
    0 + 4160 * 1 ≤ 0x8000 ∧ 0x8000 + 4096 * 1 ≤ 65536 ∧ 0x8000 + 4160 * 1 ≤ 65536 := by decide +kernel

/-- O11: records of a spawn in the allotment, room in the ready queue, crews that are there and not, operands in range. -/
def joining : State :=
  { regs [(1, apw 0xFC00), (2, 64), (3, 63), (4, apw 0), (6, wd 0x20000)] with
    clusters := [(0, { Cluster.reset with crews := [(0, crewOne), (1, crewOne)] })] }

theorem witness_scheduling : joining.relPending = false ∧ joining.me.crew ≠ 0xFFFF ∧
    16 + joining.reservedRoom 0 ≤ (joining.cluster 0).free ∧
    joining.locatePad (joining.rs 1).toNat (64 * (15 + 1)) 64 = .at_ (padBase 0 + 0xFC00) 0 false ∧
    (joining.me.phase.opened = false ∧ joining.me.region.opened = false ∧ joining.me.handler = false) ∧
    (joining.seqBusy = false ∧ joining.strandCopies = false) ∧ joining.liveCrew 1 = some crewOne ∧ 1 ≠ joining.me.crew ∧
    crewOne.memb ≠ 65535 ∧ joining.liveCrew 2 = none ∧ (15 : Nat) < 16 ∧ (7 : Nat) < 8 ∧
    (0 % 2 ^ 26 = 0 ∧ (joining.rs 3).toNat < 64) ∧ (joining.rs 2).toNat % 64 = 0 ∧ (15 < 16 ∧ 256 % 256 = 0) ∧
    joining.locate (joining.rs 6).toNat 4 4 true false = .at_ 0x20000 0 true ∧
    joining.locate (joining.rs 4).toNat 8 8 true false = .at_ (padBase 0) 0 false := by decide +kernel

/-- O12: Silo set 63 owned by cluster 0; a barrier armed, with one arrival to come, in phase 5; poisoned; not passed and passed. -/
def siloed : State :=
  { regs [(1, 63), (2, apw 0), (3, 4), (4, 5)] with
    mem := memWrite [] (padBase 0) 16 (5 + 2 ^ 64 + 2 ^ 96) }

theorem witness_silo : (siloed.rs 1).toNat < 64 ∧ siloOwner (siloed.silo 63) = 0 / 4 ∧ siloRoom (siloed.silo 63) = true ∧
    siloed.relPending = false := by decide +kernel

theorem witness_barriers : siloed.locatePad (siloed.rs 2).toNat 16 16 = .at_ (padBase 0) 0 false ∧
    (siloed.rs 3).toNat / 2 ^ 16 % 2 ^ 16 = 0 ∧ (siloed.readPa 0 (padBase 0) 16).testBit 96 = true ∧
    4 + siloed.readPa 0 (padBase 0) 16 / 2 ^ 32 % 2 ^ 32 < 2 ^ 32 ∧ siloed.readPa 0 (padBase 0) 16 / 2 ^ 64 % 2 ^ 16 ≠ 0 ∧
    (siloed.readPa 0 (padBase 0) 16).testBit 97 = false ∧
    (1 ≤ (siloed.readPa 0 (padBase 0) 16 % 2 ^ 32 + 2 ^ 32 - 4 % 2 ^ 32) % 2 ^ 32 ∧
      (siloed.readPa 0 (padBase 0) 16 % 2 ^ 32 + 2 ^ 32 - 4 % 2 ^ 32) % 2 ^ 32 ≤ 2 ^ 31) ∧
    ¬(1 ≤ (siloed.readPa 0 (padBase 0) 16 % 2 ^ 32 + 2 ^ 32 - 5 % 2 ^ 32) % 2 ^ 32) := by decide +kernel

/-- A strand in an open region of at most three attempts; failed once or not at all. -/
def inRegion (cr10 : Nat) : State :=
  device { strand with region := ⟨true, 0x20000, 3⟩ } { bankOf [] with cr := [(0x00A, wd cr10)] }

theorem witness_regions : regs0.me.region.opened = false ∧
    (∀ c, c = 0 ∨ c = 2 ^ 62 + 2 ^ 56 → (inRegion c).me.region.opened = true ∧ (inRegion c).regionBusy = false ∧
      (inRegion c).regionPart = false) ∧
    ((inRegion 0).cr 0x00A).toNat.testBit 62 = false ∧ ((inRegion (2 ^ 62 + 2 ^ 56)).cr 0x00A).toNat.testBit 62 = true ∧
    ((inRegion (2 ^ 62 + 2 ^ 56)).cr 0x00A).toNat / 2 ^ 56 % 64 + 1 < 3 := by
  refine ⟨by decide +kernel, ?_, by decide +kernel, by decide +kernel, by decide +kernel⟩
  rintro c (rfl | rfl) <;> decide +kernel

/-- A strand whose fmt.VTY is t. -/
def typed (t : Nat) (m : List Word) : State :=
  device strand { bankOf [(3, 5), (4, apw 0), (5, apw 0xC000), (6, 127)] with fmt := wd (t * 2 ^ 7), mask := m }

/-- O13 to O16: types at the ends of their ranges, room on the mask stack, conversions that widen and narrow. -/
theorem witness_types : ((typed 3 []).vty ≤ 3 ∧ (typed 0 []).vty ≤ 3 ∧ (typed 0 []).vty ≠ 1) ∧ 6 ≤ (typed 13 []).vty ∧
    vtySigned (typed 6 []).vty = true ∧ cmpTypes (typed 0 []).vty 6 = true ∧ cmpTypes (typed 13 []).vty 5 = true ∧
    (32 ≤ (typed 0 []).vw ∧ (typed 0 (List.replicate 15 0)).maskDepth < 16) ∧ 63 < 2048 / (typed 6 []).vw ∧
    (max (vtyWidth 4) (typed 0 []).vw / min (vtyWidth 4) (typed 0 []).vw ≤ 4 ∧
      3 < max (vtyWidth 4) (typed 0 []).vw / min (vtyWidth 4) (typed 0 []).vw) ∧ (24 : Nat) ≤ 24 := by decide +kernel

/-- O17 to O19. -/
theorem witness_lanes : (63 : Nat) < 64 ∧ ((typed 0 []).vty ≠ 4 ∧ (typed 0 []).vty ≠ 5) ∧ 6 ≤ (typed 6 []).vty ∧
    (typed 0 (List.replicate 15 0)).maskDepth < 16 ∧ 2 ^ 20 - 1 < 2 ^ 20 ∧ (62 : Nat) < 63 := by decide +kernel

/-- O13, O15, O16: values of each sort, arguments at both ends, an element that rounds to an integer, blocks of one element. -/
theorem witness_values : f32.decode 0x7FC00000 = .nan false ∧ f32.decode 0xFF800000 = .inf true ∧
    f32.decode 0x3FC00000 = .fin false 12582912 (-23) ∧ (typed 0 []).vty ≤ 3 ∧ below (.inf true) (.fin false 1 0) ∧
    ¬below (.fin false 0 0) (.fin true 0 0) ∧ (typed 0 []).vf.decode 0 = .fin false 0 (-149) ∧ (13 : Nat) ≤ 13 ∧
    vtyWidth 4 < vtyWidth 6 ∧ vtyWidth 6 < vtyWidth 13 := by
  unfold below
  decide +kernel

/-- O14, O16: a block of one element of each sort. -/
theorem witness_block_elements : (2 : Nat) ≤ 2 ∧ (∀ p : Nat × Nat, p ∈ [(2 ^ 31, 0), (2 ^ 31 - 2 ^ 23, 0), (2 ^ 31 - 1, 0)] → p.1 < 2 ^ 32) ∧
    2 ^ 31 % 2 ^ 31 = 0 ∧ 2 ^ 31 - 2 ^ 23 < (2 ^ 31 - 1) % 2 ^ 31 := by decide

/-- O20: row 127 of accumulator 2, both halves of a pair. -/
theorem witness_accumulators : (typed 0 []).seqBusy = false ∧ (typed 0 []).me.crew ≠ 0xFFFF ∧ bit (typed 0 []).myCrew.accm 2 = true ∧
    (typed 0 []).rsn 6 < 128 ∧ (1 : Nat) < 2 ∧ (3 : Nat) < 4 ∧ bit (typed 0 []).myCrew.accm (2 + 1) = true := by decide +kernel

/-- O21: the allotment's last square in each mode; lanes that gather from its first word; none enabled; a queue head; equal and
unequal registers. -/
theorem witness_vector_memory : gateOpen (typed 0 []) = true ∧ (2 : Nat) < 3 ∧ isAperture ((typed 0 []).rs 5).toNat = true ∧
    ((typed 0 []).rs 5).toNat % 256 = 0 ∧ ((typed 0 []).rs 5).toNat % 4 = 0 ∧
    0xC000 / 2 ^ 14 * 2 ^ 14 + 16384 ≤ ((typed 0 []).allot 0 0).2 ∧
    (∀ j, j < 64 → isAperture ((((typed 0 []).rs 4).toNat + 4 * src (typed 0 []) 32 1 j) % 2 ^ 64) = true) ∧
    (((typed 0 []).rs 4).toNat % 4 = 0 ∧ ((typed 0 []).rs 4).toNat % 2 ^ 40 + 4 ≤ 65536) ∧ queued.qReady 0 = true ∧
    (∀ j, j < 64 → src (vregs 1 1 0) 32 1 j = src (vregs 1 1 0) 32 2 j) ∧
    (untouched (vregs 1 2 0) = true ∧ src (vregs 1 2 0) 32 1 0 ≠ src (vregs 1 2 0) 32 2 0) := by decide +kernel

/-- O22: tzero of every accumulator, a tldacc from the allotment; a tstacc.g of one page; twait on an idle core. -/
theorem witness_matrix : (regs0.core 0).seqr.frozen = false ∧ regs0.seqAccepts = true ∧
    regs0.mtDetail (regs0.mtCapture (.tzero 15)) false false = none ∧ regs0.me.crew ≠ 0xFFFF ∧
    mtExtents (regs0.mtCapture (.tzero 15)) = [] ∧
    mtAccs (regs0.mtCapture (.tzero 15)) &&& regs0.myCrew.accm = mtAccs (regs0.mtCapture (.tzero 15)) ∧
    regs0.seqBusy = false := by decide +kernel

/-- A tldacc of accumulator 0 from the allotment's start, 64 KiB of it. -/
theorem witness_tldacc : mtExtents (regs0.mtCapture (.tldacc 0 0 12 0)) ≠ [] ∧
    regs0.mtDetail (regs0.mtCapture (.tldacc 0 0 12 0)) false false = none ∧
    (∀ e, e ∈ mtExtents (regs0.mtCapture (.tldacc 0 0 12 0)) → e.base % e.al = 0 ∧ e.base + e.len ≤ (regs0.allot 0 0).2) ∧
    mtAccs (regs0.mtCapture (.tldacc 0 0 12 0)) &&& regs0.myCrew.accm = mtAccs (regs0.mtCapture (.tldacc 0 0 12 0)) := by decide +kernel

/-- A tstacc.g whose rows fill page 2. -/
theorem witness_tstacc_global :
    let i := Instr.tstaccG 0 6 12 0;
    let w := regs0.mtCapture i;
    let look (va : Nat) : Access := regs0.lookup 0 regs0.me.space va false true false;
    let touched (va : Nat) : Prop := ∃ r v, r < 128 ∧ w.x.toNat + r * w.y.toNat ≤ v ∧ v < w.x.toNat + r * w.y.toNat + 128 * mtWidth i ∧
      va = (hiddenAddress (regs0.mirages regs0.me.space) v).getD v;
    regs0.mtDetail w false false = none ∧ w.x.toNat % mtWidth i = 0 ∧ mtAccs w &&& regs0.myCrew.accm = mtAccs w ∧
    (∀ m, m ∈ regs0.mirages regs0.me.space → m.1 % 64 = 0 ∧ m.2.1 % 64 = 0 ∧ m.2.2 % 64 = 0) ∧
    ∀ va, touched va →
      va < 2 ^ 56 ∧ isAperture (va / 65536 * 65536) = false ∧
      (∃ pa key, look (va / 65536 * 65536) = .at_ pa key true ∧ isGlobal pa = true) ∧ ∃ pa key, look (va / 4096 * 4096) = .at_ pa key true := by
  have hx : (regs0.mtCapture (.tstaccG 0 6 12 0)).x.toNat = 0x20000 := by decide +kernel
  have hy : (regs0.mtCapture (.tstaccG 0 6 12 0)).y.toNat = 512 := by decide +kernel
  have hw : 128 * mtWidth (.tstaccG 0 6 12 0) = 512 := by decide +kernel
  have hp : ∀ p, p < 16 →
      regs0.lookup 0 regs0.me.space (0x20000 + 4096 * p) false true false = .at_ (0x20000 + 4096 * p) 0 true := by decide +kernel
  have hm : regs0.mirages regs0.me.space = [] := by decide +kernel
  refine ⟨by decide +kernel, by decide +kernel, by decide +kernel, by rw [hm]; simp, ?_⟩
  rintro va ⟨r, v, hr, h1, h2, hva⟩
  have hv : va = v := by rw [hva, hm]; rfl
  clear hva
  subst hv
  rw [hx, hy] at h1 h2
  rw [hw] at h2
  have hv : va / 65536 * 65536 = 0x20000 + 4096 * 0 := by omega
  obtain ⟨p, hv4⟩ := Nat.exists_eq_add_of_le (show 32 ≤ va / 4096 by omega)
  have hq : va / 4096 * 4096 = 0x20000 + 4096 * p := by rw [hv4]; ring
  refine ⟨by omega, ?_, ?_, ?_⟩
  · rw [hv]; decide +kernel
  · rw [hv]; exact ⟨_, _, hp 0 (by decide), by decide +kernel⟩
  · rw [hq]; exact ⟨_, _, hp _ (by omega)⟩

/-- Descriptor 0: four bytes from the allotment's start to its middle; descriptor 2: the same into queue 0; descriptor 4: 4 KiB from
the start, for the forms whose destination word is zero; descriptor 6: to a window of device 1. -/
def copying (x : Ctx) : State :=
  device x { bankOf [(1, 0), (2, 0)] with
    qc := [(0, wd (2 ^ 63 + 7 * 2 ^ 29))]
    cg := [(0, wd (2 ^ 62)), (1, wd (2 ^ 62 + 0x8000)), (2, 1), (8, wd (2 ^ 62 + 0x8000)), (9, wd (2 ^ 62 + 2 ^ 61)), (10, 1),
      (16, wd (2 ^ 62)), (17, 0), (18, 1024), (24, wd (2 ^ 62)), (25, wd (2 ^ 63 + 1)), (26, 1)] }

def phased : Ctx := { strand with phase := { Phase.closed with opened := true } }

/-- O23: a plain copy, a logged one in a phase, one into a queue, one to a window, an unstash, a chsend with credit. -/
theorem witness_copies :
    (∀ c, c ∈ (copying strand).copyChecks (.cpy 7 0 1 2 0) 0 1 2 → c.1 = false) ∧
    ((copying strand).tracksBusy 0 (7 % 2)).length < 8 ∧ flagP (.cpy 7 0 1 2 1) = true ∧ (copying phased).me.phase.opened = true ∧
    (copying phased).me.phase.log.length < 16 ∧ (∀ c, c ∈ (copying phased).copyChecks (.cpy 7 0 1 2 1) 0 1 2 → c.1 = false) ∧
    (∀ c, c ∈ (copying strand).copyChecks (.cpy 0 2 1 2 0) 2 1 2 → c.1 = false) ∧
    (epKind (2 ^ 62 + 2 ^ 61) = 1 ∧ epQ (2 ^ 62 + 2 ^ 61) = true ∧
      qCnt ((copying strand).queue 0) + (copying strand).qTaken 0 < qDepth ((copying strand).queue 0)) ∧
    (∀ c, c ∈ (copying strand).copyChecks (.cpy 0 6 1 2 0) 6 1 2 → c.1 = false) ∧
    (∀ c, c ∈ (copying strand).copyChecks (.unstash 0 0 1 2 0) 0 1 2 → c.1 = false) ∧ gateOpen (copying strand) = true := by decide +kernel

/-- A copy whose chained word is a nop of the M map goes on without one. -/
theorem witness_copy_chained : flagChn (.cpy 0 0 1 2 0) = false ∧ decodeM (bits 0 32 32) = some .nopM ∧ mtOp .nopM = 0 := by decide +kernel

/-- A stash and a chsend of 4 KiB; words of sdrop and chack; an idle channel; a push. -/
theorem witness_copies_more :
    (∀ c, c ∈ (copying strand).copyChecks (.stash 0 4 1 2) 4 1 2 → c.1 = false) ∧ copyMo (.chsend 0 4 1 2) = 9 ∧
    (let s := (copying strand).smPut 0x1800 32 (2 ^ 255 + 7 * 2 ^ 224)
     (∀ c, c ∈ s.copyChecks (.chsend 0 4 1 2) 4 1 2 → c.1 = false) ∧
       (tcSeq (s.tch 0) + 1 + 2 ^ 32 - tcAcked (s.tch 0)) % 2 ^ 32 ≤ tcWin (s.tch 0)) ∧
    (0 / 2 ^ 8 % 2 ^ 24 = 0 ∧ 0 / 2 ^ 4 % 8 = 0 ∧ 0 < 2 ^ 24) ∧ (copying strand).copies = [] ∧ (copying strand).me.cfaults = [] ∧
    qEn ((copying strand).queue 0) = true ∧ (copying strand).me.crew ≠ 0xFFFF := by decide +kernel

/-- A strand in handler state whose register 5 holds tbund. -/
def handling : State :=
  device { strand with handler := true } { bankOf [(5, wd 0x20040), (6, wd 0x20060)] with cr := [(1, wd 0x20040)] }

/-- O24: offsets at both ends; each condition holds and fails somewhere; a return and a plain jump; counters 0, 1 and 2. -/
theorem witness_transfers : 2 ^ 17 - 1 < 2 ^ 17 ∧ (regs0.loopCount 0).toNat = 0 ∧ (regs0.loopCount 3).toNat ≠ 0 ∧
    (regs0.loopCount 1).toInt < 0 ∧ 0 ≤ (regs0.loopCount 0).toInt ∧ 0 < (regs0.loopCount 3).toInt ∧ (regs0.loopCount 1).toInt ≤ 0 ∧
    ¬(regs0.me.handler = true ∧ (regs0.loopCount 3 = regs0.cr 0x001 ∨ regs0.loopCount 3 = regs0.cr 0x001 + 32)) ∧
    (handling.me.handler = true ∧ handling.loopCount 5 = handling.cr 0x001 ∧ handling.loopCount 6 = handling.cr 0x001 + 32 ∧
      handling.me.land = []) ∧
    regs0.loopCount 0 = 0 ∧ regs0.loopCount 3 ≠ 0 ∧ 2 ≤ (regs0.loopCount 3).toNat ∧ (regs0.loopCount 0).toNat < 2 ∧
    (typed 0 [0]).mb.top = 0 ∧ (typed 0 []).mb.top ≠ 0 := by decide +kernel

/-- O25. -/
theorem witness_masks : (typed 0 (List.replicate 15 1)).maskDepth < 16 ∧ (typed 0 []).mb.mask = [] ∧ (typed 0 [9]).mb.mask = [9] ∧
    (typed 0 [9, 8]).mb.mask = 9 :: 8 :: [] ∧ 16 ≤ (typed 0 (List.replicate 16 1)).maskDepth ∧
    untouched (typed 0 (List.replicate 16 1)) = true ∧ cmpTypes (typed 0 []).vty 0 = true ∧ 32 ≤ (typed 0 []).vw := by decide +kernel

/-- O26. -/
theorem witness_formats : fmtReserved (regs0.loopCount 0).toNat = false ∧ fmtReserved (13 * 2 ^ 7 + 4 * 2 ^ 25) = false ∧ (15 : Nat) < 16 ∧
    (63 : Nat) < 64 ∧ (7 : Nat) < 8 ∧ (1 : Nat) < 2 := by decide +kernel

/-- O27. -/
theorem witness_requests : untouched regs0 = true ∧ (regs0.loopCount 0).toNat = 0 ∧ ¬(regs0.loopCount 0).toInt < 0 ∧
    (regs0.me.handler = false ∧ regs0.me.region.opened = false ∧ regs0.me.phase.opened = false) ∧
    (inPhase.me.handler = false ∧ inPhase.me.region.opened = false ∧ inPhase.me.phase.mask = 0) ∧ handling.me.handler = true ∧
    (inRegion 0).me.region.opened = true ∧
    (device { strand with phase := { Phase.closed with opened := true, mask := 1 } } (bankOf [])).me.phase.mask ≠ 0 := by decide +kernel

/-- O28, O29. -/
theorem witness_slot_frame : isSlotForm .nopS = true ∧ exec .nopS regs0 = .next regs0 := ⟨by decide, rfl⟩
theorem witness_landing : ¬(0x40 ≤ 0x009 ∧ 0x009 < 0x48) ∧ 0x40 ≤ 0x47 ∧ 0x47 < 0x48 := by decide

/-! ### Hypotheses that something meets: commits and traps -/

/-- O30: one result, and two for s3 due in one cycle. -/
def landingTwo : State :=
  device { strand with land := [⟨100, 0, .s 3, .word 1 0, false, false⟩, ⟨100, 1, .s 3, .word 2 0, false, false⟩] } (bankOf [])

theorem witness_result :
    let s := holding regs0 [.land 24 (.s 31) (.word 9 0)];
    committing s [.land 24 (.s 31) (.word 9 0)] ∧ (issuer s s).land = [] ∧ (issuer s s).phase.opened = false ∧
      (issuer s s).bank.isSome = true :=
  ⟨committing_holding .., by decide +kernel⟩

theorem witness_younger : (landingTwo.ctx 0 0).bank.isSome = true ∧
    (landingTwo.ctx 0 0).land = [⟨100, 0, .s 3, .word 1 0, false, false⟩, ⟨100, 1, .s 3, .word 2 0, false, false⟩] ∧ 100 ≤ 100 ∧
    (landingTwo.ctx 0 0).phase.opened = false := by decide +kernel

/-- O31: a transfer, a back edge of each end of the registers, nothing; a bundle that waits, with a counter and without. -/
theorem witness_goes_on : (let s := holding regs0 [.transfer 0 false];
      readyToCommit s = true ∧ hdrPop s.header = 0 ∧ s.bun.effs = [.transfer 0 false]) ∧
    (∀ k, k = 0 ∨ k = 31 → let s := holding regs0 [.loopCount k 4, .transfer 0x20000 true];
      readyToCommit s = true ∧ hdrPop s.header = 0 ∧ s.bun.effs = [.loopCount k 4, .transfer 0x20000 true]) ∧
    (readyToCommit regs0 = true ∧ hdrPop regs0.header = 0 ∧ regs0.bun.effs = []) ∧
    (∀ n, n = 0 ∨ n = 0x02F → let s : State := { regs0 with bun := { regs0.bun with hold := some ⟨7, n, .none, []⟩ } };
      s.bun.words ≠ [] ∧ s.pending = [] ∧ s.bun.hold = some ⟨7, n, .none, []⟩) ∧ (0 < 0x02F ∧ 0x02F < 0x030 ∧ 0x02F ≠ 0x020) := by
  refine ⟨⟨(committing_holding ..).1, by decide, rfl⟩, ?_, ⟨(committing_holding strand (bankOf _) []).1, by decide, rfl⟩, ?_, by decide⟩
  · rintro k (rfl | rfl) <;> exact ⟨(committing_holding ..).1, by decide, rfl⟩
  · rintro n (rfl | rfl) <;> decide

/-- O32: eight bytes at the allotment's end and in page 2, a spill word, an accumulator row. -/
theorem witness_stores : (∀ pa g, (pa = padBase 0 + 0xFFF8 ∧ g = false) ∨ (pa = 0x2FFF8 ∧ g = true) →
      let s := holding regs0 [.store 8 pa 0 0 7 g];
      (readyToCommit s = true ∧ hdrPop s.header = 0 ∧ s.bun.effs = [.store 8 pa 0 0 7 g]) ∧ MemoryCanonical s ∧
        (isGlobal pa = true → keyHeld s 0 pa 8 = true)) ∧
    committing (holding regs0 [.spillStore 0x3FF8 5 0]) [.spillStore 0x3FF8 5 0] ∧
    (issuer regs0 regs0).bank.isSome = true ∧ committing (holding regs0 [.accWrite 3 127 1 1]) [.accWrite 3 127 1 1] := by
  refine ⟨?_, committing_holding .., by decide +kernel, committing_holding ..⟩
  rintro pa g (⟨rfl, rfl⟩ | ⟨rfl, rfl⟩)
  · exact ⟨committing_holding .., rfl, by decide +kernel⟩
  · exact ⟨committing_holding .., rfl, by decide +kernel⟩

/-- O33: loads of each end of the type codes, with L1 empty and holding the line (whether it hits then is a free choice), the line
poisoned. -/
theorem witness_loads_read : (∀ es, committing (holding regs0 es) es) ∧ (6 : Nat) ≤ 6 ∧ isGlobal (padBase 0) = false ∧ isGlobal 0x20078 = true ∧
    keyHeld regs0 0 0x20078 8 = true ∧ 0x20078 % 2 ^ (6 / 2) = 0 ∧ regs0.l1Hit 0 0x20078 = false ∧
    (let s : State := { regs0 with cores := [(0, { regs0.core 0 with l1 := [(0x20000 / 128, List.replicate 128 255)] })] };
     thas (s.core 0).l1 (0x20078 / 128) = true ∧ ∀ e, e ∈ (s.core 0).l1 → ∀ x, x ∈ e.2 → x < 256) ∧
    ({ regs0 with poison := [0x20000 / 64] } : State).poisonedAt 0x20000 128 = true ∧ (1 : Nat) ≤ 4 := by
  refine ⟨fun _ => committing_holding .., ?_⟩
  decide +kernel

/-- O34: an atomic add of eight bytes and a cas of four. -/
theorem witness_atomic_performs : ∀ r : Rmw, r = ⟨0, 8, 1, 0⟩ ∨ r = ⟨10, 4, 1, 0⟩ →
    let e : List Eff := [.rmw 3 r 0x20000 0x20000 0 true none (some 2)]
    committing (holding regs0 e) e ∧ (r.size = 4 ∨ r.size = 8) ∧ MemoryCanonical (holding regs0 e) ∧
      keyHeld (holding regs0 e) 0 0x20000 r.size = true ∧ (holding regs0 e).poisonedAt 0x20000 r.size = false ∧
      (holding regs0 e).writeFails.contains (0x20000 / 64) = false := by
  rintro r (rfl | rfl)
  · exact ⟨committing_holding .., Or.inr rfl, rfl, by decide +kernel⟩
  · exact ⟨committing_holding .., Or.inl rfl, rfl, by decide +kernel⟩

/-- A bundle that traps, under a handler, without one, in handler state. -/
def trapped (h : Bool) (thnd : Word) : State :=
  let s := device { strand with handler := h, land := [⟨101, 0, .s 3, .word 1 0, false, false⟩] } { bankOf [] with cr := [(3, thnd)] };
  { s with bun := { s.bun with trap := some ⟨0x14, 5, 7⟩ } }

/-- The same bundle with an illegal word in its first slot. -/
def illegal (h : Bool) (thnd : Word) : State :=
  let s := trapped h thnd
  { s with bun := { s.bun with words := [0, 0x04632015, 0, 0, 0, 0, 0, 0] } }

theorem trapped_trapping (h : Bool) (thnd : Word) : trapping (trapped h thnd) ⟨0x14, 5, 7⟩ :=
  ⟨List.cons_ne_nil _ _, rfl, rfl, .inl ⟨nops_not_illegal _ rfl, rfl, rfl⟩⟩

theorem illegal_trapping (h : Bool) (thnd : Word) : trapping (illegal h thnd) ⟨0x01, 0, 1⟩ := by
  refine ⟨List.cons_ne_nil _ _, rfl, rfl, .inr ?_⟩
  have hw : slotsOf [0, 0x04632015, 0, 0, 0, 0, 0, 0] = (1, none) :: (slotsOf (List.replicate 8 0)).tail := by decide +kernel
  have e : (illegal h thnd).bundleBadNow = none :=
    nops_good _ [0, 0x04632015, 0, 0, 0, 0, 0, 0] _ rfl rfl rfl (by decide +kernel) (by decide +kernel)
  rw [State.illegalTrap, e]
  show ((illegal h thnd).firstIllegal (slotsOf [0, 0x04632015, 0, 0, 0, 0, 0, 0])).map _ = _
  rw [hw]
  rfl

/-- O35, O36: a result in flight that lands a cycle after the trapped bundle. -/
theorem witness_traps : (∀ s : State, s = trapped false 0x30000 ∨ s = illegal false 0x30000 →
      s.bun.dropLf = none ∧ s.bun.clearCh = none ∧ (issuer s s).handler = false ∧ (issuer s s).bank.isSome = true ∧
      tget 0 (issuerBank s s).cr 0x003 ≠ 0 ∧ ∀ l, l ∈ (issuer s s).land → s.bun.t < l.due) ∧
    (let s := trapped true 0x30000; (issuer s s).handler = true) ∧
    (let s := illegal false 0; (issuer s s).handler = false ∧ tget 0 (issuerBank s s).cr 0x003 = 0) := by
  refine ⟨?_, by decide +kernel, by decide +kernel⟩
  rintro s (rfl | rfl) <;> decide +kernel

/-- O37: by jr and by jrl. -/
theorem witness_return : ∀ es, es = [.handlerReturn 0x20040] ∨ es = [.handlerReturn 0x20040, .land 2 (.s 31) (.word 0x20060 0)] →
    let s := holding handling es;
    committing s es ∧ (issuer s s).bank.isSome = true ∧ (issuer s s).land = [] := by
  rintro es (rfl | rfl) <;> exact ⟨committing_holding .., by decide +kernel⟩

/-- O38 to O41: any effects can stand in the bundle in hand; what the clauses ask beside that. -/
theorem witness_commits : (∀ es, committing (holding regs0 es) es) ∧ (issuer regs0 regs0).bank.isSome = true ∧ MemoryCanonical regs0 :=
  ⟨fun _ => committing_holding .., by decide +kernel, rfl⟩

/-- O38: an allotment's first fifteen words as windows. -/
theorem witness_commits_windows : (15 : Nat) < 16 ∧ (∀ i, i < 15 → isGlobal (padBase 0 + 8 * i) = false) := by decide +kernel

theorem witness_commits_barrier : padBase 0 < 2 ^ 64 ∧ isGlobal (padBase 0) = false ∧
    (4 : Word).toNat + bits (memRead siloed.mem (padBase 0) 16) 32 32 < 2 ^ 32 ∧ 1 ≤ bits (memRead siloed.mem (padBase 0) 16) 64 16 ∧
    bit (memRead siloed.mem (padBase 0) 16) 96 = true ∧ bit (memRead siloed.mem (padBase 0) 16) 97 = false ∧
    (issuer regs0 regs0).rel = none ∧
    (issuer regs0 (device { strand with rel := some ⟨4, .publish [] false⟩ } (bankOf []))).rel ≠ none ∧ MemoryCanonical siloed := by
  and_intros
  all_goals try decide +kernel
  exact Laws.memWrite_wf _ _ _ rfl

/-- A Silo set: valid, of several versions, eight buffers, owner 0, buffer 7 staged. -/
def setNum : Nat := 2 ^ 256 * 2 ^ 256 * 2 ^ 256 * (31 * 2 ^ 251 + 2 ^ 94)

/-- Silo set 63 with eight buffers, buffer 7 staged; a pin of it by tag 2^32 - 1 as entry 0. -/
def pinned : State :=
  (regs0.smPut (0x3800 + 128 * 63) 128 setNum).smPut 0x5800 16
    (2 ^ 127 + 63 * 2 ^ 121 + 7 * 2 ^ 118 + (2 ^ 32 - 1) * 2 ^ 64 + 2 ^ 48)

theorem smPut_canonical {s : State} {o n v : Nat} (h : MemoryCanonical s) : MemoryCanonical (s.smPut o n v) :=
  Laws.memWrite_wf _ _ _ h

theorem witness_commits_silo : (63 : Nat) < 64 ∧ 2 ^ 32 - 1 < 2 ^ 32 ∧ pinned.findPin 63 (2 ^ 32 - 1) = some 0 ∧
    siloEn (pinned.silo 63) = true ∧ siloMulti (pinned.silo 63) = true ∧ siloStaged (pinned.silo 63) = some 7 ∧
    schedulerSound pinned ∧ schedulerSound siloed ∧ MemoryCanonical pinned := by
  and_intros
  all_goals first | decide +kernel | exact smPut_canonical (smPut_canonical rfl)

/-- A transform command of context 0 in the banks, a dormant slot 7 of its crew. -/
def command : Xform := ⟨5, 0, 0, .xformZero 0 0, padBase 0, padBase 0, 64, 0, 0, 0, 0, 7⟩

def busyBanks : State :=
  { regs0 with
    cores := [(0, { regs0.core 0 with
      xforms := [command], ctxs := [(0, strand), (7, { Ctx.empty with st := .dormant, crew := 0 })] })] }

/-- O40: a token that waits for a command, tokens that wait for nothing; slots; a location that differs and one that does not; a
queue element. -/
theorem witness_fence_wait : busyBanks.fwaitReady 0 0 1 = false ∧ regs0.fwaitReady 0 0 1 = true ∧
    regs0.fwaitReady 0 0 (wd (4 * 2 ^ 61 + 2 ^ 48 - 1)) = true ∧
    (issuer regs0 regs0).wait = .none ∧ (issuer busyBanks busyBanks).wait = .none ∧
    ((List.range 8).find? fun i => (regs0.ctx 0 i).st == .free) = some 1 ∧ 1 ≠ regs0.bun.ctx ∧ (7 : Word).toNat ≠ busyBanks.bun.ctx ∧
    (busyBanks.ctx 0 (7 : Word).toNat).st = .dormant ∧ (busyBanks.ctx 0 (7 : Word).toNat).crew = (issuer busyBanks busyBanks).crew ∧
    (busyBanks.ctx 0 (7 : Word).toNat).due = false ∧
    (∀ n, n = 4 ∨ n = 8 → regs0.poisonedAt 0x2FFF8 n = false ∧ keyHeld regs0 0 0x2FFF8 n = true ∧
      memRead regs0.mem 0x2FFF8 n = (0 : Word).toNat % 2 ^ (8 * n) ∧ memRead regs0.mem 0x2FFF8 n ≠ (1 : Word).toNat % 2 ^ (8 * n)) ∧
    (2 < packetLen 0 + 1 ∧ ((linked.lf 0).part ++ [0]).length < packetLen 0 ∧
      packetLen 0 ≤ (((counting 0 [0]).lf 0).part ++ [0]).length) ∧ (issuer queued queued).bank.isSome = true ∧ (0 : Nat) < 16 ∧
    isGlobal ((queued.allot 0 0).1 + qBase (queued.queue 0) + qTail (queued.queue 0) * qEsz (queued.queue 0)) = false := by
  and_intros
  all_goals try decide +kernel
  rintro n (rfl | rfl) <;> decide +kernel

/-- A core whose sequencer is as given. -/
def sequenced (q : Sequencer) : State :=
  { regs0 with cores := [(0, { regs0.core 0 with seqr := q })] }

def zeroWord : MtWord := regs0.mtCapture (.tzero 15)

/-- O41. -/
theorem witness_words_begin : (issuer regs0 regs0).wait = .none ∧ (regs0.core 0).seqr.wait = none ∧ (regs0.core 0).seqr.run = none ∧
    ((sequenced { Sequencer.idle with run := some zeroWord }).core 0).seqr.run = some zeroWord ∧
    ((sequenced { Sequencer.idle with run := some zeroWord }).core 0).seqr.wait = none ∧
    (epKind (wd (2 ^ 62)).toNat ≠ 3 ∧ epKind (wd (2 ^ 63)).toNat = 2) ∧
    (epKind (wd (2 ^ 63 + 2 ^ 62 + 2 ^ 61)).toNat = 3 ∧ epForm (wd (2 ^ 63 + 2 ^ 62 + 2 ^ 61)).toNat = true) ∧
    (regs0.granaryQ.length + regs0.prefetch.length < 1024 ∧ regs0.gleanQ.length < 64) ∧
    (let s : State := { regs0 with granaryQ := List.replicate 1024 9, gleanQ := List.replicate 64 9 };
     ¬s.granaryQ.length + s.prefetch.length < 1024 ∧ ¬s.gleanQ.length < 64) ∧ regs0.setMembers 0 = none ∧
    (let s : State := { regs0 with
        mcBase := wd (0x30000 * 2 ^ 0), mem := memWrite (memWrite [] 0x30000 16 (2 ^ 127 + 2 ^ 118 + 0x4000 * 2 ^ 4)) 0x40000 8 (1 + 512 * 2 ^ 32) };
     s.setMembers 0 = some [(0, 1), (0, 512)] ∧ (s.splitMembers [(0, 1), (0, 512)]).1 = [(0, 1)] ∧ (s.splitMembers [(0, 512)]).1 = []) ∧
    MemoryCanonical regs0 ∧ schedulerSound regs0 := by
  and_intros
  all_goals try first | decide +kernel | rfl

/-! ### Hypotheses that something meets: events -/

/-- The device as the host's probe leaves it, with tzero in slot M, seen as both an issue and a step see it. -/
def probed : State := State.reset.probe 5 0x1C000001

/-- O42, O55: its bundle is legal, and runs beside nothing. -/
theorem witness_issue :
    let s0 : State := { probed with agenda := [], ev := [0] };
    let ws := ([0] ++ List.replicate 7 0).set 5 0x1C000001;
    let t0 := max s0.clk (max (s0.ctx 0 0).nextAt (s0.core 0).busyTill);
    let u := (((s0.timeTo t0).landUntil 0 0 t0).modCore 0 (·.accSettle t0)).seqAdvance 0 t0;
    let v : State := { u with bun := { Bundle.none with core := 0, ctx := 0, pc := (u.ctx 0 0).pc, t := t0 } };
    let v' := v.fetchAccess 0 (u.ctx 0 0).space (u.ctx 0 0).pc;
    let v1 : State := { v' with bun := { v'.bun with words := ws, mirror := mirrorWrites ws } };
    let is := (slotsOf ws).filterMap fun p => p.2.map fun i => (p.1, i);
    probed.agenda = (.bundleIssue, [0]) :: [] ∧ (s0.core 0).running = some 0 ∧ s0.canIssue 0 = true ∧ (u.ctx 0 0).wait = .none ∧
      u.safeNext 0 0 = false ∧ v.fetch 0 (u.ctx 0 0).space (u.ctx 0 0).pc = .words ws ∧ decodeSlot (slotMap 5) 0x1C000001 = some (.tzero 1) ∧
      bundleBad ws is = none ∧ v1.interlock is = none ∧ v1.cr 0x008 = 0 ∧ v1.me.owed = [] := by
  decide +kernel

theorem witness_land : (landingTwo.core 0).running = some 0 ∧
    (landingTwo.ctx 0 0).land = ⟨100, 0, .s 3, .word 1 0, false, false⟩ :: [⟨100, 1, .s 3, .word 2 0, false, false⟩] ∧
    (landingTwo.ctx 0 0).wait ≠ .trans ∧ landingTwo.owesCycle = false := by decide +kernel

/-- A load into s31 that is there. -/
def arrived : Load := ⟨3, 31, 0x20000, 0x20000, 0, none, none, none, some (7, 0), false, false⟩

def having (x : Ctx) : State := { device x (bankOf []) with clk := 100 }

def waiting (w : Wait) : State := having { strand with wait := w, woken := true }

def releasing (pa : Nat) (before : List (Nat × Nat)) : State :=
  having { strand with rel := some ⟨4, .store 8 pa pa 0 7 (isGlobal pa)⟩, relBefore := before }

/-- A strand that waits for the seal of a body at 0x4_0000 with one entry of one granule, all through a cellar leaf of 4 GiB. -/
def sealing : State :=
  { waiting (.seal 3 0x40000 3 500) with
    sproot := [(0, wd (2 ^ 63 + 0x10000))]
    mem := memWrite (memWrite (memWrite [] 0x10000 8 (3 * 2 ^ 44 + 47)) 0x40000 16 (7 + 2 ^ 64)) 0x40040 16 (0x60000 + 2 ^ 64) }

/-- O43: a load of s31, a release of eight bytes to each memory, waits of every kind, past their deadlines and not, a seal whose
body is not there, a spin. -/
theorem witness_load_release_wait : ((having { strand with loads := [arrived] }).core 0).running.isSome = true ∧
    (((having { strand with loads := [arrived] }).ctx 0 0).loads.filter fun l => l.done.isSome && !l.held)[0]? = some arrived ∧
    ((having { strand with loads := [arrived] }).ctx 0 0).bank.isSome = true ∧
    (∀ pa b, (pa = padBase 0 ∧ (b = [] ∨ b = [(padBase 0 + 4, 9)])) ∨ (pa = 0x20000 ∧ b = []) →
      ((releasing pa b).ctx 0 0).rel = some ⟨4, .store 8 pa pa 0 7 (isGlobal pa)⟩ ∧ (releasing pa b).releaseReady 0 0 = true ∧
        (isGlobal pa = true → keyHeld (releasing pa b) 0 pa 8 = true) ∧ ((releasing pa b).ctx 0 0).relBefore = b ∧
        ∀ p, p ∈ b → isGlobal p.1 = false) ∧
    ((waiting (.fence 0 100)).ctx 0 0).wait = .fence 0 100 ∧ (waiting (.fence 0 100)).fwaitReady 0 0 0 = true ∧
    ((waiting (.seal 3 0x20000 3 500)).ctx 0 0).wait = .seal 3 0x20000 3 500 ∧
    (waiting (.seal 3 0x20000 3 500)).fwaitReady 0 0 (wd (4 * 2 ^ 61 + 2 ^ 48 - 1)) = true ∧
    ((waiting (.bar 0 500)).ctx 0 0).wait = .bar 0 500 ∧ ((waiting (.bar 0 500)).ctx 0 0).woken = true ∧
    ((waiting (.drain 7 100)).ctx 0 0).wait = .drain 7 100 ∧ 100 ≤ (waiting (.drain 7 100)).clk ∧
    (let s := having { strand with phase := { Phase.closed with opened := true }, loads := [{ arrived with done := some (7, 1) }] };
     ((s.ctx 0 0).loads.filter fun l => l.done.isSome && !l.held)[0]? = some { arrived with done := some (7, 1) } ∧
       (s.ctx 0 0).phase.opened = true ∧ (s.ctx 0 0).handler = false ∧ (s.ctx 0 0).wait = .none) ∧
    ((releasing 0x20000 []).ctx 0 0).arrives = [] ∧
    ((waiting (.valid 3 3 0x40000 0 7 500)).ctx 0 0).wait = .valid 3 3 0x40000 0 7 500 ∧
    keyHeld (waiting (.valid 3 3 0x40000 0 7 500)) 0 (0x40000 + 56) 8 = true ∧ State.reset.cxlDown 0x40000 = false ∧
    ((waiting (.line 0x20000 500 8 0 9)).ctx 0 0).wait = .line 0x20000 500 8 0 9 ∧ ((waiting (.line 0x20000 500 8 0 9)).ctx 0 0).woken = true ∧
    100 ≤ (waiting (.fence 0 100)).clk ∧
    (let s := having { strand with spin := ⟨[], some (0x20000, 0), 4, none, none, [], []⟩ };
     let s : State := { s with cores := [(0, { s.core 0 with banks := [(0, { bankOf [] with cr := [(9, 1)] })] })] };
     (s.core 0).running = some 0 ∧ s.spinDue 0 0 = true) := by
  refine ⟨by decide +kernel, by decide +kernel, by decide +kernel, ?_, ?_⟩
  · rintro pa b (⟨rfl, rfl | rfl⟩ | ⟨rfl, rfl⟩) <;> decide +kernel
  · decide +kernel

/-- A seal whose check fails, and one whose checks all pass. -/
theorem witness_seals : (let s := waiting (.seal 3 0x20000 3 500);
      (((given s [0, 0]).fwaitDone 0 0 (wd (4 * 2 ^ 61 + 2 ^ 48 - 1))).sealSteps 0 0 0x20000).1.toBool = false) ∧
    (sealing.ctx 0 0).wait = .seal 3 0x40000 3 500 ∧ sealing.fwaitReady 0 0 (wd (4 * 2 ^ 61 + 2 ^ 48 - 1)) = true ∧
    (((given sealing [0, 0]).fwaitDone 0 0 (wd (4 * 2 ^ 61 + 2 ^ 48 - 1))).sealSteps 0 0 0x40000).1.toBool = true ∧
    MemoryCanonical sealing := by
  refine ⟨?_, ?_, ?_, ?_, ?_⟩
  all_goals try decide +kernel
  exact Laws.memWrite_wf _ _ _ (Laws.memWrite_wf _ _ _ (Laws.memWrite_wf _ _ _ rfl))

/-- A core of two strands: the first is at a bundle that is safe to leave, the second wants its place. -/
def preempting : State :=
  let s := having strand
  { s with
    mem := memWrite [] 0x20000 32 (2 ^ 19)
    cores := [(0, { s.core 0 with
      ctxs := [(0, { strand with pri := 0 }), (1, { strand with st := .ready, bank := some 1, pri := 7, pre := true })]
      banks := [(0, bankOf []), (1, { bankOf [] with owner := some 1 })] })] }

/-- A cluster whose ready queue holds one record for core 0. -/
def queuedReady (age : Nat) : State :=
  { State.reset with clusters := [(0, { Cluster.reset with queue := [(mkRecord 0 0x20000 0 5 0xFFFF 0 3 false 0 [1, 2, 3, 4, 5, 6], age)] })] }

/-- O44. -/
theorem witness_leaving : ∀ w, w = .bar 0 500 ∨ w = .yield ∨ w = .exit ∨ w = .suspend 0 7 0 0x20020 →
    ((waiting w).core 0).running = some 0 ∧ (waiting w).canLeave 0 0 = true ∧ ((waiting w).ctx 0 0).wait = w := by
  rintro w (rfl | rfl | rfl | rfl) <;> decide +kernel

/-- O44: what a suspend's record, an ending strand and a handler start ask. -/
theorem witness_records : (let x := (having strand).ctx 0 0;
      x.crew < 2 ^ 16 ∧ x.kind < 4 ∧ x.pri < 8 ∧ x.tag < 2 ^ 32 ∧ x.cfaults = [] ∧ x.crew ≠ 0xFFFF) ∧ 7 < 8 ∧ 95 < 96 ∧
    (2 ^ 48 - 32) % 32 = 0 ∧ 2 ^ 48 - 32 < 2 ^ 48 ∧
    (let e : Crew := tget .free ((having strand).cluster 0).crews 0; e.live = true ∧ e.gen = bits 0 6 5 ∧ 2 ≤ e.memb) ∧
    ((having strand).cluster 0).queue.length < 32 ∧ ((having strand).cluster 0).rcnt = 0 ∧
    (let q : Cluster := { Cluster.reset with rsize := 2, queue := List.replicate 32 ([], 0) }; ¬q.queue.length < 32 ∧ q.rcnt < q.ringSize) ∧
    schedulerSound (having strand) := by
  and_intros
  all_goals decide +kernel

theorem witness_preemption : (preempting.core 0).running = some 0 ∧ (preempting.ctx 0 0).wait = .none ∧ preempting.safeNext 0 0 = true ∧
    (preempting.ctx 0 0).land = [] ∧ preempting.seqBusyAt 0 = false ∧
    (let u := (((given preempting [0]).markLeft 0 0).modCtx 0 0 fun x => { x with st := .ready }).perf 0 0 14 1
     (u.core 0).running = none ∧ (u.core 0).best = some 1 ∧ (u.ctx 0 1).bank.isSome = true) := by decide +kernel

theorem witness_strands : (queuedReady 0).nextDispatch 0 = some (0, 0, 0) ∧
    ((queuedReady 63).cluster 0).queue[0]? = some (nth ([], 0) ((queuedReady 63).cluster 0).queue 0) ∧
    ((nth ([], 0) ((queuedReady 63).cluster 0).queue 0).2 < 64) ∧ (64 ≤ (nth ([], 0) ((queuedReady 64).cluster 0).queue 0).2) ∧
    2 ≤ (nth ([], 0) ((queuedReady 64).cluster 0).queue 0).1.length ∧
    ((waiting (.kill 0x42)).ctx 0 0).wait = .kill 0x42 ∧ (waiting (.kill 0x42)).copiesOf 7 = false ∧
    (regs0.killSt.getLsbD 63 = true ∧ (regs0.ctx 0 0).st = .running ∧ (regs0.ctx 0 0).wait = .none) ∧ (95 : Nat) < 96 ∧
    (let s := having { strand with wait := .rollback 0, phase := { Phase.closed with opened := true, retry := 2 } };
     (s.ctx 0 0).wait = .rollback 0 ∧ (s.ctx 0 0).bank.isSome = true ∧ s.phaseCopies 0 (s.ctx 0 0).uid = false ∧
       (s.ctx 0 0).phase.log = [] ∧ (s.ctx 0 0).phase.retry < 3 ∧ (s.core 0).running.isSome = true) ∧
    (let s : State := { busyBanks with starts := [⟨0, 0, 0x20000, 1, 2⟩] };
     s.starts = ⟨0, 0, 0x20000, 1, 2⟩ :: [] ∧ (s.crewOf 0 0).memb ≠ 65535 ∧ s.armedSlot 0 0 = some 7) ∧
    (let s : State := { regs0 with walks := [(4, ⟨0, 0x30000, [0], []⟩)] }; (s.walks.take 64).find? (fun p => p.1 == 4) = some (4, ⟨0, 0x30000, [0], []⟩)) := by
  decide +kernel

/-- O45: a waiting word, a running one in its first step and past its last, a chained one, a chained copy's, a command. -/
def chainedCopy (id : Nat) : Copy :=
  { core := 0, engine := 0, track := 0, ctx := 0, uid := 7, crew := 0, space := 0, ch := 0, instr := .cpy 0 0 0 0 0, g := [], x := 0, y := 0
    mt := some { zeroWord with accepted := id }, phase := false, region := false, rows := 1, len := 64, sstr := 64, dstr := 64
    src := .pad 0 (padBase 0), dsts := [.pad 0 (padBase 0 + 65472)], bars := [0], handler := none, stage := 3, row := 0, off := 0, flight := []
    awaits := 0, buf := [], bales := [], fault := none, status := none, elem := none, reply := none, seq := 0
    behind := false, bale := false, held := [], noLeaf := none, cut := false }

theorem witness_sequencer : (∀ q : Sequencer, ((sequenced q).core 0).seqr = q) ∧ mtOp zeroWord.instr = 7 ∧ 0 < mtSteps zeroWord ∧
    zeroWord.core = 0 ∧
    (let s := sequenced { Sequencer.idle with run := some zeroWord };
     s.wordWaits zeroWord = false ∧ (((given s [0, 0]).flushXforms 0).modCore 0 Core.accAll).stepPoison zeroWord 0 = false) ∧
    (let s : State := { regs0 with copies := [(2, chainedCopy 0)] };
     s.copies.find? (fun p => p.1 == 2) = some (2, chainedCopy 0) ∧ (chainedCopy 0).core = 0 ∧ (chainedCopy 0).stage = 3) ∧
    (busyBanks.core 0).xforms.find? (fun y => y.id == command.id) = some command ∧ (busyBanks.core 0).xforms.head? = some command ∧ isGlobal command.dst = false ∧
    command.instr = .xformZero 0 0 := by
  refine ⟨fun q => rfl, ?_⟩
  decide +kernel

/-- O46: 64 bytes from one end of the allotment to the other. -/
def moving : Copy :=
  { chainedCopy 0 with mt := none, stage := 2 }

/-- A piece of its first row in flight, bound for an address of the allotment or past its end. -/
def flying (b : Nat) : Copy := { moving with dsts := [.pad 0 b], flight := [⟨0, 0, 0, [255, 0], false⟩] }

theorem witness_copying_moves :
    let s : State := { regs0 with copies := [(2, moving)] };
    s.copies.find? (fun p => p.1 == 2) = some (2, moving) ∧ moving.mo = 1 ∧ moving.src = .pad 0 (padBase 0) ∧ moving.gathers = false ∧
      moving.dsts ≠ [] ∧ moving.bales = [] ∧ moving.bale = false ∧ moving.off < moving.len ∧ moving.allRead = false ∧
      moving.stage = 2 ∧ s.copyBehind moving = false ∧ (s.core 0).running.isSome = true ∧ 0 < moving.pieceLen ∧
      (∀ m, m < moving.pieceLen → isPad (moving.sourceOf m) = true ∧ s.poisonedAt (moving.sourceOf m) 1 = false) := by
  decide +kernel

/-- O46: the piece performs at the allotment's end, and is a bounds fault a byte on. -/
theorem witness_pieces : (∀ b, b = padBase 0 + 65534 ∨ b = padBase 0 + 65535 →
      (flying b).flight[0]? = some ⟨0, 0, 0, [255, 0], false⟩ ∧ (flying b).dsts[0]? = some (.pad 0 b)) ∧
    regs0.inAllotment 0 (padBase 0 + 65534) 2 = true ∧ isPad (padBase 0 + 65534) = true ∧ (∀ x, x ∈ [255, 0] → x < 256) ∧
    (∀ q, q ∈ (flying 0).bars → q = 0) ∧ regs0.inAllotment 0 (padBase 0 + 65535) 2 = false ∧ regs0.holds 0 0 7 = true ∧
    moving.fault = none ∧ MemoryCanonical regs0 := by
  and_intros
  all_goals try first | decide +kernel | rfl
  rintro b (rfl | rfl) <;> decide +kernel

theorem witness_no_commands (y : Copy) (d : Nat) : (({ regs0 with copies := [(2, y)] } : State).core d).xforms = [] := by
  rcases d with _ | d <;> rfl

theorem witness_copying_ends : ∀ f, f = none ∨ f = some (3, 2 ^ 46 - 1) →
    let y := { moving with stage := 3, fault := f };
    let s : State := { regs0 with copies := [(2, y)] };
    s.copies.find? (fun p => p.1 == 2) = some (2, y) ∧ y.finished = true ∧ y.reply = none := by
  rintro f (rfl | rfl) <;> decide +kernel

/-- A packet to this device, or to device 1, alone in its fabric. -/
def carrying (p : Packet) : State :=
  { State.reset with packets := [(3, p)], routes := [(1, 2 ^ 31 + 1)], links := [(0, { Link.down with st := 2 })] }

def inbound (k : Nat) : Packet := { Packet.blank with kind := k, req := 5, who := 9 }
def outbound (h : Nat) : Packet := { Packet.blank with kind := 1, dst := 1, hops := h }

/-- A packet of another device's, and one of this device's: a store of link FIFO 7, with its remote operation out. -/
def passing (h : Nat) : Packet := { outbound h with req := 5 }
def ownStore : Packet := { Packet.blank with kind := 0, dst := 2, who := 9 }
def storing : State :=
  { regs0 with packets := [(3, ownStore)], remotes := [(9, ⟨0, 0, 0, 7, 7, 0, 2 ^ 60, 0, 0, false, 5, 0, 0, 0, 0, [], false⟩)] }

/-- Port 0 with a full replay buffer. -/
def clogged (p : Packet) : State := { carrying p with links := [(0, { Link.down with st := 2, flits := [(Packet.blank, 128)] })] }

/-- O47: a packet that has hops left and one that has none; the port it leaves by, taken or full, or none; this device's own store
lost; each kind that ends here. -/
theorem witness_hops : (∀ h, h = 15 ∨ h = 16 →
      (carrying (passing h)).packets.find? (fun q => q.1 == 3) = some (3, passing h) ∧ (passing h).dst ≠ (carrying (passing h)).dev ∧
        (carrying (passing h)).mayGo 3 (passing h) = true ∧ (passing h).hops = h ∧ (passing h).req ≠ 0) ∧
    (let s := carrying (passing 15);
     (passing 15).dst / 512 = s.dev / 512 ∧ bit (tget 0 s.routes 1) 31 = true ∧ s.hopPorts (passing 15) = [0] ∧
       s.hopPort (passing 15) (fun n => nth 0 [] n) = some 0 ∧ (s.link 0).takes (passing 15) = true) ∧
    (let s := clogged (passing 15);
     s.hopPort (passing 15) (fun n => nth 0 [] n) = some 0 ∧ (s.link 0).takes (passing 15) = false ∧
       ({ s with links := [] } : State).hopPort (passing 15) (fun n => nth 0 [] n) = none) ∧
    (storing.mayGo 3 ownStore = true ∧ bit (tget 0 storing.routes ownStore.dst) 31 = false ∧ ownStore.req = storing.dev ∧
      storing.holds 0 0 7 = true) ∧
    (∀ k, k = 0 ∨ k = 1 ∨ k = 2 ∨ k = 3 ∨ k = 5 ∨ k = 6 ∨ k = 7 →
      (carrying (inbound k)).packets.find? (fun q => q.1 == 3) = some (3, inbound k) ∧
      (inbound k).dst = (carrying (inbound k)).dev ∧ (inbound k).kind = k ∧ (carrying (inbound k)).mayGo 3 (inbound k) = true ∧
      (carrying (inbound k)).ownerHeld (inbound k) = false ∧ (carrying (inbound k)).flipReady (inbound k) = true) := by
  refine ⟨?_, by decide +kernel, by decide +kernel, by decide +kernel, ?_⟩
  · rintro h (rfl | rfl) <;> decide +kernel
  · rintro k (rfl | rfl | rfl | rfl | rfl | rfl | rfl) <;> decide +kernel

/-- Window 0 at 4 MiB: a mirage window of 64 KiB with every right and key 0, through a leaf of 4 GiB of table 0. -/
def owning (p : Packet) : State :=
  { carrying p with
    wtBase := wd 0x400000, sproot := [(0, wd (2 ^ 63 + 0x10000))]
    mem := memWrite (memWrite [] 0x10000 8 (3 * 2 ^ 44 + 15)) 0x400000 64
      (2 ^ 511 + 2 ^ 510 + 15 * 2 ^ 505 + 0x50000 * 2 ^ 365 + 0x20000 * 2 ^ 309 + 65536 * 2 ^ 269) }

/-- A window write of two rows of 64 bytes; a link-FIFO load and store of one word; a publish of window 0. -/
def rowsIn : Packet := { inbound 2 with rows := 2, len := 64, stride := 128, data := List.replicate 128 7 }
def wordIn (op : Nat) : Packet := { inbound 0 with hdr := op * 2 ^ 60, words := [2 ^ 32 - 1], off := 65532 }

theorem witness_owner : (carrying (inbound 2)).ownerCheck (inbound 2) (writeRights 0) 0 false ≠ 0 ∧
    (let s := owning rowsIn;
     s.ownerCheck rowsIn (writeRights rowsIn.hdr) ((rowsIn.rows - 1) * rowsIn.stride + rowsIn.len) (bit rowsIn.hdr 4) = 0 ∧
       s.rowsGood (s.window 0) (winBase (s.window 0) true) 2 64 128 false true = true ∧ bit rowsIn.hdr 1 = false) ∧
    (∀ o, o = 0 ∨ o = 1 → let s := owning (wordIn o);
      bits (wordIn o).hdr 60 4 = o ∧ bits (wordIn o).hdr 48 4 = 0 ∧ (wordIn o).req ≠ s.dev ∧ s.mayGo 3 (wordIn o) = true ∧
        s.ownerHeld (wordIn o) = false ∧ s.ownerCheck (wordIn o) [if o = 0 then 3 else 2] 4 false = 0 ∧
        (carrying (wordIn o)).ownerCheck (wordIn o) [if o = 0 then 3 else 2] 4 false ≠ 0 ∧
        s.lfPlace (wordIn o) 0 = some (if o = 0 then 0x5FFFC else 0x2FFFC, 0, 3 * 2 ^ 44 + 15) ∧ bit (3 * 2 ^ 44 + 15) 5 = false ∧
        s.cxlDown 0x5FFFC = false ∧ s.poisonedAt (0x5FFFC / 64 * 64) 64 = false ∧ keyHeld s 0 0x2FFFC 4 = true ∧ (wordIn o).words.length = 1) ∧
    (let s := owning { inbound 3 with words := [0] }; s.flipReady { inbound 3 with words := [0] } = true ∧ s.publishCheck 0 5 = 0 ∧
      keyHeld s 0 0x400000 64 = true) := by
  refine ⟨by decide +kernel, by decide +kernel, ?_, by decide +kernel⟩
  rintro o (rfl | rfl) <;> decide +kernel

theorem witness_owner_memory (p : Packet) : MemoryCanonical (owning p) := Laws.memWrite_wf _ _ _ (Laws.memWrite_wf _ _ _ rfl)

/-- Channel 0 to device 5, not valid or valid with landing base 0 and windows of one block. -/
def channelled (e : Nat) (k : Nat) : State := (carrying (inbound k)).smPut 0x1800 32 e

def tcWord : Nat := 2 ^ 255 + 5 * 2 ^ 240 + 2 ^ 223

theorem witness_credit : tcEn ((channelled tcWord 5).tch ((inbound 5).win % 256)) = true ∧
    tcPdev ((channelled tcWord 5).tch ((inbound 5).win % 256)) = (inbound 5).req ∧
    (channelled tcWord 5).packets.find? (fun q => q.1 == 3) = some (3, inbound 5) ∧ tcEn ((channelled 0 4).tch 0) = false ∧
    (channelled 0 4).packets.find? (fun q => q.1 == 3) = some (3, inbound 4) := by decide +kernel

theorem witness_credit_memory (e k : Nat) : MemoryCanonical (channelled e k) ∧ schedulerSound (channelled e k) :=
  ⟨smPut_canonical rfl, rfl, rfl⟩

/-- The first of two blocks lands at the start of memory, through a leaf of 4 GiB. -/
def block : Packet := { inbound 4 with words := [0, 0, 2, 0], data := List.replicate 4096 255 }

def landing : State :=
  { (carrying block).smPut 0x1800 32 tcWord with
    sproot := [(0, wd (2 ^ 63 + 0x10000))], mem := memWrite ((carrying block).smPut 0x1800 32 tcWord).mem 0x10000 8 (3 * 2 ^ 44 + 15) }

theorem witness_block : tcEn (landing.tch 0) = true ∧
    tcPdev (landing.tch 0) = block.req ∧ tcPch (landing.tch 0) = nth 0 block.words 1 ∧ bit (landing.tch 0) 223 = true ∧
    landing.ownerPa (stGraph (landing.stageEntry (bits (landing.tch 0) 217 6)))
      (bits (landing.tch 0) 140 44 * 4096 + (nth 0 block.words 3 + block.rows) % 2 ^ 32 % tcWin (landing.tch 0) * 4096) false true =
        some (0, 0, 3 * 2 ^ 44 + 15) ∧
    isPad 0 = false ∧ landing.moves = [] ∧ block.rows + 1 < nth 0 block.words 2 ∧ keyHeld landing 0 0 4096 = true := by decide +kernel

/-- The second of the two blocks, the packet's last. -/
theorem witness_last_block : nth 0 block.words 2 ≤ { block with rows := 1 }.rows + 1 ∧
    landing.ownerPa (stGraph (landing.stageEntry (bits (landing.tch 0) 217 6))) (tcBlockAt (landing.tch 0) { block with rows := 1 } 1) false true
      = some (0, 0, 3 * 2 ^ 44 + 15) := by decide +kernel

theorem witness_block_data : landing.packets.find? (fun q => q.1 == 3) = some (3, block) ∧ 4096 * (block.rows + 1) ≤ block.data.length ∧ (∀ x, x ∈ block.data → x < 256) ∧ schedulerSound landing ∧
    MemoryCanonical landing :=
  ⟨rfl, (List.length_replicate ..).ge, fun x h => (List.eq_of_mem_replicate h).trans_lt (by decide), ⟨rfl, rfl⟩,
    Laws.memWrite_wf _ _ _ (smPut_canonical (s := carrying block) rfl)⟩

/-- A remote operation out, of each kind, with so many words to come for link FIFO 7, which holds 0 or 1. -/
def asked (k op n : Nat) (inq : List InWord) : State :=
  { regs0 with
    cores := [(0, { regs0.core 0 with lf := [(7, ⟨inq, [], [], 0, false, wd (2 ^ 63), 0⟩)] })]
    packets := [(3, inbound 6)], remotes := [(9, ⟨k, 0, 0, 7, 7, 0, op * 2 ^ 60, n, 2, false, 5, 0, 0, 0, 0, [], false⟩)] }

theorem witness_replies : ∀ q : Nat × Nat, q ∈ [(0, 0), (0, 1), (1, 0), (2, 0), (3, 0)] →
    ∃ r, (asked q.1 q.2 31 []).remotes.find? (fun p => p.1 == 9) = some (9, r) ∧ r.kind = q.1 ∧ bits r.op 60 4 = q.2 ∧
      (inbound 6).status = 0 ∧ (asked q.1 q.2 31 []).lfRoom r = true ∧ (asked q.1 q.2 31 []).lfWaiting r 3 = false ∧
      (asked q.1 q.2 31 [⟨0, 0, false, 0, 0, 0⟩]).lfRoom r = false ∧ r.region = false ∧ (asked q.1 q.2 31 []).holds 0 0 7 = true ∧
      r.deadline ≤ (asked q.1 q.2 31 []).ns ∧ ({ asked q.1 q.2 31 [] with packets := [] } : State).replyHere 9 = false ∧
      (asked q.1 q.2 31 []).replyHere 9 = true ∧ ({ asked q.1 q.2 31 [] with packets := [] } : State).lfWaiting r 1 = false ∧
      r.words ≤ 31 := by
  intro q h
  refine ⟨_, rfl, rfl, ?_, rfl, ?_, ?_, ?_, rfl, ?_, Nat.zero_le _, rfl, rfl, rfl, Nat.le_refl _⟩ <;> (revert q; decide +kernel)

/-- An earlier reply waits for the same FIFO; a copy that its answer reaches; a strand whose publish is out. -/
theorem witness_replies_more :
    (let s : State := { asked 0 0 1 [] with packets := [(3, inbound 6), (4, inbound 6)] };
     s.lfWaiting ⟨0, 0, 0, 7, 7, 0, 0, 1, 2, false, 5, 0, 0, 0, 0, [], false⟩ 4 = true) ∧
    (let s : State := { asked 1 0 1 [] with copies := [(2, moving)] }; s.copies.find? (fun q => q.1 == 2) = some (2, moving)) ∧
    (∀ q, q ∈ (asked 3 0 1 []).remotes → q.2.kind = 3 → q.1 = (inbound 6).who) ∧
    ((having { strand with rel := some ⟨4, .sent false⟩ }).ctx 0 0).rel = some ⟨4, .sent false⟩ := by decide +kernel

theorem witness_routes : ({ State.reset with rtLoad := some 0 } : State).rtLoad = some 0 ∧ (7 : Nat) < 8 ∧
    (∀ p, p ∈ State.reset.remotes → ¬(p.2.kind = 0 ∧ p.2.core = 0 ∧ p.2.lf = 7)) ∧
    (∃ r, (asked 0 0 31 []).remotes = [(9, r)] ∧ (r.kind = 0 ∧ r.core = 0 ∧ r.lf = 7) ∧ bits r.op 60 4 ≠ 1 ∧ r.words ≤ 31) :=
  ⟨rfl, by decide, (fun _ h => nomatch h), _, rfl, ⟨rfl, rfl, rfl⟩, (by decide), Nat.le_refl _⟩

/-- O48: a request at the Granary; a prefetch; a glean at a ring that is closed, open, or at work. -/
def gleaning : Copy := { chainedCopy 0 with instr := .glean 0 0 0 0, stage := 1, mt := none, y := wd (255 * 2 ^ 8) }

def ringed (cfg : Nat) (g : Glean) : State :=
  { State.reset with copies := [(2, gleaning)], granaryQ := [], gleanQ := [2], prefetch := [4095], ringCfg := [(255, cfg)], gleans := [(255, g)] }

/-- The queue's head is an unstash or a drop of tag 0, slot 0; directory entry 0 holds e. -/
def requesting (i : Instr) (tracks : Tab Nat) (e : Nat) : State :=
  { State.reset.smPut 0x10000 32 e with granaryQ := [2], copies := [(2, { gleaning with instr := i, y := 0 })], gtracks := tracks }

theorem witness_granary : (requesting (.unstash 0 0 0 0 0) [] 0).granaryQ = 2 :: [] ∧
    (requesting (.unstash 0 0 0 0 0) [] 0).globalFree = true ∧
    (requesting (.unstash 0 0 0 0 0) [(0, 4)] 0).gtracks.any (fun p => p.2 == 2 * 2) = true ∧
    (requesting (.unstash 0 0 0 0 0) ((List.range 512).map fun n => (n, 1)) 0).gtracks.any (fun p => p.2 == 2 * 2) = false ∧
    (requesting (.unstash 0 0 0 0 0) ((List.range 512).map fun n => (n, 1)) 0).globalFree = false ∧
    (∀ q, q ∈ (requesting (.unstash 0 0 0 0 0) [] 0).copies → q.2.stage ≠ 0) ∧ copyMo (.unstash 0 0 0 0 0) = 7 ∧ copyMo (.sdrop 0 0) = 8 ∧
    (∀ e, e = 2 ^ 255 ∨ e = 2 ^ 255 + 4 * 2 ^ 242 → let s := requesting (.unstash 0 0 0 0 0) [] e;
      s.gfind (s.granStage { gleaning with y := 0 }).1 0 0 = some (0, e)) ∧ gState (2 ^ 255) ≠ 4 ∧ gState (2 ^ 255 + 4 * 2 ^ 242) = 4 ∧
    (let s := requesting (.unstash 0 0 0 0 0) [] 0; s.gfind (s.granStage { gleaning with y := 0 }).1 0 0 = none) := by
  and_intros
  all_goals try first | decide +kernel | rfl
  rintro e (rfl | rfl) <;> decide +kernel

theorem witness_granary_memory (i : Instr) (l : Tab Nat) (e : Nat) : MemoryCanonical (requesting i l e) ∧ schedulerSound (requesting i l e) :=
  have h : MemoryCanonical (State.reset.smPut 0x10000 32 e) := smPut_canonical rfl
  ⟨by simpa only [requesting, MemoryCanonical] using h, by simp only [requesting]; rfl, by simp only [requesting]; rfl⟩

/-- A prefetch of entry 4095, of no data or of one chunk, with no pool and with one of one chunk. -/
def prefetching (e : Nat) (pool : Tab (Nat × Nat)) : State :=
  { State.reset.smPut (0x10000 + 32 * 4095) 32 e with prefetch := [4095], gtracks := [(0, 2 * 4095 + 3)], pools := pool }

theorem witness_prefetch : (prefetching 0 []).feedPrefetch.gtracks.any (fun p => p.2 == 2 * 4095 + 3) = true ∧
    (State.feedPrefetch State.reset).gtracks.any (fun p => p.2 == 2 * 4095 + 3) = false ∧
    gState ((prefetching 0 []).feedPrefetch.gdir 4095) ≠ 5 ∧
    (let u := (prefetching (2 ^ 255 + 5 * 2 ^ 242 + 2 * 2 ^ 237 + 2 ^ 64) [(0, (0, 1))]).feedPrefetch;
     gState (u.gdir 4095) = 5 ∧ (u.pool 0).2 ≠ 0 ∧ firstFit (u.pool 0).2 (chunks (gStored (u.gdir 4095))) (u.runs 0) = some 0) := by
  decide +kernel

theorem witness_gleaner : (ringed 0 .idle).gleanQ = 2 :: [] ∧
    (ringed 0 .idle).copies.find? (fun p => p.1 == 2) = some (2, gleaning) ∧ gleaning.stage = 1 ∧ glRing gleaning.y.toNat = 255 ∧
    rgEn (tget 0 (ringed 0 .idle).ringCfg 255) = false ∧ rgEn (tget 0 (ringed (2 ^ 255) .idle).ringCfg 255) = true ∧
    ((ringed (2 ^ 255) .idle).glean 255).copy = 0 ∧ (ringed (2 ^ 255) .idle).globalFree = true ∧ (ringed 0 .idle).migQ = [] ∧
    (ringed 0 .idle).migWait = [] ∧
    (let s := ringed (2 ^ 255 + 4095 * 2 ^ 242) { Glean.idle with copy := 2, seen := [7] };
     rgEn (tget 0 s.ringCfg 255) = true ∧ (s.glean 255).copy = 2 ∧ (s.glean 255).seen.contains 8 = false ∧
       (s.glean 255).seen.contains 7 = true ∧ 4094 + 1 < rgMembers (tget 0 s.ringCfg 255)) ∧
    (let s := ringed 0 { Glean.idle with unacked := [(0, 0, 15, []), (1, 0, 16, [])] };
     (s.glean 255).unacked = [(0, 0, 15, []), (1, 0, 16, [])]) := by decide +kernel

/-- O49: graph 0 of one empty node, running as replay 1 on snapshot 0; stage 0 in its service. -/
def scheduling : State :=
  { (State.reset.smPut 0 64 (2 ^ 255 * 2 ^ 256 + 2 ^ 240 * 2 ^ 240)).smPut 0x400 64 (2 ^ 255 * 2 ^ 256 + 256 * (2 ^ 240 * 2 ^ 156)) with
    replay := some (Replay.new 0 1 0), replayNo := 1, aq := [(3, (0, 255))] }

theorem witness_arrivals : scheduling.postable 0 (arrival 1 3 15 1023) = true ∧ scheduling.held = [] ∧
    (let s : State := { scheduling with inbox := [⟨0, arrival 1 3 15 1023, none, false⟩] }; s.inbox = [⟨0, arrival 1 3 15 1023, none, false⟩]) ∧
    arSrc (arrival 1 3 15 1022) < arSrc (arrival 1 3 15 1023) ∧ State.reset.clk < 1 ∧ State.reset.replay = none ∧
    State.reset.postable 63 (arrival 1 2 15 1023) = false ∧ 256 ≤ stPass (scheduling.stageEntry 0) 3 ∧ (scheduling.arq 0 3).2 ≠ 0 ∧ stPass (State.reset.stageEntry 0) 3 < 256 := by
  decide +kernel

theorem witness_triggers : (15 : Nat) < 16 ∧ 2 ^ 36 - 1 < 2 ^ 36 ∧ 2 ^ 44 ≤ 2 ^ 44 ∧ 16 / 16 % 16 ≠ 0 ∧
    ((given scheduling [0]).trigger 0 none).1 = 1 ∧ scheduling.padPoison = [] ∧
    (let r := Replay.new 0 1 0; let s : State := { State.reset with triggers := [r, r] };
     2 ≤ s.triggers.length ∧ s.replay = none ∧ s.triggers = r :: [r]) := by decide +kernel

theorem witness_scheduler_memory :
    (let s : State := { State.reset with clusters := [(0, { Cluster.reset with zeroing := [(0, 4)] })] }; (s.cluster 0).zeroing = (0, 4) :: []) ∧
    scheduling.schedRefuses 0x400 = true ∧ State.reset.schedRefuses 0x2FFFF8 = false ∧ 0x2FFFF8 % 8 = 0 ∧ 0x2FFFF8 < 0x300000 ∧
    (State.reset.schedRefuses 0x7FFFF8 = false ∧ schedMask 0x7FFFF8 = 0 ∧ schedMask 0x400 = 0) ∧
    2 ^ 64 - 1 < 2 ^ 64 ∧ State.reset.clusterIdle 23 = true ∧ 16 % 32 ≤ 16 := by decide +kernel

/-- O50: the last granule of HBM and of memory; lines, granules, ports and heat. -/
def aged : State :=
  { State.reset with
    cellarLines := [0x10000 / 64], l2 := [(0x10000 / 128, [])], cxl := [(0, ⟨[⟨2 ^ 42, true, false⟩], false⟩)], heatCtl := wd (2 ^ 63), heat := [(7, 255)]
    invals := [(15, 0, true)] }

theorem witness_memories : isHbm (hbmTop - 1) = true ∧ State.reset.retired.contains ((hbmTop - 1) / 65536) = false ∧
    thas State.reset.l2 ((hbmTop - 1) / 128) = false ∧ ({ State.reset with retired := [(hbmTop - 1) / 65536] } : State).retired.contains ((hbmTop - 1) / 65536) = true ∧
    isPad (padBase 96 - 1) = true ∧ ((State.reset.core (padCore (padBase 96 - 1))).counterNew = []) ∧
    aged.cellarLines.contains (0x10000 / 64) = true ∧ tget 0 aged.versions (0x10000 / 65536) % 2 = 0 ∧ thas aged.l2 (0x10000 / 128) = true ∧
    (tget .absent aged.cxl 0).size ≠ 0 ∧ (tget .absent aged.cxl 0).down = false ∧ 65536 * (hbmTop / 65536 - 1) < hbmTop ∧
    aged.retired.contains (hbmTop / 65536 - 1) = false ∧ aged.retired.length < 16384 ∧ aged.cxlDown (hbmTop - 1) = false ∧
    (∀ l, l = 15 ∨ l = 128 + 15 → let s : State :=
        { aged with sproot := [(0, wd (2 ^ 63 + 0x10000))], mem := memWrite [] 0x10000 8 (3 * 2 ^ 44 + l) };
      s.walk 0 0 = some (3 * 2 ^ 44 + l, 3, 0x10000) ∧ isHbm (leafPa (3 * 2 ^ 44 + l) 3 0) = true ∧ bit (3 * 2 ^ 44 + l) 7 = decide (l ≠ 15)) ∧
    heatEn aged.heatCtl.toNat = true ∧ heatShift aged.heatCtl.toNat = 0 ∧ aged.decayAt ≤ aged.ns ∧ (aged.heat.map (·.1)).Nodup ∧
    aged.invals = (15, 0, true) :: [] ∧ aged.holdsTranslation true (fun a _ _ => a == 15) = false := by
  and_intros
  all_goals try decide +kernel
  rintro l (rfl | rfl) <;> decide +kernel

/-- A command at 0x1_0000 to move a page of 64 KiB from HBM 0x10_0000 to an expander; the leaf at 0x2_0000. -/
def migrating (moves : List Move) (leaf : Nat) : State :=
  { State.reset with
    cxl := [(0, ⟨[⟨2 ^ 42, true, false⟩], false⟩)], moves := moves
    mem := memWrite (memWrite [] 0x10000 16 (0x20000 + cxlBase 0 * 2 ^ 64)) 0x20000 8 leaf }

def oldLeaf : Nat := 0x100000 + 15

def pageMove : Move := ⟨0x10000, 0x20000, wd oldLeaf, cxlBase 0, 65536, false⟩

theorem witness_migration : (migrating [] oldLeaf).migQ.length < 256 ∧
    (migrating [] oldLeaf).globalFree = true ∧ (migrating [] oldLeaf).migWait = [] ∧ (migrating [] oldLeaf).migQ = [] ∧
    256 ≤ ({ migrating [pageMove] oldLeaf with migQ := List.replicate 256 (0, 0, 2) } : State).migQ.length ∧
    (migrating [pageMove] oldLeaf).moves ≠ [] ∧ (1 : Nat) < 2 ∧ keyHeld State.reset 0 0 16 = true := by decide +kernel

/-- Its completion, where the leaf still is as it was, and where it is not. -/
theorem witness_move_complete : ∀ leaf, leaf = oldLeaf ∨ leaf = 0 →
    let s := migrating [pageMove] leaf;
    s.moves = pageMove :: [] ∧ s.migQ.length ≤ 1 ∧ s.migWait = [] ∧ pageMove.switched = false ∧
      (migrating [{ pageMove with switched := true }] leaf).moves = { pageMove with switched := true } :: [] ∧
      (migrating [{ pageMove with switched := true }] leaf).holdsTranslation true (fun _ _ pa => decide (0x100000 ≤ pa ∧ pa < 0x100000 + pageMove.size)) = false ∧
      s.holdsTranslation true (fun _ _ pa => decide (0x100000 ≤ pa ∧ pa < 0x100000 + pageMove.size)) = false ∧
      s.holdsTranslation false (fun _ _ pa => decide (0x100000 ≤ pa ∧ pa < 0x100000 + pageMove.size)) = false ∧
      keyHeld s 0 (pageMove.cmd + 16) 4 = true ∧ keyHeld s 0 pageMove.leaf 8 = true ∧ isGlobal 0x100000 = true ∧
      isGlobal pageMove.dst = true ∧ keyHeld s 0 0x100000 pageMove.size = true ∧ keyHeld s 0 pageMove.dst pageMove.size = true ∧
      apart pageMove.dst pageMove.size pageMove.leaf 8 = true ∧ apart pageMove.dst pageMove.size (pageMove.cmd + 16) 4 = true ∧
      apart pageMove.leaf 8 (pageMove.cmd + 16) 4 = true := by
  rintro leaf (rfl | rfl) <;> decide +kernel

theorem witness_move_memory (m : List Move) (l : Nat) : MemoryCanonical (migrating m l) ∧
    ∀ a, (migrating m l).poisonedAt a 1 = false := by
  refine ⟨Laws.memWrite_wf _ _ _ (Laws.memWrite_wf _ _ _ rfl), fun a => ?_⟩
  have h0 : (tget Cxl.absent (migrating m l).cxl 0).down = false := rfl
  have h1 : (tget Cxl.absent (migrating m l).cxl 1).down = false := rfl
  simp [State.poisonedAt, State.cxlDown, h0, h1, show (migrating m l).padPoison = [] from rfl, show (migrating m l).poison = [] from rfl]

theorem witness_split : (3 : Nat) < 4 ∧ ((State.reset.cluster 23).crews.any fun p => p.2.live) = false ∧
    (State.reset.cluster 23).waiting = [] := by decide +kernel

/-- O51: port 11 in each of its states. -/
def ported (l : Link) : State := { State.reset with links := [(11, l)] }

theorem witness_links : ((ported { Link.down with st := 2, resends := 8 }).link 11).st = 2 ∧
    8 ≤ ((ported { Link.down with st := 2, resends := 8 }).link 11).resends ∧ ((ported .down).link 11).st = 0 ∧
    ((ported .down).link 11).flits = [] ∧
    (let l := (ported { Link.down with st := 2, flits := [(Packet.blank, 2), (Packet.blank, 1)] }).link 11;
     l.st = 2 ∧ 2 ≤ l.flits.length ∧ (∀ f, f ∈ l.flits → 0 < f.2) ∧ 0 < l.unacked) ∧
    (let l := (ported { Link.down with st := 1, mine := some (1, 2, 3), theirs := some (1 + 2 * 2 ^ 8 + 3 * 2 ^ 16) }).link 11;
     l.st = 1 ∧ l.mine = some (1, 2, 3) ∧ l.theirs = some (1 + 2 * 2 ^ 8 + 3 * 2 ^ 16)) ∧
    (∀ u, u = 1 + 2 * 2 ^ 8 + 2 * 2 ^ 16 ∨ u = 1 + 2 * 2 ^ 8 + 3 * 2 ^ 16 + 2 ^ 31 →
      let l := (ported { Link.down with st := 1, mine := some (1, 2, 3), theirs := some u }).link 11;
      l.mine = some (1, 2, 3) ∧ l.theirs = some u ∧ 1 + 2 * 2 ^ 8 + 3 * 2 ^ 16 ≠ u ∧ l.flits = []) ∧ crc32c (toBytes 4 0) ≠ 0 ∧
    (∀ f, f = 2 ∨ f = 3 → ((ported { Link.down with st := 3, fails := f }).link 11).fails = f ∧
      ((ported { Link.down with st := 3, fails := f }).link 11).retryAt ≤ State.reset.ns) ∧
    ((ported { Link.down with st := 4 }).link 11).st = 4 ∧ tget false State.reset.eth 1 ≠ ((1 : Nat) == 1) := by
  and_intros
  all_goals try decide +kernel
  · rintro u (rfl | rfl) <;> decide +kernel
  · rintro f (rfl | rfl) <;> decide +kernel

/-- O52: power, bring-up, clock and heat at the ends of their ranges; an empty seal of generation 1 that rpt3 names. -/
def sealed : State :=
  { State.reset with
    rpt := [(3, 2 ^ 127 + 0x10000 * 2 ^ 64 + 2 ^ 32)], mem := memWrite [] (0x10000 + 56) 8 (0x5EA1 * 2 ^ 48 + 1) }

theorem witness_device : State.reset.powered = true ∧ 4 ≤ State.reset.stage ∧ State.reset.newestPoint = none ∧
    sealed.newestPoint = some 3 ∧ 16 / 16 % 16 ≠ 0 ∧ (3 : Nat) < 4 ∧ 95 / 24 = 3 ∧ 2 ^ 64 - 1 < 2 ^ 64 ∧ 2 ^ 56 - 1 < 2 ^ 56 ∧
    ({ State.reset with powered := false } : State).powered = false ∧ State.reset.victims 3 = [] ∧ State.reset.l2 = [] ∧
    (∀ k, k = 1 ∨ k = 2 → ({ State.reset with stage := k } : State).stage = k) ∧
    (∀ k, k = 0 ∨ k = 7 → ({ State.reset with stage := 3, hbmTrained := k } : State).stage = 3 ∧
      k = ({ State.reset with stage := 3, hbmTrained := k } : State).hbmTrained) ∧
    ({ State.reset with stage := 4 } : State).stage = 4 ∧ 105 < 106 ∧ State.reset.powerCap < 2401 ∧ State.reset.throttle < 8 ∧ 800 < State.reset.mhz ∧
    (let s : State := { State.reset with throttle := 1, stage := 5 };
     20 * 99 ≤ 19 * 105 ∧ 20 * 2280 ≤ 19 * s.powerCap ∧ 0 < s.throttle ∧ s.stage = 5 ∧ s.stepAt ≤ s.ns) ∧ 115 < 116 ∧ 94 < 95 ∧
    ({ State.reset with dieHeld := [0, 1, 2, 3] } : State).dieHeld ≠ [] := by
  refine ⟨by decide +kernel, by decide +kernel, by decide +kernel, by decide +kernel, by decide, by decide, by decide, by decide, by decide, rfl,
    by decide +kernel, rfl, fun _ _ => rfl, ?_, ?_⟩
  · rintro k (rfl | rfl) <;> exact ⟨rfl, rfl⟩
  · decide +kernel

/-- Its seal read with graph 0 in scheduler memory and a replay that lost its die; without the graph. -/
def resealed (graph : Bool) : State :=
  let s := if graph then scheduling else State.reset;
  { s with
    rpt := sealed.rpt, mem := memWrite s.mem (0x10000 + 56) 8 (0x5EA1 * 2 ^ 48 + 1)
    replay := some { Replay.new 0 1 0 with cut := true } }

theorem witness_replay_from_seal : ({ State.reset with stage := 3 } : State).stage < 4 ∧ 4 ≤ sealed.stage ∧
    sealed.newestPoint = some 3 ∧ tget 0 sealed.rpt 3 % 2 ^ 32 = 0 ∧ (1 : Nat) ≠ 0 ∧ (sealed.replay.filter (·.cut)) = none ∧
    (0 < 2 ^ 44 ∧ 0 / 16 % 16 = 0) ∧ (16 / 16 % 16 ≠ 0) ∧
    (∀ b, b = true ∨ b = false → (resealed b).newestPoint = some 3 ∧ 4 ≤ (resealed b).stage ∧
      (resealed b).replay = some { Replay.new 0 1 0 with cut := true } ∧
      (let s1 : State := { given (resealed b) [0, 0] with recovery := some (3, 0) };
       ((s1.abandon { Replay.new 0 1 0 with cut := true }).newReplay 0 ((s1.abandon { Replay.new 0 1 0 with cut := true }).patchList 0)).isSome = b)) ∧
    (1 : Nat) < 2 := by
  and_intros
  all_goals decide +kernel

/-- O53: no command in the mailbox (whether one that is there is a key load, or good, is a free value); an image too old to boot; a
vector in each state; the aperture's last byte, reached or not; bounds of the power cap. -/
theorem witness_host : State.reset.mailAsked = false ∧
    bit ({ State.reset with msixPending := 2 ^ 7 } : State).msixPending 7 = true ∧ bit State.reset.msixPending 7 = false ∧
    bit (tget msixMasked State.reset.msixTable 7) 96 = true ∧
    bit (tget msixMasked ({ State.reset with msixTable := [(7, 0)] } : State).msixTable 7) 96 = false ∧ 2 ^ 36 - 1 + 1 ≤ 2 ^ 36 ∧
    State.reset.hostReaches (State.reset.apBase.toNat + (2 ^ 36 - 1)) 1 = true ∧
    ({ State.reset with apBase := wd (cxlBase 1) } : State).hostReaches ((wd (cxlBase 1)).toNat + 0) 1 = false ∧
    keyHeld State.reset 0 (State.reset.apBase.toNat + (2 ^ 36 - 1)) 1 = true ∧ (5 : Nat) < 6 ∧ State.reset.intStat < 64 ∧
    State.reset.intAgain = 0 ∧ (15 : Nat) < 16 ∧ 600 ≤ 600 % 2 ^ 12 ∧ 600 % 2 ^ 12 ≤ 2400 ∧ 600 ≤ 2400 % 2 ^ 12 ∧ 2400 % 2 ^ 12 ≤ 2400 := by
  decide +kernel

theorem witness_image (s : State) (i : List Nat) : ({ s with fwRollback := 1 } : State).imageGood 0 i = false := by
  simp [State.imageGood]

/-- O56: both sides of the choice. -/
theorem witness_power : (let s : State := { State.reset with powered := false }; s.powered = false ∧ s.agenda = []) ∧
    ¬(State.reset.powered = false ∧ State.reset.agenda = []) := by decide +kernel

/-- O57: a state that takes a step. -/
theorem witness_step : MemoryCanonical probed ∧ after (step probed) (fun _ => true) = true :=
  ⟨Laws.memWrite_wf _ _ _ rfl, by decide +kernel⟩

/-- O59: a word of each end of a map. -/
theorem witness_encoding : (Instr.loop 31 0x1FFFF).wf = true ∧ encode (.loop 31 0x1FFFF) = some (.x, 0x103FFFFF) ∧
    decodeSlot .x 0 = some .nopX := by decide +kernel

/-! ### Hypotheses that something meets: values -/

/-- O8, O13: finite operands of each width, of one sign and of both, a sum that is an exact zero; the last random number; a format at
each end of the list; values in order, and neither below the other. -/
theorem witness_finite : f32.decode 0xBFC00000 = .fin true 12582912 (-23) ∧ f32.decode 0x3FC00000 = .fin false 12582912 (-23) ∧
    f64.decode 0 = .fin false 0 (-1074) ∧ f64.decode (2 ^ 63) = .fin true 0 (-1074) ∧
    valueOf (.fin true 12582912 (-23)) + valueOf (.fin false 12582912 (-23)) = 0 ∧
    valueOf (.fin true 12582912 (-23)) + valueOf (.fin true 12582912 (-23)) < 0 ∧
    0 < valueOf (.fin false 12582912 (-23)) + valueOf (.fin false 12582912 (-23)) ∧
    65535 < 2 ^ 16 ∧ f64 ∈ [f64, f32, f16, bf16, e5m2, e4m3] ∧ e4m3 ∈ [f64, f32, f16, bf16, e5m2, e4m3] ∧ f64 ≠ e4m3 ∧
    below (.fin true 1 0) (.fin false 1 0) ∧ ¬below (.fin false 1 0) (.fin true 1 0) ∧ below (.fin false 1 0) (.inf false) := by
  refine ⟨by decide +kernel, by decide +kernel, by decide +kernel, by decide +kernel, ?_⟩
  norm_num [valueOf, below]
  decide

/-- O16: an element of each sort on its way to an integer and to another float: the widest integer, both ends of the types. -/
theorem witness_conversions : 2 ^ 64 - 1 < 2 ^ vtyWidth 13 ∧ (6 ≤ 13 ∧ 5 ≤ 5 ∧ (13 : Nat) ≠ 5) ∧ 65535 < 2 ^ 16 ∧
    ((vtyFmt 2).getD f32).decode 0x7FC0 = .nan false ∧ ((vtyFmt 2).getD f32).decode 0xFF80 = .inf true ∧
    ((vtyFmt 2).getD f32).decode 0xFF7F = .fin true 255 120 ∧ bf16.decode 0x3F80 = .fin false 128 (-7) ∧
    0xFF80 < 2 ^ vtyWidth 2 ∧ 0x3F80 < 2 ^ 16 := by decide +kernel

/-- O16: blocks whose elements are a NaN, zeros, one size, two sizes far apart, and one that rounds up past the last exponent. -/
theorem witness_blocks : (∀ p : Nat × Nat, p ∈ [(0x7FC00000, 0), (0, 65535)] → p.1 < 2 ^ 32 ∧ p.2 < 2 ^ 16) ∧
    2 ^ 31 - 2 ^ 23 < 0x7FC00000 % 2 ^ 31 ∧ valueOf (f32.decode 0) = 0 ∧ valueOf (f32.decode 0x3F800000) = 1 ∧
    ¬(2 ^ 31 - 2 ^ 23 < 0x3F800000 % 2 ^ 31 ∨ 0x3F800000 % 2 ^ 31 = 2 ^ 31 - 2 ^ 23) ∧
    (teOfF32 2 ⟨0, false⟩ [(0x3F800000, 0), (0x35800000, 0)]).e0 < (teOfF32 2 ⟨0, false⟩ [(0x3F800000, 0), (0x35800000, 0)]).e1 ∧
    (teOfF32 24 ⟨0, true⟩ [(0x3F800000, 0)]).e0 = (teOfF32 24 ⟨0, true⟩ [(0x3F800000, 0)]).e1 ∧
    (teOfF32 2 ⟨0, true⟩ [(0x7F7FFFFF, 0)]).e1 = 254 ∧ (teOfF32 2 ⟨0, false⟩ [(0x7F7FFFFF, 0)]).e1 = 255 ∧
    (teOfF32 2 ⟨0, true⟩ [(0x7F800000, 0)]).e1 = 254 ∧ ((255 : Nat) = 255 ∧ (254 : Nat) ≠ 255) := by
  have h0 : f32.decode 0 = .fin false 0 (-149) := by decide +kernel
  have h1 : f32.decode 0x3F800000 = .fin false 8388608 (-23) := by decide +kernel
  refine ⟨by decide, by decide, by simp [h0, valueOf], ?_, by decide, by decide +kernel, by decide +kernel, by decide +kernel,
    by decide +kernel, by decide +kernel, by decide⟩
  rw [h1]
  norm_num [valueOf]

/-- A strand whose fmt.VTY is t and whose v1 holds a NaN, an infinity and finite values of 16 bits. -/
def wideOf (t : Nat) (m : List Word) : State :=
  device strand { bankOf [] with fmt := wd (t * 2 ^ 7), mask := m, v := [(1, BitVec.ofNat 2048 0x3F80FF807FC0)] }

/-- O18: elements of each sort that the mask enables and that it does not, of a narrow float, a wide one and an integer; a list to fold
at both ends. -/
theorem witness_reductions : (wideOf 2 []).vty = 2 ∧ (wideOf 0 []).vty = 0 ∧ 6 ≤ (wideOf 6 []).vty ∧
    elemOn (wideOf 2 []).vw (wideOf 2 []).top 0 = true ∧ elemOn (wideOf 2 [0]).vw (wideOf 2 [0]).top 0 = false ∧
    (wideOf 2 []).vf.decode (src (wideOf 2 []) 16 1 0) = .nan false ∧ (wideOf 2 []).vf.decode (src (wideOf 2 []) 16 1 1) = .inf true ∧
    (wideOf 2 []).vf.decode (src (wideOf 2 []) 16 1 2) = .fin false 128 (-7) ∧ (127 < 2048 / (wideOf 2 []).vw ∧ 2 ≤ 2) ∧
    (1 ≤ 128 ∧ (List.replicate 256 5).length = 2 * 128) ∧ 2 ^ 32 - 1 < 2 ^ (wideOf 6 []).vw ∧ 255 < (List.replicate 256 5).length := by
  decide +kernel

/-- Four planes of 32 elements at the allotment's start, and what a command of size z does with them. -/
def converting (i : Instr) (src dst z : Nat) : Xform := ⟨5, 0, 0, i, padBase 0 + dst, padBase 0 + src, wd z, 0, 0, 0, 0, 7⟩
def teSize : Nat := 2 * 2 ^ 32 + 128 * 2 ^ 16 + 32

/-- O10: a command of each kind at the ends of the tables of its types, with its ranges apart; a block in each plane. -/
theorem witness_transforms_run :
    (∀ f, f = 0 ∨ f = 3 ∨ f = 4 ∨ f = 8 → (converting (.xformSplit 1 2 3 f) 0x8000 0 teSize).instr = .xformSplit 1 2 3 f ∧ f ≤ 8 ∧
      apart (padBase 0 + 0x8000) (xfRowsBytes f teSize) (padBase 0) (xfTeBytes teSize) = true) ∧
    (∀ f, f = 0 ∨ f = 1 ∨ f = 9 → (converting (.xformMerge 1 2 3 f) 0 0x8000 teSize).instr = .xformMerge 1 2 3 f ∧
      apart (padBase 0) (xfTeBytes teSize) (padBase 0 + 0x8000) (xfRowsBytes f teSize) = true) ∧
    (szK teSize % 32 = 0 ∧ szQ teSize % 128 = 0 ∧ 127 < szQ teSize ∧ 0 < szK teSize / 32 ∧ szM teSize + 1 < szM teSize + 2) ∧
    ((9 : Nat) < 4 ∨ (9 : Nat) = 9) ∧ ((3 : Nat) < 4 ∨ (3 : Nat) = 9) ∧
    apart (padBase 0) (5 * (xfBits 9 / 8)) (padBase 0 + 0x8000) (5 * (xfBits 3 / 8)) = true ∧
    apart (padBase 0) (4096 * 1) (padBase 0 + 0x8000) (4160 * 1) = true ∧ (padBase 0 + 0x8000) % 64 = 0 ∧ padBase 0 % 4 = 0 ∧
    padBase 0 + 0x8000 + 4160 * 1 ≤ padBase 96 ∧ padBase 0 + 4096 * 1 ≤ padBase 96 ∧ (4 < 5 ∧ 0 < 1) ∧ MemoryCanonical regs0 := by
  refine ⟨?_, ?_, by decide +kernel, by decide, by decide, by decide +kernel, by decide +kernel, by decide, by decide, by decide +kernel,
    by decide +kernel, by decide, rfl⟩
  · rintro f (rfl | rfl | rfl | rfl) <;> decide +kernel
  · rintro f (rfl | rfl | rfl) <;> decide +kernel

/-- The states of the CRC after each 64 bytes of zeros. -/
def crcStates : List Nat :=
  [0xffffffff, 0xfc371498, 0xf7d89b24, 0x8bca87cf, 0x478d4e6f, 0x3d5a233, 0x4509d0c9, 0xcc289dc7, 0xcf03123f, 0x39b9ac6b,
    0x1fd80331, 0x7793e80c, 0xc5c4c2f9, 0xfc7deb93, 0xd77c4c0, 0xc011635a, 0x11512183, 0x96321f3c, 0xa8448891, 0x5717cf61,
    0x72802fed, 0x8b77850d, 0x6b47581e, 0xb9f00015, 0xa6fd2d2, 0xdd58b5aa, 0xfbd7265a, 0xac5b13c6, 0x5bcb999c, 0x782f93a7,
    0x50e61ffc, 0x7ddd2266, 0x5b767cb0, 0x58238b, 0x22b79a12, 0x7dd69ea, 0x13ca39cb, 0x441defd3, 0xe41fc7cf, 0xfacda96e,
    0x4df00a81, 0xeb5782d0, 0x278b2fa4, 0xcdcf02ca, 0x24571252, 0x25d8d536, 0xd84843ae, 0x3441f00b, 0xdf52be5c, 0xdf1acd0e,
    0xf18f24b4, 0x75ad7b36, 0xa82160e, 0x559746ee, 0x17ab347e, 0xeaa5b713, 0xf76f41ea, 0x74cb944e, 0x81bd34d5, 0xfbee9c85,
    0x142ac051, 0xb705e478, 0x54af813b, 0xa35d99a2, 0x6706be76]

theorem crc_zeros_state (n : Nat) (h : n ≤ 64) : (List.replicate (64 * n) 0).foldl crcByte 0xFFFFFFFF = crcStates.getD n 0 := by
  induction n with
  | zero => rfl
  | succ n ih =>
    have step : ∀ i, i < 64 → (List.replicate 64 0).foldl crcByte (crcStates.getD i 0) = crcStates.getD (i + 1) 0 := by
      decide +kernel
    rw [Nat.mul_succ, ← List.replicate_append_replicate, List.foldl_append, ih (by omega), step n (by omega)]

theorem crc_of_state {l : List Nat} {x : Nat} (h : l.foldl crcByte 0xFFFFFFFF = x) : crc32c l = x ^^^ 0xFFFFFFFF := by rw [crc32c, h]

/-- The published CRC-32C of 4 KiB of zeros. -/
theorem crc_zeros : crc32c (List.replicate (64 * 64) 0) = 0x98F94189 :=
  (crc_of_state ((crc_zeros_state 64 (Nat.le_refl 64)).trans (by decide : crcStates.getD 64 0 = 0x6706be76))).trans
    (by decide : 0x6706be76 ^^^ 0xFFFFFFFF = 0x98F94189)

theorem zero_blocks (n : Nat) : ((List.range n).flatMap fun _ => List.replicate 64 0) = List.replicate (64 * n) 0 := by
  induction n with
  | zero => rfl
  | succ n ih => rw [List.range_succ, List.flatMap_append, ih, Nat.mul_succ, ← List.replicate_append_replicate]; simp

theorem memList_append (m : List Host.Cell) (a k n : Nat) : memList m a (k + n) = memList m a k ++ memList m (a + k) n := by
  induction k generalizing a with
  | zero => simp [memList]
  | succ k ih => rw [Nat.succ_add, memList, ih, memList]; simp [Nat.add_assoc, Nat.add_comm 1 k]

theorem memGet_past {m : List Host.Cell} {a : Nat} (h : m.all (fun c => decide (c.1 < a)) = true) : memGet m a = 0 := by
  induction m with
  | nil => rfl
  | cons c m ih =>
    simp only [List.all_cons, Bool.and_eq_true, decide_eq_true_eq] at h
    rw [memGet, if_neg (by omega), if_neg (by omega), ih h.2]

theorem memList_past {m : List Host.Cell} {a : Nat} (n : Nat) (h : m.all (fun c => decide (c.1 < a)) = true) :
    memList m a n = List.replicate n 0 := by
  induction n generalizing a with
  | zero => rfl
  | succ n ih =>
    have h' : m.all (fun c => decide (c.1 < a + 1)) = true := by
      simp only [List.all_eq_true, decide_eq_true_eq] at h ⊢
      exact fun c hc => Nat.lt_succ_of_lt (h c hc)
    rw [memList, memGet_past h, ih h', List.replicate_succ]; rfl

/-- A slot of bunpack that holds a bale of zeros, and a scratchpad with one. -/
def zeroBale : List Nat := toBytes 8 0 ++ toBytes 4 0x98F94189 ++ 1 :: List.replicate (51 + 4096) 0
def holdsBale : State := { regs0 with mem := memWrite [] (padBase 0 + 8) 5 (0x98F94189 + 2 ^ 32) }

theorem holdsBale_slot : memList holdsBale.mem (padBase 0) 4160 = zeroBale := by
  rw [show 4160 = 13 + (51 + 4096) by norm_num, memList_append,
    memList_past (a := padBase 0 + 13) _ (by decide +kernel), show memList holdsBale.mem (padBase 0) 13 = toBytes 8 0 ++ toBytes 4 0x98F94189 ++ [1] by decide +kernel]
  simp only [zeroBale, List.append_assoc, List.cons_append, List.nil_append]

theorem bale_zeros : baleDecode zeroBale = some (List.replicate (64 * 64) 0) := by
  have hm : ofBytes (zeroBale.take 8) = 0 := by decide +kernel
  have hc : zeroBale.getD 12 0 = 1 ∧ ((zeroBale.drop 13).take 51).all (· == 0) ∧ ofBytes ((zeroBale.drop 8).take 4) = 0x98F94189 := by
    decide +kernel
  unfold baleDecode
  simp only [hm, show ∀ i, bit 0 i = false by simp [bit], if_neg (by decide : ¬false = true), zero_blocks]
  rw [crc_zeros, if_pos hc]

theorem bale_of_nothing (l : List Nat) (h : l.getD 12 0 ≠ 1) : baleDecode l = none := by
  unfold baleDecode
  rw [if_neg (fun c => h c.1)]

/-- O10: a slot that holds a bale, one that holds none; a block with words at both its ends; elements of MX blocks at their last scales. -/
theorem witness_bales : (baleDecode (memList holdsBale.mem (padBase 0) 4160)).isSome = true ∧
    holdsBale.poisonedAt (padBase 0) (baleSize (at_ holdsBale (padBase 0) 8)) = false ∧ MemoryCanonical holdsBale ∧
    baleDecode (memList regs0.mem (padBase 0) 4160) = none ∧
    (let s : State := { regs0 with padPoison := [padBase 0 / 4] }; s.poisonedAt (padBase 0) (baleSize 0) = true) ∧
    ((1 :: List.replicate 4094 0 ++ [255]).length = 4096 ∧ ∀ b, b ∈ 1 :: List.replicate 4094 0 ++ [255] → b < 256) ∧
    ((1 :: List.replicate 4094 0 ++ [255]).getD (64 * 0 + 0) 0 ≠ 0 ∧ (1 :: List.replicate 4094 0 ++ [255]).getD (64 * 63 + 63) 0 ≠ 0) ∧
    (∀ p : Nat × Nat, p ∈ [(15, 0), (0, 65535)] → p.1 < 2 ^ MxKind.e2m1.width) ∧ (∀ p : Nat × Nat, p ∈ [(63, 0)] → p.1 < 2 ^ MxKind.e2m3.width) ∧
    ((252 : Nat) ≤ 252 ∧ (251 : Nat) ≤ 251) := by
  refine ⟨by rw [holdsBale_slot, bale_zeros]; rfl, by decide +kernel, Laws.memWrite_wf _ _ _ rfl,
    bale_of_nothing _ (by decide +kernel), by decide +kernel, ⟨by decide +kernel, ?_⟩, ?_, by decide,
    by decide, by decide⟩
  · simp only [List.cons_append, List.mem_cons, List.mem_append, List.mem_replicate, List.not_mem_nil, or_false]
    rintro b (rfl | ⟨-, rfl⟩ | rfl) <;> decide
  · exact ⟨by decide +kernel, by decide +kernel⟩

/-- O24, O30: no loop's count in flight in any register; a loop in the last one and in s0, which keeps none. -/
theorem witness_loops : (∀ l, l ∈ regs0.me.land → l.loop = true → l.dest ≠ .s 31) ∧
    (∀ a, a = 0 ∨ a = 31 → let s := holding regs0 [.loopCount a 7, .transfer 0x20000 true];
      readyToCommit s = true ∧ hdrPop s.header = 0 ∧ s.bun.effs = [.loopCount a 7, .transfer 0x20000 true] ∧
      (issuer s s).land = [] ∧ (issuer s s).phase.opened = false ∧ (issuer s s).bank.isSome = true) := by
  refine ⟨by decide +kernel, ?_⟩
  rintro a (rfl | rfl) <;> exact ⟨(committing_holding ..).1, by decide +kernel⟩

/-- O22: windows that a mirage shows, in whole granules. -/
theorem witness_mirages : mirrored.mirages mirrored.me.space ≠ [] ∧
    ∀ m, m ∈ mirrored.mirages mirrored.me.space → m.1 % 64 = 0 ∧ m.2.1 % 64 = 0 ∧ m.2.2 % 64 = 0 := by decide +kernel

/-- A matrix word with its geometry and fmt. -/
def word (i : Instr) (g0 g1 g2 g3 h1 h3 f : Nat) : MtWord :=
  { regs0.mtCapture i with g0 := wd g0, g1 := wd g1, g2 := wd g2, g3 := wd g3, h1 := wd h1, h3 := wd h3, fmt := wd f }

/-- 64 columns of A, 128 rows into accumulator 3; MA and MB 24; a latent stage of 32 by 32 with planes of class 8 in slot 7. -/
def shape : Nat := 64 + 128 * 2 ^ 16 + 3 * 2 ^ 42
def planes : Nat := 24 * 2 ^ 17 + 24 * 2 ^ 11
def latent : Nat := 8 * 2 ^ 32 + 7 * 2 ^ 29 + 32 * 2 ^ 18 + 32 * 2 ^ 10

/-- O45: products whole and triangular, of blocks and of elements, their last rows. -/
theorem witness_products :
    (let w := word (.tmm 0 0 0) 0 0 shape 0 0 0 planes;
     1 ≤ mtOp w.instr ∧ mtOp w.instr ≤ 4 ∧ (127, 0, 128) ∈ w.regionOf (1 / (w.k / 32)) ∧ opEf w.g0 = 0 ∧ w.tri = none ∧ 0 ≤ 127 ∧ 127 < 0 + 128) ∧
    (let w := word (.tmm 0 0 0) (2 ^ 62) (2 ^ 62) shape 0 0 0 (2 ^ 24);
     (127, 0, 128) ∈ w.regionOf 0 ∧ opEf w.g0 = 1 ∧ fmtAcf w.fm = true ∧ shAccum w.g2 = false) ∧
    (let w := word (.tmmt 0 0 0) 0 0 shape 0 0 0 planes;
     mtOp w.instr = 2 ∧ (127, 96, 32) ∈ w.regionOf 0 ∧ w.tri = some 0 ∧ (31, 32, 32) ∉ w.regionOf 0 ∧ (127 < w.m ∧ 127 < 128) ∧
       0 < trShift 0 + (127 : Int) - (0 : Int) ∧ ¬0 < trShift 0 + (0 : Int) - (127 : Int)) ∧
    (let w := word (.tlx 0 0 0) 0 0 shape latent 0 0 planes; mtOp w.instr = 3 ∧ mtSteps w ≠ 0 ∧ mtX w.instr = false) ∧
    (let w := word (.tlxT 0 0 0) 0 0 shape latent 0 0 planes; mtOp w.instr = 3 ∧ mtSteps w ≠ 0 ∧ mtX w.instr = false ∧ w.tri = some 0) := by
  decide +kernel

/-- O45: expanded keys that are written, to exponent words of their own and to shared ones. -/
theorem witness_expanded :
    (∀ e, e = 0x8000 ∨ e = 0x8002 → let w := word (.tlxX 0 0 0) 0 0 shape latent (24 * 2 ^ 56 + e * 2 ^ 24) 0 planes;
      let out := regs0.teSrc w w.h1 0 (laDh w.g3) (fmtMb w.fm);
      mtX w.instr = true ∧ mtOp w.instr = 3 ∧ mtSteps w ≠ 0 ∧ opCls w.h1 = fmtMb w.fm ∧ 0 < laDh w.g3 / 32 ∧
        apart out.pb (128 * (laDh w.g3 / 32) * (fmtMb w.fm + 2) * 4) out.eb (128 * (laDh w.g3 / 32) * 2) = true ∧
        (out.eb % 4 = 0 ↔ e = 0x8000)) ∧ MemoryCanonical regs0 ∧ (127 : Nat) < 128 := by
  refine ⟨?_, rfl, by decide⟩
  rintro e (rfl | rfl) <;> decide +kernel

/-- O45: the latent stage's own words: tproj's first and last step, its output apart, and tlpl's first and last block. -/
theorem witness_latent :
    (let w := word (.tproj 0 0 0) 0 (24 * 2 ^ 56 + 0x8000 * 2 ^ 24) shape latent 0 0 planes;
     let out := regs0.teSrc w w.g1 0 (laDc w.g3) (fmtMa w.fm);
     mtOp w.instr = 5 ∧ 0 < laDh w.g3 / 32 ∧ 0 < ceilDiv (laDc w.g3) 128 ∧ 128 * 0 + 31 < laDc w.g3 ∧ opCls w.g1 = fmtMa w.fm ∧
       laDc w.g3 % 32 = 0 ∧ w.m % 128 = 0 ∧ 127 < w.m ∧ 0 < laDc w.g3 / 32 ∧
       apart out.pb (w.m * (laDc w.g3 / 32) * (fmtMa w.fm + 2) * 4) out.eb (w.m * (laDc w.g3 / 32) * 2) = true) ∧
    (let w := word (.tlplEa 0 0 0) 0 0 0 latent 0 0 0;
     mtOp w.instr = 6 ∧ laDc w.g3 % 32 = 0 ∧ laDh w.g3 % 32 = 0 ∧ (laMw w.g3 + 2) * 4 + 2 ≤ 256 ∧ mtLoadsE w.instr = true ∧
       mtLoadsA w.instr = true ∧ 31 < laDh w.g3 ∧ 31 < laDc w.g3 ∧ 0 < laDc w.g3 / 32 ∧ 0 < laDh w.g3 / 32 ∧
       (0 * (laDc w.g3 / 32) + 0) * ((laMw w.g3 + 2) * 4 + 2) / 256 = 0 ∧
       (32 * (laDc w.g3 / 32) + 31 * (laDh w.g3 / 32) + 0) * ((laMw w.g3 + 2) * 4 + 2) / 256 = 10 ∧ laSlot w.g3 = 7 ∧ 0 / 2 ≠ 7 ∧ (0 : Nat) ≠ 7) ∧
    ((⟨0, 0, 0, 0, 8, []⟩ : TeSrc).p = 8 ∧ padBase 0 ≤ padBase 0 + 1 ∧ (regs0.core 0).seqr.seen = []) := by
  decide +kernel

/-- O45: rows of each type that tldacc reads and tstacc writes: the last row, pairs, values of each sort; aligned and not. -/
theorem witness_rows :
    (∀ f, f ≤ 3 → let w := word (.tldacc f 0 0 2) 0 0 0 0 0 0 0; mtOp w.instr = 8 ∧ mtSub w.instr = f ∧ mtAcc w.instr % 2 = 0 ∧
      (mtPair w.instr = true ↔ f = 3)) ∧
    bf16.decode 0x7FC0 = .nan false ∧ f16.decode 0xFC00 = .inf true ∧ bf16.decode 0x3F80 = .fin false 128 (-7) ∧
    (∀ f, f ≤ 6 → let w := word (.tstacc f 0 12 2) 0 0 0 0 0 0 0; mtOp w.instr = 9 ∧ mtSub w.instr = f ∧ mtAcc w.instr % 2 = 0 ∧
      w.x.toNat % 4 = 0 ∧ w.y.toNat % 4 = 0) ∧
    (let w := word (.tstacc 3 7 12 2) 0 0 0 0 0 0 0; ¬(w.x.toNat % 4 = 0 ∧ w.y.toNat % 4 = 0) ∧ 128 * mtWidth w.instr ≤ w.y.toNat) ∧
    f64.decode (2 ^ 52 * 2047 + 1) = .nan false ∧ f64.decode (2 ^ 52 * 4095) = .inf true ∧ f32.decode 0x3F800000 = .fin false 8388608 (-23) ∧
    ((127 : Nat) < 128 ∧ MemoryCanonical regs0) := by
  and_intros
  all_goals first | decide +kernel | rfl

/-- O45: a tstacc.g whose pages are captured, each element at a place of its own. -/
def paged : MtWord := { word (.tstaccG 0 6 12 0) 0 0 0 0 0 0 0 with rows := [(2, 0x20000, 0)] }

theorem witness_rows_global : paged.instr = .tstaccG 0 6 12 0 ∧ regs0.mirages (regs0.ctx 0 paged.ctx).space = [] ∧
    (∀ j, j < 128 → paged.placeOf (paged.x.toNat + 127 * paged.y.toNat + j * 4) = some (0x20000 + 127 * 512 + j * 4, 0) ∧ 0 < 256 ∧
      keyHeld regs0 0 (0x20000 + 127 * 512 + j * 4) 4 = true) ∧
    ∀ i j, i < 128 → j < 128 → i ≠ j → apart (0x20000 + 127 * 512 + i * 4) 4 (0x20000 + 127 * 512 + j * 4) 4 = true := by
  refine ⟨rfl, by decide +kernel, by decide +kernel, fun i j _ _ h => ?_⟩
  simp only [apart, decide_eq_true_eq]
  omega

/-- O45: words over the last accumulator and over a pair; blocks with and without an element of exponent 255; accumulators of each
sort; a word done in its last cycle. -/
theorem witness_scales :
    mtOp (word (.tscale 3 3 15) 0 0 0 0 0 0 (2 ^ 24)).instr = 10 ∧ mtOp (word (.tzero 8) 0 0 0 0 0 0 0).instr = 7 ∧
    hasNan ⟨255, 0, [⟨false, true, 0⟩]⟩ ∧ ¬hasNan ⟨255, 0, [⟨false, false, 0⟩]⟩ ∧
    f32.decode 0x7FC00000 = .nan false ∧ f32.decode 0x7F800000 = .inf false ∧ f32.decode 0 = .fin false 0 (-149) ∧
    (∀ i, i = Instr.tmm 0 0 0 ∨ i = Instr.tlx 0 0 0 → let w := word i 0 0 shape latent 0 0 planes;
      let s := { sequenced { Sequencer.idle with run := some w, step := mtSteps w } with clk := mtCycles w };
      (s.core 0).seqr.frozen = false ∧ (s.core 0).seqr.run = some w ∧ mtSteps w ≤ (s.core 0).seqr.step ∧
        (s.core 0).seqr.start + mtCycles w ≤ s.clk ∧ (mtOp w.instr = 3 → mtSteps w ≠ 0)) ∧
    (let s := { sequenced { Sequencer.idle with run := some zeroWord, step := 512 } with clk := mtCycles zeroWord };
      mtSteps zeroWord ≤ (s.core 0).seqr.step ∧ (s.core 0).seqr.start + mtCycles zeroWord ≤ s.clk ∧ (s.core 0).seqr.wait = none ∧
        (s.core 0).seqr.chained = []) := by
  refine ⟨by decide, by decide, ⟨_, List.mem_singleton_self _, rfl⟩, ?_, by decide +kernel, by decide +kernel, by decide +kernel, ?_,
    by decide +kernel⟩
  · rintro ⟨y, hy, h⟩
    obtain rfl := List.mem_singleton.1 hy
    exact absurd h (by decide)
  · rintro i (rfl | rfl) <;> decide +kernel

/-- O46: barrier words that count on: not armed, armed for more than has come, for just that with none to wait for, for less, poisoned. -/
def counted (v : Nat) : State := { regs0 with mem := memWrite [] (padBase 0) 16 v }

theorem counted_canonical (v : Nat) : MemoryCanonical (counted v) := by
  unfold MemoryCanonical counted
  generalize 16 = n
  exact Laws.memWrite_wf _ _ _ rfl

theorem witness_barrier_words :
    (∀ v, v = 0 ∨ v = 2 ^ 96 + 64 * 2 ^ 32 ∨ v = 2 ^ 96 + 65 * 2 ^ 32 ∨ v = 2 ^ 96 + 63 * 2 ^ 32 ∨ v = 2 ^ 97 ∨ v = 2 ^ 96 + 2 ^ 64 + 64 * 2 ^ 32 →
      at_ (counted v) (padBase 0) 16 = v) ∧ (∀ v, MemoryCanonical (counted v)) ∧ padBase 0 ≤ padBase 0 ∧
    (0 < 64 ∧ (0 : Nat).testBit 96 = false ∧ (0 : Nat).testBit 97 = false) ∧
    ((2 ^ 96 + 64 * 2 ^ 32).testBit 96 = true ∧ 64 = (2 ^ 96 + 64 * 2 ^ 32) / 2 ^ 32 % 2 ^ 32 ∧ (2 ^ 96 + 64 * 2 ^ 32) / 2 ^ 64 % 2 ^ 16 = 0) ∧
    64 ≤ (2 ^ 96 + 65 * 2 ^ 32) / 2 ^ 32 % 2 ^ 32 ∧ (2 ^ 96 + 63 * 2 ^ 32) / 2 ^ 32 % 2 ^ 32 < 64 ∧ (2 ^ 97).testBit 97 = true ∧
    (2 ^ 96 + 2 ^ 64 + 64 * 2 ^ 32) / 2 ^ 64 % 2 ^ 16 ≠ 0 := by
  refine ⟨?_, counted_canonical, le_rfl, by decide, by decide, by decide, by decide, by decide, by decide⟩
  rintro v (rfl | rfl | rfl | rfl | rfl | rfl) <;> decide +kernel

/-- A copy of one row between two places, with a translation of page 2 that its row holds. -/
def between (src dst : Place) (leaf : Word) : Copy := { moving with src := src, dsts := [dst], held := [(0, ⟨0, 2, 16, leaf⟩)] }

/-- O46: where a row's translation leads: to global memory, to a scratchpad inside the allotment and outside it, to a retired granule, to
no memory, without a right; and places in scratchpads. -/
theorem witness_places :
    (let y := between (.virt 0 0x20000) (.pad 0 (padBase 0)) leaf2;
     tlbFind (y.holdsIn 0) 0 0x2FFFF = some ⟨0, 2, 16, leaf2⟩ ∧ 0x2FFFF < 2 ^ 56 ∧ 2 ^ 56 - 1 + 1 = 2 ^ 56 ∧
       leafPa leaf2.toNat (leaf2.toNat / 2 ^ 44 % 4) 0x2FFFF = 0x2FFFF ∧ regs0.retired.contains (0x2FFFF / 65536) = false ∧
       isGlobal 0x2FFFF = true ∧ regs0.populated 0x2FFFF = true ∧ leaf2.toNat.testBit 2 = true ∧ leaf2.toNat.testBit 3 = true) ∧
    (∀ e, e = wd (padBase 0 + 0xF) ∨ e = wd (padBase 0 + 0x10000 + 0xF) →
       let pa := leafPa e.toNat (e.toNat / 2 ^ 44 % 4) 0x20000;
       isPad pa = true ∧ regs0.populated pa = true ∧ e.toNat.testBit 3 = true ∧ regs0.inAllotment 0 pa 64 = decide (pa = padBase 0)) ∧
    (let s : State := { regs0 with retired := [2] }; s.retired.contains (leafPa leaf2.toNat 0 0x20000 / 65536) = true) ∧
    regs0.populated (leafPa (cxlBase 0 + 15) 0 0x20000) = false ∧ isGlobal (leafPa (schedBase + 15) 0 0x20000) = false ∧
    isPad (leafPa (schedBase + 15) 0 0x20000) = false ∧ ((0x20003 : Nat).testBit 2 = false ∧ (0x20007 : Nat).testBit 3 = false) ∧
    regs0.inAllotment 0 (padBase 0 + 65472 + 0) 64 = true ∧ regs0.inAllotment 0 (padBase 0 + 65472 + 1) 64 = false := by
  refine ⟨by decide +kernel, ?_, by decide +kernel⟩
  rintro e (rfl | rfl) <;> decide +kernel

/-- O46: a piece in flight to page 2, with a barrier word in the scratchpad and with none, as it comes and as a block that stays a bale. -/
def arriving (bar : Nat) (b : Bool) : Copy :=
  { between (.pad 0 (padBase 0)) (.virt 0 0x20000) leaf2 with bars := [bar], flight := [⟨0, 0, 0, [255, 0], b⟩] }

theorem witness_arriving : ∀ bar b, bar = 0 ∨ bar = padBase 0 + 1 → b = false ∨ b = true →
    let y := arriving bar b;
    y.flight[0]? = some ⟨0, 0, 0, [255, 0], b⟩ ∧ (regs0.placePa 2 y 0 (.virt 0 0x20000) 0 2 false true).1 = .ok (0x20000, 0, leaf2.toNat) ∧
      y.mo ≠ 7 ∧ y.gathers = false ∧ leaf2.toNat.testBit 5 = false ∧ keyHeld regs0 0 0x20000 2 = true ∧ y.bars.getD 0 0 = bar ∧ y.mt = none ∧
      (bar ≠ 0 → padBase 0 ≤ bar - 1 ∧ apart 0x20000 2 (bar - 1) 16 = true) ∧
      (0x20000 / 128 ≤ 0x400 ∧ 0x400 ≤ (0x20000 + 2 - 1) / 128) := by
  rintro bar b (rfl | rfl) (rfl | rfl) <;> decide +kernel

/-- Whether a piece is read whole and good, and leaves the copy as it was. -/
def readsWell (s : State) (y : Copy) : Bool :=
  match s.pieceRead 2 y (s.readLen y) with
  | (.ok l, z, _) => l.length == s.readLen y && l.all (· < 256) && decide (z = y)
  | _ => false

/-- O46: pieces of a plain copy, of the first and the last of two that go to a window, and of data held. -/
theorem witness_segments :
    (∀ y, y = between (.pad 0 (padBase 0)) (.pad 0 (padBase 0 + 0x8000)) leaf2 ∨ y = between (.virt 0 0x20000) (.pad 0 (padBase 0)) leaf2 →
      readsWell regs0 y = true ∧ y.mo ≠ 10 ∧ regs0.copyBehind y = false ∧ y.allRead = false ∧ y.off < y.len ∧ y.gathers = false ∧ y.dsts ≠ [] ∧
        regs0.travels y (List.replicate 64 0) = false) ∧
    (∀ o b, (o = 0 ∧ b = []) ∨ (o = 64 ∧ b = List.replicate 64 9) →
      let y := { between (.pad 0 (padBase 0)) (.win 1 2 3 0) leaf2 with len := 128, off := o, buf := b };
      readsWell regs0 y = true ∧ y.gathers = true ∧ y.allRead = false ∧ y.off < y.len ∧ y.flight = [] ∧ y.mo = 1 ∧ y.dsts = [.win 1 2 3 0] ∧
        (o = 0 → y.place + 64 < y.amount) ∧ (o = 64 → y.place + 64 = y.amount)) ∧
    (let y := { between (.win 1 2 3 0) (.pad 0 (padBase 0)) leaf2 with buf := List.replicate 64 9 };
     y.fromBuf = true ∧ readsWell regs0 y = true) ∧
    (let y := between (.virt 0 0x20000) (.pad 0 (padBase 0)) leaf2;
     y.fromBuf = false ∧ 0 < regs0.readLen y ∧ leaf2.toNat.testBit 2 = true ∧ ∀ m, m < regs0.readLen y →
       tlbFind (y.holdsIn (y.row + (y.off + m) / y.len)) 0 (y.sourceOf m) = some ⟨0, 2, 16, leaf2⟩ ∧ y.sourceOf m < 2 ^ 56 ∧
       regs0.retired.contains (leafPa leaf2.toNat 0 (y.sourceOf m) / 65536) = false ∧ isGlobal (leafPa leaf2.toNat 0 (y.sourceOf m)) = true ∧
       regs0.populated (leafPa leaf2.toNat 0 (y.sourceOf m)) = true ∧ regs0.cxlDown (leafPa leaf2.toNat 0 (y.sourceOf m)) = false ∧
       keyHeld regs0 0 (leafPa leaf2.toNat 0 (y.sourceOf m)) 1 = true) := by
  refine ⟨?_, ?_, by decide +kernel, by decide +kernel⟩
  · rintro y (rfl | rfl) <;> decide +kernel
  · rintro o b (⟨rfl, rfl⟩ | ⟨rfl, rfl⟩) <;> decide +kernel

/-- O46: a block that came as a bale, on its way to a page with the bale bit; and one that lies in such a page as a bale. -/
def balePaged : State :=
  { regs0 with sproot := [(0, wd (2 ^ 63 + 0x10000))], mem := memWrite [] 0x10000 8 (3 * 2 ^ 44 + 15 + 64), baleBits := [0x100] }

def baleMove (src dst : Place) (buf : List Nat) (bales : List Nat) : Copy :=
  { moving with src := src, dsts := [dst], len := 4096, sstr := 4096, dstr := 4096, buf := buf, bales := bales }

theorem witness_bale_moves :
    (let y := baleMove (.win 1 2 3 0) (.virt 0 0x200000) (List.replicate 4096 0) [0];
     y.fromBuf = true ∧ y.gathers = false ∧ y.allRead = false ∧ y.off < y.len ∧ balePaged.readLen y = 4096 ∧
       balePaged.keepsBale y = true ∧ y.bales.contains y.place = true) ∧
    (let y := baleMove (.virt 0 0x100000) (.pad 0 (padBase 0)) [] []; balePaged.inBale y = true) := by decide +kernel

theorem witness_bale_travels : balePaged.travels (baleMove (.win 1 2 3 0) (.virt 0 0x200000) (List.replicate 4096 0) [0])
    (List.replicate 4096 0) = true := by
  unfold State.travels
  simp only [List.length_replicate, List.all_replicate]
  decide +kernel

/-- O37: a frame's results among which none moves a queue. -/
theorem witness_return_results :
    let s : State := device { strand with handler := true, snap := [⟨3, 0, .s 3, .word 1 0, false, false⟩] } (bankOf []);
    (∀ l, l ∈ (issuer s s).snap → l.commits = false) ∧ (issuer s s).snap ≠ [] ∧ (issuer s s).land = [] := by decide +kernel

/-- O40: a bundle of nops that gives up the head of queue 0, which holds an element. -/
def popping : State :=
  let s := device strand { bankOf [] with qc := [(0, wd (2 ^ 63 + 2 ^ 37 + 7 * 2 ^ 29 + 2 ^ 46))], present := [(0, 1)] }
  { s with bun := { s.bun with words := [2 ^ 24, 0, 0, 0, 0, 0, 0, 0] } }

theorem witness_pop : readyToCommit popping = true ∧ popping.bun.effs = [] ∧ bit (hdrPop popping.header) 0 = true ∧
    bit (hdrPop popping.header) 7 = false ∧ 1 ≤ qCnt (popping.queue 0) ∧ (issuer popping popping).bank.isSome = true ∧
    (issuer popping popping).land = [] ∧ (issuer popping popping).phase.opened = false ∧ (issuer queued queued).land = [] ∧
    (issuer queued queued).phase.opened = false ∧ MemoryCanonical queued := by
  and_intros
  all_goals first | decide +kernel | rfl

/-- O44: room for a handler's record beside what is reserved; a cluster with an empty queue, and one whose 32 entries are full, with an
empty ring of two in page 2. -/
def spilling : State :=
  { regs0 with clusters := [(0, { Cluster.reset with
      crews := [(0, crewOne)], queue := List.replicate 32 (List.replicate 8 0, 0), rsize := 1, rbase := 0x20000 })] }

theorem witness_records_enter : busyBanks.reservedRoom (0 / 4) < (busyBanks.cluster (0 / 4)).free ∧
    (∀ g, g ∈ ([⟨0, 0, 0x20000, 1, 2⟩] : List Start).take 0 → ¬(g.core = 0 ∧ g.crew = 0)) ∧ (0x20000 % 32 = 0 ∧ 0x20000 < 2 ^ 48) ∧
    ((regs0.cluster 0).rcnt = 0 ∧ (regs0.cluster 0).queue.length < 32) ∧
    (32 ≤ (spilling.cluster 0).queue.length ∧ (spilling.cluster 0).rcnt < (spilling.cluster 0).ringSize ∧
      (List.replicate 8 (0 : Word)).length = 8 ∧ MemoryCanonical spilling ∧
      keyHeld spilling 0 ((spilling.cluster 0).rbase + 64 * (spilling.cluster 0).rtail) 64 = true) := by
  and_intros
  all_goals first | decide +kernel | rfl

/-- O47: a port of a minimal path, and one of a longer path while hops are left; a request whose wait has ended; time that runs out for a
copy and for a channel. -/
def detour (h : Nat) : State := { carrying (passing h) with routes := [(1, 2 ^ 31 + 1 + 2 ^ 23 + 2 ^ 27)], links := [(0, { Link.down with st := 2 }), (11, { Link.down with st := 2 })] }

theorem witness_ports : (passing 0).dst / 512 = (detour 0).dev / 512 ∧ (detour 13).hopPorts (passing 13) = [0, 11] ∧
    (detour 14).hopPorts (passing 14) = [0] ∧ (detour 13).hopPorts { passing 13 with nm := true } = [0] := by decide +kernel

theorem witness_lost : (∀ q, q ∈ ({ asked 0 0 1 [] with remotes := [(9, ⟨0, 0, 0, 7, 7, 0, 0, 1, 2, false, 5, 0, 0, 0, 0, [], true⟩)] } : State).remotes →
      q.1 = (inbound 6).who → q.2.lost = true) ∧
    (∀ k, k = 0 ∨ k = 1 ∨ k = 2 ∨ k = 3 ∨ k = 4 ∨ k = 7 → let s : State := { asked k 0 1 [] with packets := [] };
      (∃ r, s.remotes.find? (fun q => q.1 == 9) = some (9, r) ∧ r.kind = k ∧ r.lost = false ∧ r.deadline ≤ s.ns) ∧ s.replyHere 9 = false) := by
  refine ⟨by decide +kernel, fun k h => ⟨⟨_, rfl, rfl, rfl, Nat.le_refl _⟩, ?_⟩⟩
  rcases h with rfl | rfl | rfl | rfl | rfl | rfl <;> decide +kernel

/-- O49: two records of one cycle, in either order; time that passes over the one of an idle device. -/
theorem witness_two_records : (let h : Held := ⟨0, arrival 1 3 15 1023, none, true⟩; let g : Held := ⟨0, arrival 1 3 15 1022, none, false⟩;
      let s : State := { scheduling with held := [h], inbox := [g] };
      s.held ++ s.inbox = [h, g] ∧ arSrc g.record < arSrc h.record ∧ ({ scheduling with inbox := [g, h] } : State).held ++ [g, h] = [g, h]) ∧
    (let s : State := { State.reset with inbox := [⟨0, arrival 1 3 15 1023, none, false⟩] };
     s.clk < s.clk + 1 ∧ s.replay = none ∧ s.held = [] ∧ s.heatDue = false ∧ s.clusters = []) := by decide +kernel

/-- O50: retirement with room left and with none; the halving that is due; a report; a move's command, leaf and destination in memory that is
read as tables are. -/
def fullRetired : State := { State.reset with retired := List.replicate 16384 7 }

theorem witness_retired : State.reset.retired.length < 16384 ∧ 16384 ≤ fullRetired.retired.length ∧
    fullRetired.retired.contains (0 / 65536) = false := by
  refine ⟨by decide +kernel, (List.length_replicate ..).ge, ?_⟩
  simp only [fullRetired, List.contains_replicate]
  decide

theorem witness_heat_due : (let s : State := { aged with heatDue := true };
    s.clk < s.clk + 1 ∧ s.heatDue = true ∧ s.owesMbs = false ∧ (∀ p, p ∈ s.clusters → p.2.pushes = [])) := by decide +kernel

theorem witness_tables : (let s := migrating [] oldLeaf;
      s.tableAt 0x10000 8 = some 0x20000 ∧ s.tableAt (0x10000 + 8) 8 = some (cxlBase 0) ∧ s.tableAt 0x20000 8 = some oldLeaf ∧
        s.moveGood oldLeaf (cxlBase 0) = true ∧ s.moves = []) ∧
    (∀ l, l = oldLeaf ∨ l = 0 → ((migrating [pageMove] l).tableAt pageMove.leaf 8 = some pageMove.old.toNat ↔ l = oldLeaf)) := by
  refine ⟨by decide +kernel, ?_⟩
  rintro l (rfl | rfl) <;> decide +kernel

theorem witness_report : (let s : State := { State.reset with migQ := [(1, 2, 1)] };
    s.migQ = [(1, 2, 1)] ∧ s.migWait = [] ∧ (1 : Nat) < 2 ∧
      keyHeld s 0 (bits s.migRing.toNat 20 24 * 2 ^ 20 + 16 * bits s.migRing.toNat 0 16) 16 = true) := by decide +kernel

/-- O52: the thermal limits: what is held is let go below 95, and nothing happens between. -/
theorem witness_heat : (94 : Nat) < 95 ∧ ({ State.reset with dieHeld := [0, 1, 2, 3] } : State).dieHeld ≠ [] ∧
    ((115 : Nat) ≤ 115 ∧ 95 ≤ 95) ∧ State.reset.dieHeld = [] ∧
    ¬((105 < 105 ∨ State.reset.powerCap < 0) ∧ State.reset.throttle < 8 ∧ 800 < State.reset.mhz) ∧
    ¬(20 * 100 ≤ 19 * 105 ∧ 20 * 0 ≤ 19 * State.reset.powerCap ∧ 0 < State.reset.throttle ∧ State.reset.stage = 5 ∧ State.reset.stepAt ≤ State.reset.ns) := by
  decide +kernel

end Sys2Proof.Tests
end

/-! PROOFS. What a commit writes beside its effects, and how a bundle with one effect ends (R73). -/

namespace Sys2Proof.Proofs

open Sys2Proof.Machine Sys2Proof.Safety Sys2Proof.Laws

/-! ### What every bundle writes beside its effects -/

/-- A context without what the issue and the end of any bundle write in it, and without the news of its line. -/
def ctxBeside (x : Ctx) : Ctx :=
  { x with pc := 0, nextAt := 0, seq := 0, stalled := [], noSafe := false, spin := .none, woken := false }

/-- A core without its contexts, its counters and what its TLB holds. -/
def coreBeside (k : Core) : Core := { k with ctxs := [], counters := [], counterNew := [], lastIssue := 0, tlb := [] }

/-- A state without its cores and the bundle and event in hand. -/
def stateBeside (s : State) : State := { s with cores := [], bun := .none, pending := [], ev := [] }

/-- t differs from s at most in what every bundle writes: counters, TLBs, the bundle in hand, and of contexts where they go on. -/
structure SameButIssue (s t : State) : Prop where
  state : stateBeside t = stateBeside s
  core : ∀ n, coreBeside (t.core n) = coreBeside (s.core n)
  ctx : ∀ n j, ctxBeside (t.ctx n j) = ctxBeside (s.ctx n j)

namespace SameButIssue

variable {s t u : State}

theorem refl (s : State) : SameButIssue s s := ⟨rfl, fun _ => rfl, fun _ _ => rfl⟩

theorem trans (h : SameButIssue s t) (g : SameButIssue t u) : SameButIssue s u :=
  ⟨g.state.trans h.state, fun n => (g.core n).trans (h.core n), fun n j => (g.ctx n j).trans (h.ctx n j)⟩

/-- A field that no bundle's issue or end writes. -/
theorem onState {α : Type} (h : SameButIssue s t) (p : State → α) (hp : ∀ v, p (stateBeside v) = p v) : p t = p s := by
  rw [← hp t, h.state, hp s]

theorem onCore {α : Type} (h : SameButIssue s t) (p : Core → α) (hp : ∀ k, p (coreBeside k) = p k) (n : Nat) :
    p (t.core n) = p (s.core n) := by
  rw [← hp (t.core n), h.core, hp]

theorem onCtx {α : Type} (h : SameButIssue s t) (p : Ctx → α) (hp : ∀ x, p (ctxBeside x) = p x) (n j : Nat) :
    p (t.ctx n j) = p (s.ctx n j) := by
  rw [← hp (t.ctx n j), h.ctx, hp]

theorem mem (h : SameButIssue s t) : t.mem = s.mem := h.onState State.mem fun _ => rfl

theorem lfOf (h : SameButIssue s t) (n k : Nat) : (t.core n).lfOf k = (s.core n).lfOf k := by
  unfold Core.lfOf; rw [h.onCore Core.lf fun _ => rfl]

theorem bankOf (h : SameButIssue s t) (n j : Nat) : t.bankOf n j = s.bankOf n j := by
  unfold State.bankOf Core.bank; rw [h.onCtx Ctx.bank fun _ => rfl, h.onCore Core.banks fun _ => rfl]

theorem allot (h : SameButIssue s t) (n id : Nat) : t.allot n id = s.allot n id := by
  unfold State.allot State.crewOf State.cluster; rw [h.onState State.clusters fun _ => rfl]

end SameButIssue

/-! ### Steps that change no context -/

/-- Every core lists the same contexts. -/
def SameCtxs (s t : State) : Prop := ∀ n, (t.core n).ctxs = (s.core n).ctxs

namespace SameCtxs

variable {s t u : State}

theorem refl (s : State) : SameCtxs s s := fun _ => rfl
theorem trans (h : SameCtxs s t) (g : SameCtxs t u) : SameCtxs s u := fun n => (g n).trans (h n)

theorem ctx (h : SameCtxs s t) (n j : Nat) : t.ctx n j = s.ctx n j := by
  unfold State.ctx Core.ctx; rw [h n]

end SameCtxs

theorem sameCtxs_modCore {s : State} {c : Nat} {f : Core → Core} (hf : ∀ k, (f k).ctxs = k.ctxs) : SameCtxs s (s.modCore c f) := by
  intro n
  rw [modCore_core]
  split
  · next e => rw [hf, e]
  · rfl

/-! ### The steps that only keep account -/

/-- A change of a core beside its contexts. -/
theorem sameButIssue_modCore {s : State} {c : Nat} {f : Core → Core} (hf : ∀ k, coreBeside (f k) = coreBeside k)
    (hx : ∀ k, (f k).ctxs = k.ctxs) : SameButIssue s (s.modCore c f) := by
  refine ⟨rfl, fun n => ?_, fun n j => by rw [(sameCtxs_modCore hx).ctx]⟩
  rw [modCore_core]
  split
  · next e => rw [hf, e]
  · rfl

theorem modCtx_ctx (s : State) (c j n k : Nat) (f : Ctx → Ctx) :
    (s.modCtx c j f).ctx n k = if n = c ∧ k = j then f (s.ctx c j) else s.ctx n k := by
  by_cases hn : n = c
  · subst hn
    by_cases hk : k = j
    · subst hk; simp
    · simp [hk, modCtx_ctx_other]
  · unfold State.ctx
    simp [hn, modCtx_core_other]

theorem modCtx_core_field {α : Type} (p : Core → α) (hp : ∀ k l, p { k with ctxs := l } = p k) (s : State) (c j n : Nat)
    (f : Ctx → Ctx) : p ((s.modCtx c j f).core n) = p (s.core n) := by
  unfold State.modCtx
  rw [modCore_core]
  split
  · next e => rw [hp, e]
  · rfl

/-- A change of a context in what every bundle writes. -/
theorem sameButIssue_modCtx {s : State} {c j : Nat} {f : Ctx → Ctx} (hf : ∀ x, ctxBeside (f x) = ctxBeside x) :
    SameButIssue s (s.modCtx c j f) := by
  refine ⟨rfl, fun n => modCtx_core_field coreBeside (fun _ _ => rfl) s c j n f, fun n k => ?_⟩
  rw [modCtx_ctx]
  split
  · next e => rw [hf, e.1, e.2]
  · rfl

theorem sameButIssue_bumpCounter (s : State) (c n by_ : Nat) : SameButIssue s (s.bumpCounter c n by_) := by
  unfold State.bumpCounter
  split
  · exact .refl s
  · exact sameButIssue_modCore (fun _ => rfl) fun _ => rfl

theorem sameButIssue_perf (s : State) (c j evt n : Nat) : SameButIssue s (s.perf c j evt n) := by
  unfold State.perf
  exact foldl_keeps (SameButIssue s) _ (fun u _ h => h.trans (sameButIssue_bumpCounter u ..)) _ _ (.refl s)

@[simp] theorem bumpCounter_bun (s : State) (c n by_ : Nat) : (s.bumpCounter c n by_).bun = s.bun := by
  unfold State.bumpCounter; split <;> rfl

@[simp] theorem perf_bun (s : State) (c j evt n : Nat) : (s.perf c j evt n).bun = s.bun := by
  unfold State.perf
  exact foldl_keeps (fun u : State => u.bun = s.bun) _ (fun u _ h => (bumpCounter_bun u ..).trans h) _ _ rfl

theorem sameButIssue_countIssue (s : State) : SameButIssue s s.countIssue := by
  unfold State.countIssue
  exact ((sameButIssue_perf s ..).trans (sameButIssue_perf _ ..)).trans (sameButIssue_modCore (fun _ => rfl) fun _ => rfl)

@[simp] theorem countIssue_bun (s : State) : s.countIssue.bun = s.bun := by
  simp [State.countIssue]

theorem sameButIssue_spinTrack (s : State) (es : List Eff) : SameButIssue s (s.spinTrack es) := by
  unfold State.spinTrack State.modMe
  exact sameButIssue_modCtx fun _ => rfl

/-- A bundle that returns from no handler goes on at its next bundle. -/
theorem sameButIssue_goOn (s : State) {es : List Eff} (h : ∀ a, Eff.handlerReturn a ∉ es) : SameButIssue s (s.goOn es) := by
  have none_ : (es.findSome? fun e => match e with | .handlerReturn a => some a | _ => none) = none := by
    rw [List.findSome?_eq_none_iff]
    intro e he
    split
    · exact absurd he (h _)
    · rfl
  unfold State.goOn
  dsimp only
  split
  · next e => exact absurd (none_.symm.trans e) (by simp)
  · exact sameButIssue_modCtx fun _ => rfl

theorem sameButIssue_clearBundle (s : State) : SameButIssue s s.clearBundle := ⟨rfl, fun _ => rfl, fun _ _ => rfl⟩

theorem sameButIssue_dropFaults (s : State) (c : Nat) : SameButIssue s (s.dropFaults c) := by
  unfold State.dropFaults
  dsimp only
  split
  · exact sameButIssue_modCore (fun _ => rfl) fun _ => rfl
  · split
    · exact sameButIssue_modCore (fun _ => rfl) fun _ => rfl
    · exact .refl s

/-! ### A bundle that commits -/

/-- The state in which the effects of the bundle in hand perform: it has issued and is counted. -/
def committingFrom (s : State) : State :=
  (s.countIssue.perf s.bun.core s.bun.ctx 3 (hdrStall s.header)).modMe
    fun x => { x with seq := x.seq + 1, stalled := [], noSafe := false, pc := (s.bun.pc + 32) % 2 ^ 64 }

theorem sameButIssue_committingFrom (s : State) : SameButIssue s (committingFrom s) := by
  unfold committingFrom State.modMe
  exact ((sameButIssue_countIssue _).trans (sameButIssue_perf ..)).trans (sameButIssue_modCtx fun _ => rfl)

@[simp] theorem committingFrom_bun (s : State) : (committingFrom s).bun = s.bun := by
  simp [committingFrom, State.modMe]

theorem sameButIssue_given (s : State) (ops : List Nat) : SameButIssue s (given s ops) := ⟨rfl, fun _ => rfl, fun _ _ => rfl⟩

@[simp] theorem given_bun (s : State) (ops : List Nat) : (given s ops).bun = s.bun := rfl

theorem illegalTrap_given (s : State) (ops : List Nat) : (given s ops).illegalTrap = s.illegalTrap := rfl

/-- Whether an effect is the rollback of a region, with which nothing else of its bundle performs. -/
def rollsBack (e : Eff) : Bool := match e with | .sched .rcom ws => nth 0 ws 0 == 1 | _ => false

/-- A bundle with nothing wrong ends with its commit. -/
theorem ends_commitBundle {s : State} (h : readyToCommit s = true) :
    Ends s (((given s [s.bun.core]).commitBundle.clearBundle).dropFaults s.bun.core) := by
  simp only [readyToCommit, Bool.and_eq_true, Bool.not_eq_true', List.isEmpty_eq_false_iff, List.isEmpty_iff,
    Option.isNone_iff_eq_none] at h
  obtain ⟨⟨⟨⟨⟨hw, hp⟩, hh⟩, hm⟩, ht⟩, hi⟩ := h
  show execBundleCommit (given s [s.bun.core]) = _
  unfold execBundleCommit
  rw [if_neg (by simp [given, hw, hp, State.op]),
    finishBundle_commit (s := given s [s.bun.core]) hh ((illegalTrap_given s _).trans hi) hm ht]
  rfl

/-- The effects of the bundle in hand perform: its loads, then the others. -/
def performed (s : State) : State :=
  (s.bun.effs.filter (!·.reads)).foldl State.applyEff ((s.bun.effs.filter (·.reads)).foldl State.applyEff (committingFrom s))

/-- What a commit does: the effects, then the heads given up, and the strand goes on. -/
theorem commitBundle_eq {s : State} (h : s.bun.effs.any rollsBack = false) :
    s.commitBundle = (((performed s).applyPops (hdrPop (performed s).header)).spinTrack s.bun.effs).goOn s.bun.effs := by
  unfold State.commitBundle performed committingFrom
  dsimp only
  split
  · next e => exact absurd (h.symm.trans e) (by decide)
  · rfl

theorem applyPops_zero (s : State) : s.applyPops 0 = s := by
  have b : ∀ k, bit 0 k = false := by simp [bit]
  simp [State.applyPops, b]

/-- What follows the effects and the pops of a commit keeps account alone. -/
theorem ends_of_performed {s : State} (ready : readyToCommit s = true) (hb : s.bun.effs.any rollsBack = false)
    (hh : ∀ a, Eff.handlerReturn a ∉ s.bun.effs) :
    let u := performed (given s [s.bun.core])
    ∃ t, Ends s t ∧ SameButIssue (u.applyPops (hdrPop u.header)) t := by
  refine ⟨_, ends_commitBundle ready, ?_⟩
  rw [commitBundle_eq (s := given s [s.bun.core]) hb]
  exact (((sameButIssue_spinTrack ..).trans (sameButIssue_goOn _ hh)).trans (sameButIssue_clearBundle _)).trans
    (sameButIssue_dropFaults ..)

/-- A bundle whose only effect is e: e performs in a state that differs from s in the bundle's account alone, and what follows
keeps account again. -/
theorem ends_of_committing {s : State} {e : Eff} (h : committing s [e]) (hr : e.reads = false) (hb : rollsBack e = false)
    (hh : ∀ a, e ≠ .handlerReturn a) :
    ∃ u, SameButIssue s u ∧ u.bun = s.bun ∧
      ((u.applyEff e).bun = u.bun → ∃ t, Ends s t ∧ SameButIssue (u.applyEff e) t) := by
  obtain ⟨ready, pop, effs⟩ := h
  have hperf : performed (given s [s.bun.core]) = (committingFrom (given s [s.bun.core])).applyEff e := by
    simp [performed, effs, hr]
  refine ⟨committingFrom (given s [s.bun.core]), (sameButIssue_given s _).trans (sameButIssue_committingFrom _), by simp,
    fun hbun => ?_⟩
  obtain ⟨t, ht, hs⟩ := ends_of_performed ready (by simp [effs, hb]) (by simpa [effs] using fun a e' => hh a e'.symm)
  refine ⟨t, ht, ?_⟩
  rw [hperf, show hdrPop ((committingFrom (given s [s.bun.core])).applyEff e).header = 0 by
    unfold State.header at pop ⊢; rw [hbun, committingFrom_bun]; exact pop, applyPops_zero] at hs
  exact hs

end Sys2Proof.Proofs


/-! PROOFS. Committed tokens, pending releases, waits and dormant slots (R251, R252, R377 to R381). -/

namespace Sys2Proof.Proofs

open Sys2Proof.Machine Sys2Proof.Safety Sys2Proof.Laws

/-! ### Effects that change the issuing context alone -/

theorem ctx_eq_of_beside {α : Type} {x y : Ctx} (h : ctxBeside x = ctxBeside y) (p : Ctx → α)
    (hp : ∀ x, p (ctxBeside x) = p x) : p x = p y := by
  rw [← hp x, h, hp]

/-- An effect that changes the issuing context by g. -/
theorem ends_of_modMe {s : State} {e : Eff} (g : Ctx → Ctx) (h : committing s [e]) (hr : e.reads = false) (hb : rollsBack e = false)
    (hh : ∀ a, e ≠ .handlerReturn a) (he : ∀ u, SameButIssue s u → u.bun = s.bun → u.applyEff e = u.modMe g) :
    ∃ t x, Ends s t ∧ ctxBeside x = ctxBeside (issuer s s) ∧ ctxBeside (issuer s t) = ctxBeside (g x) ∧ t.mem = s.mem := by
  obtain ⟨u, hu, hbun, go⟩ := ends_of_committing h hr hb hh
  have e' := he u hu hbun
  obtain ⟨t, ht, hs⟩ := go (by rw [e']; rfl)
  rw [e', State.modMe, hbun] at hs
  refine ⟨t, u.ctx s.bun.core s.bun.ctx, ht, hu.ctx _ _, ?_, hs.mem.trans hu.mem⟩
  rw [issuer, hs.ctx, modCtx_ctx_same]

/-- A wait of a strand that has none takes its context as it is given. -/
theorem ends_of_await {s : State} {e : Eff} {w : Wait} (h : committing s [e]) (hr : e.reads = false) (hb : rollsBack e = false)
    (hh : ∀ a, e ≠ .handlerReturn a) (hw : (issuer s s).wait = .none)
    (he : ∀ u, SameButIssue s u → u.bun = s.bun → u.applyEff e = u.await w) :
    ∃ t, Ends s t ∧ (issuer s t).wait = w ∧ t.mem = s.mem := by
  obtain ⟨t, x, ht, hx, hg, hm⟩ := ends_of_modMe
    (fun x => if x.wait = .none then { x with wait := w } else { x with after := w }) h hr hb hh he
  have hxw : x.wait = .none := (ctx_eq_of_beside hx Ctx.wait fun _ => rfl).trans hw
  refine ⟨t, ht, ?_, hm⟩
  rw [ctx_eq_of_beside hg Ctx.wait fun _ => rfl, if_pos hxw]

theorem ends_storeRel {s : State} {sc n pa va key : Nat} {w : Word} {g : Bool} (h : committing s [.storeRel sc n pa va key w g]) :
    ∃ t, Ends s t ∧ (issuer s t).rel = some ⟨sc, .store n pa va key w g⟩ ∧ t.mem = s.mem := by
  obtain ⟨t, x, ht, -, hg, hm⟩ := ends_of_modMe
    (fun x => { x with rel := some ⟨sc, .store n pa va key w g⟩, relAt := s.nextId, relBefore := [] }) h rfl rfl (by simp)
    (fun u hu _ => by rw [← hu.onState State.nextId fun _ => rfl]; rfl)
  exact ⟨t, ht, ctx_eq_of_beside hg Ctx.rel fun _ => rfl, hm⟩

theorem ends_publish {s : State} {sc : Nat} {hs : List Word} (h : committing s [.publish sc hs]) :
    ∃ t, Ends s t ∧ (issuer s t).rel = some ⟨sc, .publish hs (issuer s s).region.opened⟩ ∧ t.mem = s.mem := by
  obtain ⟨t, x, ht, hx, hg, hm⟩ := ends_of_modMe
    (fun x => { x with rel := some ⟨sc, .publish hs x.region.opened⟩, relAt := s.nextId }) h rfl rfl (by simp)
    (fun u hu _ => by rw [← hu.onState State.nextId fun _ => rfl]; rfl)
  exact ⟨t, ht, by rw [ctx_eq_of_beside hg Ctx.rel fun _ => rfl, ← ctx_eq_of_beside hx Ctx.region fun _ => rfl], hm⟩

theorem ends_phaseCommit {s : State} {sc : Nat} (h : committing s [.phaseCommit sc]) :
    ∃ t, Ends s t ∧ (issuer s t).rel = some ⟨sc, .phase (issuer s s).phase.windows (issuer s s).region.opened⟩ ∧
      t.mem = s.mem := by
  obtain ⟨t, x, ht, hx, hg, hm⟩ := ends_of_modMe
    (fun x => { x with rel := some ⟨sc, .phase x.phase.windows x.region.opened⟩, relAt := s.nextId }) h rfl rfl (by simp)
    (fun u hu _ => by rw [← hu.onState State.nextId fun _ => rfl]; rfl)
  have phase := ctx_eq_of_beside hx Ctx.phase fun _ => rfl
  have region := ctx_eq_of_beside hx Ctx.region fun _ => rfl
  exact ⟨t, ht, by rw [ctx_eq_of_beside hg Ctx.rel fun _ => rfl, ← region, ← phase], hm⟩

theorem ends_endStrand {s : State} (h : committing s [.endStrand none]) (hw : (issuer s s).wait = .none) :
    ∃ t, Ends s t ∧ (issuer s t).wait = .exit ∧ t.mem = s.mem :=
  ends_of_await h rfl rfl (by simp) hw fun _ _ _ => rfl

theorem ends_suspend {s : State} {p pri f : Nat} (h : committing s [.sched (.suspend p pri f) []]) (hw : (issuer s s).wait = .none) :
    ∃ t, Ends s t ∧ (issuer s t).wait = .suspend p pri f ((s.bun.pc + 32) % 2 ^ 64) ∧ t.mem = s.mem :=
  ends_of_await h rfl rfl (by simp) hw fun u _ hb => by rw [← hb]; rfl

theorem applyEff_fence (s : State) (sc d : Nat) : s.applyEff (.fence sc d) =
    (s.modMe fun x => { x with fence := (s.me.fence + 1) % 2 ^ 48 }).schedule 2 (.s d)
      (.word (wd (sc * 2 ^ 61 + (s.me.fence + 1) % 2 ^ 48)) 0) false := rfl

theorem ends_fence {s : State} {sc d : Nat} (h : committing s [.fence sc d]) :
    ∃ t l, Ends s t ∧ (issuer s t).fence = ((issuer s s).fence + 1) % 2 ^ 48 ∧ l ∈ (issuer s t).land ∧
      l.due = s.bun.t + 2 ∧ l.dest = .s d ∧ l.val = .word (wd (sc * 2 ^ 61 + ((issuer s s).fence + 1) % 2 ^ 48)) 0 ∧ t.mem = s.mem := by
  obtain ⟨u, hu, hb, go⟩ := ends_of_committing h rfl rfl (by simp)
  obtain ⟨t, ht, hs⟩ := go rfl
  have hf : (u.ctx s.bun.core s.bun.ctx).fence = (issuer s s).fence := hu.onCtx Ctx.fence (fun _ => rfl) _ _
  have hx := hs.ctx s.bun.core s.bun.ctx
  simp only [applyEff_fence, State.schedule, State.modMe, State.me, modCtx_bun, hb, modCtx_ctx_same, hf] at hx
  refine ⟨t, ⟨s.bun.t + 2, (u.ctx s.bun.core s.bun.ctx).seq, .s d, .word (wd (sc * 2 ^ 61 + ((issuer s s).fence + 1) % 2 ^ 48)) 0,
    false, s.bun.mirror.contains (.s d)⟩, ht, ctx_eq_of_beside hx Ctx.fence fun _ => rfl, ?_, rfl, rfl, rfl, hs.mem.trans hu.mem⟩
  rw [issuer, ctx_eq_of_beside hx Ctx.land fun _ => rfl, mem_insertLanding]
  exact .inl rfl

/-! ### fwait -/

theorem fwaitReady_congr {s u : State} (h : SameButIssue s u) (c j : Nat) (tok : Word) : u.fwaitReady c j tok = s.fwaitReady c j tok := by
  unfold State.fwaitReady State.persisted
  dsimp only
  rw [h.onCtx Ctx.fence fun _ => rfl, h.onCtx Ctx.uid fun _ => rfl, h.onCtx Ctx.rel fun _ => rfl,
    h.onCore Core.xforms fun _ => rfl, h.onState State.remotes fun _ => rfl, h.onState State.cellarOpen fun _ => rfl]

theorem applyEff_fwait (s : State) (tok : Word) : s.applyEff (.fwait tok) =
    if s.fwaitReady s.bun.core s.bun.ctx tok then s.fwaitDone s.bun.core s.bun.ctx tok
    else s.await (.fence tok (s.bun.t + 2 + 1000 * s.mhz)) := rfl

theorem ends_fwait_waits {s : State} {tok : Word} (h : committing s [.fwait tok])
    (hr : s.fwaitReady s.bun.core s.bun.ctx tok = false) (hw : (issuer s s).wait = .none) :
    ∃ t, Ends s t ∧ (issuer s t).wait = .fence tok (s.bun.t + 2 + 1000 * s.mhz) ∧ t.mem = s.mem :=
  ends_of_await h rfl rfl (by simp) hw fun u hu hb => by
    have hr' : u.fwaitReady s.bun.core s.bun.ctx tok = false := by rw [fwaitReady_congr hu, hr]
    simp only [applyEff_fwait, hb, hr', Bool.false_eq_true, if_false, hu.onState State.mhz fun _ => rfl]

/-! What a fence's completion leaves: the contexts, memory and the bundle in hand. -/

theorem sameCtxs_fwaitDone (s : State) (c j : Nat) (tok : Word) : SameCtxs s (s.fwaitDone c j tok) := by
  have drop : SameCtxs s (s.dropL1 c) := sameCtxs_modCore fun _ => rfl
  unfold State.fwaitDone
  dsimp only
  split_ifs
  · exact drop
  · exact .refl s
  · exact drop
  · exact .refl s

theorem fwaitDone_mem (s : State) (c j : Nat) (tok : Word) : (s.fwaitDone c j tok).mem = s.mem := by
  unfold State.fwaitDone; dsimp only; split_ifs <;> rfl

theorem fwaitDone_bun (s : State) (c j : Nat) (tok : Word) : (s.fwaitDone c j tok).bun = s.bun := by
  unfold State.fwaitDone; dsimp only; split_ifs <;> rfl

theorem fwaitDone_l1 (s : State) (c j : Nat) {tok : Word} (h : bits tok.toNat 61 3 ≠ 0) : ((s.fwaitDone c j tok).core c).l1 = [] := by
  unfold State.fwaitDone
  have one : 1 ≤ bits tok.toNat 61 3 := Nat.one_le_iff_ne_zero.mpr h
  have l1 : ((s.dropL1 c).core c).l1 = [] := by simp [State.dropL1]
  simp only [one, if_true]
  split_ifs
  · exact l1
  · exact l1

theorem ends_fwait_ready {s : State} {tok : Word} (h : committing s [.fwait tok]) (hr : s.fwaitReady s.bun.core s.bun.ctx tok = true) :
    ∃ t, Ends s t ∧ (issuer s t).wait = (issuer s s).wait ∧ (bits tok.toNat 61 3 ≠ 0 → (t.core s.bun.core).l1 = []) ∧
      t.mem = s.mem := by
  obtain ⟨u, hu, hb, go⟩ := ends_of_committing h rfl rfl (by simp)
  have he : u.applyEff (.fwait tok) = u.fwaitDone s.bun.core s.bun.ctx tok := by
    simp only [applyEff_fwait, hb, fwaitReady_congr hu, hr, if_true]
  rw [he, fwaitDone_bun] at go
  obtain ⟨t, ht, hs⟩ := go rfl
  refine ⟨t, ht, ?_, fun h0 => ?_, hs.mem.trans ((fwaitDone_mem ..).trans hu.mem)⟩
  · rw [issuer, hs.onCtx Ctx.wait fun _ => rfl, (sameCtxs_fwaitDone u _ _ tok).ctx, hu.onCtx Ctx.wait fun _ => rfl, issuer]
  · rw [hs.onCore Core.l1 fun _ => rfl, fwaitDone_l1 _ _ _ h0]

/-! ### Dormant slots -/

theorem schedule_ctx_other (s : State) {c n : Nat} (lat : Nat) (d : Dest) (v : Val) (b : Bool) (h : n ≠ s.bun.ctx) :
    (s.schedule lat d v b).ctx c n = s.ctx c n := by
  unfold State.schedule State.modMe
  rw [modCtx_ctx, if_neg (fun e => h e.2)]

/-- A slot as arming leaves it for the issuing strand. -/
def slotArmed (u : State) (v : Nat) : Ctx :=
  { Ctx.empty with
    st := .dormant, crew := u.me.crew, tag := u.me.tag, stage := u.me.stage, node := u.me.node, replay := u.me.replay, space := u.me.space
    pri := bits v 0 3, rearm := bit v 3, modes := u.mb.modes, age := u.nextId }

theorem arm_slot {u : State} {d v n : Nat} (hf : (List.range 8).find? (fun i => (u.ctx u.bun.core i).st == .free) = some n)
    (hn : n ≠ u.bun.ctx) :
    (u.arm d v).ctx u.bun.core n = slotArmed u v ∧ (u.arm d v).mem = u.mem ∧ (u.arm d v).bun = u.bun := by
  unfold State.arm
  simp only [hf]
  refine ⟨?_, rfl, rfl⟩
  rw [schedule_ctx_other]
  · exact modCtx_ctx_same u u.bun.core n fun _ => slotArmed u v
  · exact hn

theorem ends_dormArm {s : State} {d a n : Nat} {v : Word} (h : committing s [.sched (.dormArm d a) [v]])
    (hf : (List.range 8).find? (fun i => (s.ctx s.bun.core i).st == .free) = some n) (hn : n ≠ s.bun.ctx) :
    ∃ t, Ends s t ∧ (t.ctx s.bun.core n).st = .dormant ∧ (t.ctx s.bun.core n).crew = (issuer s s).crew ∧
      (t.ctx s.bun.core n).tag = (issuer s s).tag ∧ t.mem = s.mem := by
  obtain ⟨u, hu, hb, go⟩ := ends_of_committing h rfl rfl (by simp)
  have hf' : (List.range 8).find? (fun i => (u.ctx u.bun.core i).st == .free) = some n := by
    rw [← hf]; congr 1; funext i; rw [hb, hu.onCtx Ctx.st fun _ => rfl]
  obtain ⟨hslot, hm, hbun⟩ := arm_slot (d := d) (v := v.toNat) hf' (by rw [hb]; exact hn)
  obtain ⟨t, ht, hs⟩ := go hbun
  have hx := hs.ctx u.bun.core n
  rw [show u.applyEff _ = u.arm d v.toNat from rfl, hslot, hb] at hx
  refine ⟨t, ht, ctx_eq_of_beside hx Ctx.st fun _ => rfl, (ctx_eq_of_beside hx Ctx.crew fun _ => rfl).trans ?_,
    (ctx_eq_of_beside hx Ctx.tag fun _ => rfl).trans ?_,
    hs.mem.trans (hm.trans hu.mem)⟩
  · rw [show (slotArmed u v.toNat).crew = u.me.crew from rfl, State.me, hb, hu.onCtx Ctx.crew fun _ => rfl, issuer]
  · rw [show (slotArmed u v.toNat).tag = u.me.tag from rfl, State.me, hb, hu.onCtx Ctx.tag fun _ => rfl, issuer]

theorem ends_dormDisarm {s : State} {d a : Nat} {v : Word} (h : committing s [.sched (.dormDisarm d a) [v]])
    (hn : v.toNat ≠ s.bun.ctx) (hst : (s.ctx s.bun.core v.toNat).st = .dormant) (hdue : (s.ctx s.bun.core v.toNat).due = false)
    (hcrew : (s.ctx s.bun.core v.toNat).crew = (issuer s s).crew) :
    ∃ t, Ends s t ∧ (t.ctx s.bun.core v.toNat).st = .free ∧ t.mem = s.mem := by
  obtain ⟨u, hu, hb, go⟩ := ends_of_committing h rfl rfl (by simp)
  have he : u.applyEff (.sched (.dormDisarm d a) [v]) =
      (u.modCtx s.bun.core v.toNat fun _ => .empty).schedule 2 (.s d) (.word 0 0) false := by
    show u.disarm d v.toNat = _
    have mine : (u.ctx s.bun.core v.toNat).crew = u.me.crew := by
      rw [State.me, hb, hu.onCtx Ctx.crew fun _ => rfl, hu.onCtx Ctx.crew fun _ => rfl, hcrew, issuer]
    unfold State.disarm
    rw [hb, if_pos ⟨(hu.onCtx Ctx.st (fun _ => rfl) _ _).trans hst, (hu.onCtx Ctx.due (fun _ => rfl) _ _).trans hdue, mine⟩]
  rw [he] at go
  obtain ⟨t, ht, hs⟩ := go rfl
  refine ⟨t, ht, ?_, hs.mem.trans hu.mem⟩
  rw [hs.onCtx Ctx.st fun _ => rfl, schedule_ctx_other _ _ _ _ _ (by simpa [hb] using hn), modCtx_ctx_same]
  rfl

end Sys2Proof.Proofs


/-! PROOFS. What a write leaves as it was, what it leaves in memory, and what a read finds (R234 to R237, R269). -/

namespace Sys2Proof.Proofs

open Sys2Proof.Machine Sys2Proof.Safety Sys2Proof.Laws

/-! ### What lies behind memory -/

/-- A state without what lies behind memory: the lines of L2, the account of durability, bales, heat and machine checks. -/
def besideLines (s : State) : State :=
  { s with l2 := [], cellarLines := [], cellarOpen := [], baleBits := [], versions := [], journal := [], heat := [], heatCnt := []
           migQ := [], migStall := 0, mchk := [], mhead := 0, msix := [], msixPending := 0, intStat := 0, intAgain := 0 }

/-- A state without memory itself either: bytes, keys, poison. -/
def besideBytes (s : State) : State := { s with mem := [], keyTags := [], poison := [], padPoison := [] }
def besideMemory (s : State) : State := besideBytes (besideLines s)

/-- t differs from s at most behind memory. -/
def SameButLines (s t : State) : Prop := besideLines t = besideLines s

/-- t differs from s at most in memory and behind it. -/
def SameButMemory (s t : State) : Prop := besideMemory t = besideMemory s

namespace SameButLines

variable {s t u : State}

theorem refl (s : State) : SameButLines s s := rfl
theorem trans (h : SameButLines s t) (g : SameButLines t u) : SameButLines s u := Eq.trans g h

/-- Anything that does not depend on what lies behind memory. -/
theorem on {α : Type} (h : SameButLines s t) (p : State → α) (hp : ∀ v, p (besideLines v) = p v) : p t = p s := by
  rw [← hp t, h, hp s]

theorem sameButMemory (h : SameButLines s t) : SameButMemory s t :=
  congrArg besideBytes h

end SameButLines

namespace SameButMemory

variable {s t u : State}

theorem refl (s : State) : SameButMemory s s := rfl
theorem trans (h : SameButMemory s t) (g : SameButMemory t u) : SameButMemory s u := Eq.trans g h

/-- Anything that does not depend on memory. -/
theorem on {α : Type} (h : SameButMemory s t) (p : State → α) (hp : ∀ v, p (besideMemory v) = p v) : p t = p s := by
  rw [← hp t, h, hp s]

end SameButMemory

theorem sameButLines_sendVector (s : State) (k : Nat) : SameButLines s (s.sendVector k) := by
  unfold State.sendVector; split_ifs <;> rfl

theorem sameButLines_raise (s : State) (k : Nat) : SameButLines s (s.raise k) := by
  unfold State.raise
  dsimp only
  split_ifs
  · rfl
  · exact sameButLines_sendVector { s with intStat := setBits s.intStat k 1 1 } k
  · rfl

theorem sameButLines_machineCheck (s : State) (source pa : Nat) : SameButLines s (s.machineCheck source pa) :=
  (sameButLines_raise s 2).trans rfl

theorem sameButLines_downAccess (s : State) (pa : Nat) : SameButLines s (s.downAccess pa) := by
  unfold State.downAccess
  split
  · exact sameButLines_machineCheck s 2 pa
  · rfl

theorem sameButLines_heatReport (s : State) (g heat tier : Nat) : SameButLines s (s.heatReport g heat tier) := by
  unfold State.heatReport; split <;> rfl

theorem sameButLines_heatUp (s : State) (leaf pa : Nat) : SameButLines s (s.heatUp leaf pa) := by
  unfold State.heatUp
  dsimp only
  split_ifs
  · rfl
  · rfl
  · exact sameButLines_heatReport { s with heatCnt := _, heat := _ } _ _ _
  · rfl

theorem sameButLines_l2Fills (s : State) (leaf pa n : Nat) : SameButLines s (s.l2Fills leaf pa n) := by
  unfold State.l2Fills
  split
  · rfl
  · refine foldl_keeps (SameButLines s) _ (fun u line h => ?_) _ _ (.refl s)
    split
    · exact h
    · exact h.trans (sameButLines_heatUp u _ _)

theorem sameButLines_lineBack (s : State) (line form : Nat) : SameButLines s (s.lineBack line form) := by
  have h : SameButLines s (s.formBack line form) := by unfold State.formBack; dsimp only; split <;> rfl
  exact h.trans (sameButLines_heatUp _ _ _)

theorem sameButLines_settleGranule (s : State) (x : Nat) : SameButLines s (s.settleGranule x) := by
  unfold State.settleGranule
  dsimp only
  split
  · rfl
  · split
    · rfl
    · exact (sameButLines_lineBack s _ _).trans rfl

theorem sameButLines_persistGranule (s : State) (x : Nat) : SameButLines s (s.persistGranule x) := by
  unfold State.persistGranule
  split
  · exact SameButLines.trans (by rfl) (sameButLines_settleGranule _ x)
  · rfl

theorem sameButLines_evictLine (s : State) (line : Nat) : SameButLines s (s.evictLine line) := by
  have h := (sameButLines_persistGranule s (2 * line)).trans (sameButLines_persistGranule _ (2 * line + 1))
  unfold State.evictLine
  dsimp only
  split
  · exact (h.trans (sameButLines_lineBack _ _ _)).trans rfl
  · exact h

theorem sameButLines_dirtyLine (s : State) (line : Nat) : SameButLines s (s.dirtyLine line) := by
  unfold State.dirtyLine
  split
  · rfl
  · dsimp only
    split_ifs
    · rfl
    · rfl
    · split
      · rfl
      · exact (sameButLines_evictLine s _).trans rfl

theorem sameButLines_setForm (s : State) (pa n form : Nat) : SameButLines s (s.setForm pa n form) := by
  unfold State.setForm; split <;> rfl

theorem sameButLines_sealDurable (s : State) (pa n : Nat) : SameButLines s (s.sealDurable pa n) :=
  foldl_keeps (SameButLines s) _
    (fun _ _ h => (h.trans (sameButLines_persistGranule _ _)).trans (sameButLines_settleGranule _ _)) _ _ (.refl s)

/-! ### Writes -/

theorem sameButMemory_bytes (s : State) (m : List Host.Cell) : SameButMemory s { s with mem := m } := rfl

theorem sameButMemory_keyed (s : State) (m : List Host.Cell) (t : Tab Nat) : SameButMemory s { s with mem := m, keyTags := t } := rfl

theorem sameButMemory_coverRange (s : State) (pa n : Nat) : SameButMemory s (s.coverRange pa n) := by
  unfold State.coverRange; split_ifs <;> rfl

theorem sameButMemory_poisonRange (s : State) (pa n : Nat) : SameButMemory s (s.poisonRange pa n) := by
  unfold State.poisonRange; split_ifs <;> rfl

theorem sameButMemory_rekey (s : State) (key pa n : Nat) : SameButMemory s (s.rekey key pa n) := by
  unfold State.rekey
  dsimp only
  split
  · rfl
  · refine foldl_keeps (SameButMemory s) _ (fun u g h => ?_) _ _ (.refl s)
    split
    · exact h
    · exact h.trans (sameButMemory_keyed u _ _)

theorem sameButLines_dirtyLines (s : State) (l : List Nat) : SameButLines s (l.foldl State.dirtyLine s) :=
  foldl_keeps (SameButLines s) _ (fun _ _ h => h.trans (sameButLines_dirtyLine _ _)) _ _ (.refl s)

/-- A write changes memory and what lies behind it alone. -/
theorem sameButMemory_writePa (s : State) (key pa n v : Nat) : SameButMemory s (s.writePa key pa n v) := by
  unfold State.writePa
  dsimp only
  split_ifs
  · rfl
  · exact (sameButLines_machineCheck s 2 pa).sameButMemory
  · have dirty := (sameButLines_dirtyLines s ((List.range ((pa + n - 1) / 128 - pa / 128 + 1)).map (· + pa / 128))).sameButMemory
    exact ((dirty.trans (sameButMemory_rekey _ key pa n)).trans (sameButMemory_coverRange _ pa n)).trans (sameButMemory_bytes _ _)
  · exact (sameButMemory_coverRange s pa n).trans (sameButMemory_bytes _ _)

/-- Steps that each leave a state as it is. -/
theorem foldl_of_fixed {α β : Type} {f : β → α → β} {s : β} {l : List α} (h : ∀ a ∈ l, f s a = s) : l.foldl f s = s := by
  induction l with
  | nil => rfl
  | cons a l ih => rw [List.foldl_cons, h a (by simp), ih fun b hb => h b (by simp [hb])]

/-- A key that a range holds already is not written again. -/
theorem rekey_of_keyHeld {s : State} {key pa n : Nat} (h : keyHeld s key pa n = true) : s.rekey key pa n = s := by
  simp only [keyHeld, Bool.and_eq_true, List.all_eq_true, List.mem_range, beq_iff_eq] at h
  unfold State.rekey
  dsimp only
  split
  · rfl
  · refine foldl_of_fixed fun g hg => if_pos ?_
    obtain ⟨i, hi, rfl⟩ := List.mem_map.mp hg
    rw [Nat.add_comm]
    exact h.2 i (List.mem_range.mp hi)

theorem keyHeld_of_lines {s t : State} (h : SameButLines s t) (key pa n : Nat) : keyHeld t key pa n = keyHeld s key pa n :=
  h.on (fun v => keyHeld v key pa n) fun _ => rfl

/-- Where a write's key is held already, it leaves its bytes over those that were there. -/
theorem writePa_mem_of_keyHeld {s : State} {key pa n v : Nat} (hn : n ≠ 0) (h : isGlobal pa = true → keyHeld s key pa n = true) :
    (s.writePa key pa n v).mem = memWrite s.mem pa n v := by
  cases hg : isGlobal pa with
  | false =>
    rw [writePa_mem s hn (cxlDown_local hg), beforeWrite, hg]
    rfl
  | true =>
    have hk := h hg
    have up : s.cxlDown pa = false := by simpa using (Bool.and_eq_true_iff.mp hk).1
    rw [writePa_mem s hn up, beforeWrite, hg, if_pos rfl, rekey_of_keyHeld ((keyHeld_of_lines (sameButLines_dirtyLines s _) ..).trans hk),
      (sameButLines_dirtyLines s _).on State.mem fun _ => rfl]

/-! ### Reads -/

theorem pack_memList (m : List Host.Cell) (a n : Nat) : pack 8 (memList m a n) = memRead m a n := by
  induction n generalizing a with
  | zero => rfl
  | succ n ih =>
    rw [memList, pack, memRead, ih, Nat.shiftLeft_eq, Nat.mod_eq_of_lt (memGet m a).isLt, Nat.mul_comm]

theorem length_memList (m : List Host.Cell) (a n : Nat) : (memList m a n).length = n := by
  induction n generalizing a with
  | zero => rfl
  | succ n ih => rw [memList, List.length_cons, ih]

/-- What is read under the key of the data is the data. -/
theorem readPa_of_keyHeld {s : State} {key pa n : Nat} (h : isGlobal pa = true → keyHeld s key pa n = true) :
    s.readPa key pa n = memRead s.mem pa n := by
  unfold State.readPa
  dsimp only
  split
  · exact pack_memList ..
  · next hg =>
    have hk : keyHeld s key pa n = true := h (by
      cases e : isGlobal pa with
      | true => rfl
      | false => simp [e] at hg)
    simp only [keyHeld, Bool.and_eq_true, List.all_eq_true, List.mem_range, beq_iff_eq] at hk
    rw [← pack_memList]
    congr 1
    conv_rhs => rw [← List.zipIdx_map_fst 0 (memList s.mem pa n)] 
    refine List.map_congr_left fun p hp => ?_
    have hi : p.2 < n := by
      have := List.snd_lt_of_mem_zipIdx hp
      simpa [length_memList] using this
    have tag := hk.2 ((pa + p.2) / 64 - pa / 64) (by omega)
    rw [show pa / 64 + ((pa + p.2) / 64 - pa / 64) = (pa + p.2) / 64 by omega] at tag
    exact if_pos tag

theorem readPa_local {s : State} {key pa n : Nat} (h : isGlobal pa = false) : s.readPa key pa n = memRead s.mem pa n :=
  readPa_of_keyHeld fun e => absurd (h.symm.trans e) (by decide)

theorem memRead_lt (m : List Host.Cell) (a n : Nat) : memRead m a n < 256 ^ n := by
  induction n generalizing a with
  | zero => simp [memRead]
  | succ n ih =>
    have := ih (a + 1)
    have := (memGet m a).isLt
    rw [memRead, Nat.pow_succ]
    omega

/-! ### The news of a write -/

theorem hear_beside (x : Ctx) (pa n : Nat) : ctxBeside (x.hear pa n) = ctxBeside x := by
  unfold Ctx.hear; split <;> rfl

theorem tget_map {α : Type} (d : α) (f : α → α) (hd : f d = d) (t : Tab α) (n : Nat) :
    tget d (t.map fun p => (p.1, f p.2)) n = f (tget d t n) := by
  induction t with
  | nil => exact hd.symm
  | cons p t ih =>
    rw [List.map_cons, tget, tget, ih]
    split <;> rfl

/-- A core whose contexts hear of a write. -/
def coreHears (pa n : Nat) (k : Core) : Core := { k with ctxs := k.ctxs.map fun q => (q.1, q.2.hear pa n) }

theorem wakeWriters_core (s : State) (pa n c : Nat) :
    (s.wakeWriters pa n).core c = s.core c ∨ (s.wakeWriters pa n).core c = coreHears pa n (s.core c) := by
  unfold State.wakeWriters
  split
  · exact .inr (tget_map Core.reset (coreHears pa n) rfl s.cores c)
  · exact .inl rfl

theorem coreHears_ctx (pa n : Nat) (k : Core) (j : Nat) : (coreHears pa n k).ctx j = (k.ctx j).hear pa n :=
  tget_map Ctx.empty (fun x => x.hear pa n) rfl k.ctxs j

theorem sameButIssue_wakeWriters (s : State) (pa n : Nat) : SameButIssue s (s.wakeWriters pa n) := by
  refine ⟨by unfold State.wakeWriters; split <;> rfl, fun c => ?_, fun c j => ?_⟩
  · rcases wakeWriters_core s pa n c with e | e <;> rw [e]
    rfl
  · unfold State.ctx
    rcases wakeWriters_core s pa n c with e | e <;> rw [e]
    rw [coreHears_ctx, hear_beside]

theorem wakeWriters_bun (s : State) (pa n : Nat) : (s.wakeWriters pa n).bun = s.bun := by
  unfold State.wakeWriters; split <;> rfl

end Sys2Proof.Proofs


/-! PROOFS. Bit fields of a number with a field replaced (R8). -/

namespace Sys2Proof.Proofs

open Sys2Proof.Machine Sys2Proof.Safety Sys2Proof.Laws

/-! ### Bit fields -/

theorem bits_eq (x lo n : Nat) : bits x lo n = x / 2 ^ lo % 2 ^ n := by rw [bits, Nat.shiftRight_eq_div_pow]

/-- A number with a field replaced: what was below it, the new field, what was above it. -/
theorem setBits_eq (x lo n v : Nat) :
    setBits x lo n v = x % 2 ^ lo + 2 ^ lo * (v % 2 ^ n + 2 ^ n * (x / 2 ^ (lo + n))) := by
  have split : x = x % 2 ^ lo + 2 ^ lo * (x / 2 ^ lo % 2 ^ n + 2 ^ n * (x / 2 ^ (lo + n))) := by
    rw [Nat.pow_add, ← Nat.div_div_eq_div_mul, Nat.mod_add_div, Nat.mod_add_div]
  unfold setBits
  rw [Nat.shiftRight_eq_div_pow, Nat.shiftLeft_eq, Nat.shiftLeft_eq]
  generalize x / 2 ^ lo % 2 ^ n = m at split ⊢
  generalize x / 2 ^ (lo + n) = h at split ⊢
  generalize x % 2 ^ lo = a at split ⊢
  subst split
  rw [Nat.mul_add, Nat.mul_add, Nat.mul_comm m, Nat.mul_comm (v % 2 ^ n)]
  omega

theorem bits_setBits_same (x lo n v : Nat) : bits (setBits x lo n v) lo n = v % 2 ^ n := by
  rw [bits_eq, setBits_eq, Nat.add_mul_div_left _ _ (Nat.two_pow_pos lo), Nat.div_eq_of_lt (Nat.mod_lt _ (Nat.two_pow_pos lo)),
    Nat.zero_add, Nat.add_mul_mod_self_left, Nat.mod_mod]

/-- A field above the one replaced. -/
theorem bits_setBits_above (x v : Nat) {lo n lo' n' : Nat} (h : lo + n ≤ lo') : bits (setBits x lo n v) lo' n' = bits x lo' n' := by
  obtain ⟨k, rfl⟩ := Nat.exists_eq_add_of_le h
  have top : setBits x lo n v / 2 ^ (lo + n) = x / 2 ^ (lo + n) := by
    rw [setBits_eq, Nat.pow_add, ← Nat.div_div_eq_div_mul, Nat.add_mul_div_left _ _ (Nat.two_pow_pos lo),
      Nat.div_eq_of_lt (Nat.mod_lt _ (Nat.two_pow_pos lo)), Nat.zero_add, Nat.add_mul_div_left _ _ (Nat.two_pow_pos n),
      Nat.div_eq_of_lt (Nat.mod_lt _ (Nat.two_pow_pos n)), Nat.zero_add]
  rw [bits_eq, bits_eq, Nat.pow_add _ (lo + n), ← Nat.div_div_eq_div_mul, ← Nat.div_div_eq_div_mul, top]

/-- A field of the lower bits. -/
theorem bits_mod (x : Nat) {lo n w : Nat} (h : lo + n ≤ w) : bits (x % 2 ^ w) lo n = bits x lo n := by
  obtain ⟨k, rfl⟩ := Nat.exists_eq_add_of_le h
  rw [bits_eq, bits_eq, Nat.add_assoc, Nat.pow_add, Nat.mod_mul_right_div_self, Nat.pow_add, Nat.mod_mul_right_mod]

/-- A field below the one replaced. -/
theorem bits_setBits_below (x v : Nat) {lo n lo' n' : Nat} (h : lo' + n' ≤ lo) : bits (setBits x lo n v) lo' n' = bits x lo' n' := by
  rw [← bits_mod _ h, setBits_eq, Nat.add_mul_mod_self_left, Nat.mod_mod, bits_mod _ h]

end Sys2Proof.Proofs


/-! PROOFS. mwait (R384). -/

namespace Sys2Proof.Proofs

open Sys2Proof.Machine Sys2Proof.Safety Sys2Proof.Laws

/-! ### mwait -/

theorem not_thas_tdel {α : Type} (t : Tab α) (n : Nat) : thas (tdel t n) n = false := by
  simp [thas, tdel]

/-- The state in which an mwait answers or begins to wait: its line has left L1. -/
def mwaitSeen (s : State) (pa : Nat) : State := (s.dropLine s.bun.core pa).downAccess pa

theorem sameButLines_mwaitSeen (s : State) (pa : Nat) : SameButLines (s.dropLine s.bun.core pa) (mwaitSeen s pa) :=
  sameButLines_downAccess _ _

theorem sameCtxs_dropLine (s : State) (c pa : Nat) : SameCtxs s (s.dropLine c pa) := sameCtxs_modCore fun _ => rfl

theorem dropLine_l1 (s : State) (c pa : Nat) : thas ((s.dropLine c pa).core c).l1 (pa / 128) = false := by
  unfold State.dropLine
  rw [modCore_core_same]
  exact not_thas_tdel _ _

@[simp] theorem mwaitSeen_ctx (s : State) (pa n j : Nat) : (mwaitSeen s pa).ctx n j = s.ctx n j :=
  ((sameButLines_mwaitSeen s pa).on (fun v => v.ctx n j) fun _ => rfl).trans ((sameCtxs_dropLine s _ pa).ctx n j)

@[simp] theorem mwaitSeen_bun (s : State) (pa : Nat) : (mwaitSeen s pa).bun = s.bun :=
  (sameButLines_mwaitSeen s pa).on State.bun fun _ => rfl
@[simp] theorem mwaitSeen_mem (s : State) (pa : Nat) : (mwaitSeen s pa).mem = s.mem :=
  (sameButLines_mwaitSeen s pa).on State.mem fun _ => rfl
@[simp] theorem mwaitSeen_nextId (s : State) (pa : Nat) : (mwaitSeen s pa).nextId = s.nextId :=
  (sameButLines_mwaitSeen s pa).on State.nextId fun _ => rfl
@[simp] theorem mwaitSeen_mhz (s : State) (pa : Nat) : (mwaitSeen s pa).mhz = s.mhz :=
  (sameButLines_mwaitSeen s pa).on State.mhz fun _ => rfl

theorem mwaitSeen_l1 (s : State) (pa : Nat) : thas ((mwaitSeen s pa).core s.bun.core).l1 (pa / 128) = false := by
  rw [(sameButLines_mwaitSeen s pa).on (fun v => (v.core s.bun.core).l1) fun _ => rfl]
  exact dropLine_l1 ..

/-- A load that waits under the interlock, as a form adds it. -/
def loadOf (id d pa va key : Nat) (done : Option (Word × Nat)) : Load := ⟨id, d, pa, va, key, none, none, none, done, false, false⟩

/-! What an added load and a wait leave of the issuing context and of the rest. -/

section

variable (s : State) (d pa va key : Nat) (done : Option (Word × Nat)) (w : Wait)

@[simp] theorem newLoad_bun : (s.newLoad d pa va key done).bun = s.bun := rfl
@[simp] theorem newLoad_mem : (s.newLoad d pa va key done).mem = s.mem := rfl
@[simp] theorem await_bun : (s.await w).bun = s.bun := rfl
@[simp] theorem await_mem : (s.await w).mem = s.mem := rfl

theorem newLoad_me : (s.newLoad d pa va key done).me = { s.me with loads := s.me.loads ++ [loadOf s.nextId d pa va key done] } :=
  modCtx_ctx_same s s.bun.core s.bun.ctx fun x => { x with loads := x.loads ++ [loadOf s.nextId d pa va key done] }

theorem await_me {s : State} {w : Wait} (h : s.me.wait = .none) : (s.await w).me = { s.me with wait := w } :=
  (modCtx_ctx_same ..).trans (if_pos h)

@[simp] theorem newLoad_l1 (n : Nat) : ((s.newLoad d pa va key done).core n).l1 = (s.core n).l1 :=
  modCtx_core_field Core.l1 (fun _ _ => rfl) s s.bun.core s.bun.ctx n fun x =>
    { x with loads := x.loads ++ [loadOf s.nextId d pa va key done] }

@[simp] theorem await_l1 (n : Nat) : ((s.await w).core n).l1 = (s.core n).l1 :=
  modCtx_core_field Core.l1 (fun _ _ => rfl) ..

theorem mwaitSeen_me : (mwaitSeen s pa).me = s.me := by
  rw [State.me, mwaitSeen_bun, mwaitSeen_ctx, State.me]

end

section

variable {s : State} {d pa key n : Nat} {va g v : Word}

/-- Whether an mwait finds the value it waits past. -/
def mwaitSame (s : State) (pa key n : Nat) (v : Word) : Prop :=
  s.readPa key pa n = v.toNat % 2 ^ (8 * n) ∧ s.poisonedAt pa n = false

theorem mwaitSame_iff (s : State) (pa key n : Nat) (v : Word) :
    ¬(s.readPa key pa n ≠ v.toNat % 2 ^ (8 * n) ∨ b2n (s.poisonedAt pa n) = 1) ↔ mwaitSame s pa key n v := by
  unfold mwaitSame b2n
  cases s.poisonedAt pa n <;> simp

theorem toNat_wd {k : Nat} (h : k < 2 ^ 64) : (wd k).toNat = k := by
  rw [wd, BitVec.toNat_ofNat, Nat.mod_eq_of_lt h]

theorem applyMwait_differs (hpa : pa < 2 ^ 64) (hkey : key < 2 ^ 64) (hn : n < 2 ^ 64) (h : ¬mwaitSame s pa key n v) :
    s.applyMwait d [wd pa, va, wd key, g, v, wd n] =
      (mwaitSeen s pa).newLoad d pa va.toNat key (some (wd (s.readPa key pa n), b2n (s.poisonedAt pa n))) := by
  unfold State.applyMwait
  simp only [nth, List.getD_cons_zero, List.getD_cons_succ, toNat_wd hpa, toNat_wd hkey, toNat_wd hn]
  rw [if_pos (not_not.mp fun e => h ((mwaitSame_iff ..).mp e))]
  rfl

theorem applyMwait_same (hpa : pa < 2 ^ 64) (hkey : key < 2 ^ 64) (hn : n < 2 ^ 64) (h : mwaitSame s pa key n v) :
    s.applyMwait d [wd pa, va, wd key, g, v, wd n] =
      ((mwaitSeen s pa).newLoad d pa va.toNat key none).await (.line pa (s.bun.t + 2 + 1000 * s.mhz) n key s.nextId) := by
  unfold State.applyMwait
  simp only [nth, List.getD_cons_zero, List.getD_cons_succ, toNat_wd hpa, toNat_wd hkey, toNat_wd hn]
  rw [if_neg ((mwaitSame_iff ..).mpr h), State.cyclesOf,
    show ((s.dropLine s.bun.core pa).downAccess pa).bun = s.bun from mwaitSeen_bun s pa,
    show ((s.dropLine s.bun.core pa).downAccess pa).nextId = s.nextId from mwaitSeen_nextId s pa,
    show ((s.dropLine s.bun.core pa).downAccess pa).mhz = s.mhz from mwaitSeen_mhz s pa]
  rfl

end

/-- An effect that drops a line from L1 and changes the issuing context by g. -/
theorem ends_of_lineDropped {s : State} {e : Eff} {pa : Nat} (g : Ctx → Ctx) (h : committing s [e]) (hr : e.reads = false)
    (hb : rollsBack e = false) (hh : ∀ a, e ≠ .handlerReturn a)
    (he : ∀ u, SameButIssue s u → u.bun = s.bun → (u.applyEff e).bun = u.bun ∧ (u.applyEff e).mem = u.mem ∧
      (u.applyEff e).me = g u.me ∧ thas ((u.applyEff e).core u.bun.core).l1 (pa / 128) = false) :
    ∃ t x, Ends s t ∧ ctxBeside x = ctxBeside (issuer s s) ∧ ctxBeside (issuer s t) = ctxBeside (g x) ∧
      thas (t.core s.bun.core).l1 (pa / 128) = false ∧ t.mem = s.mem := by
  obtain ⟨u, hu, hbun, go⟩ := ends_of_committing h hr hb hh
  obtain ⟨ebun, emem, eme, el1⟩ := he u hu hbun
  obtain ⟨t, ht, hs⟩ := go ebun
  refine ⟨t, u.me, ht, ?_, ?_, ?_, hs.mem.trans (emem.trans hu.mem)⟩
  · rw [State.me, hbun]; exact hu.ctx _ _
  · rw [← eme, State.me, ebun, hbun]; exact hs.ctx _ _
  · rw [hs.onCore Core.l1 fun _ => rfl, ← hbun]; exact el1

section

variable {s : State} {i : Instr} {d pa key n : Nat} {va g v : Word}

/-- What an mwait waits past is the value in memory, where the granules hold the key of its reads. -/
theorem mwaitSame_congr {u : State} (hu : SameButIssue s u) (hk : isGlobal pa = true → keyHeld s key pa n = true) :
    mwaitSame u pa key n v ↔ memRead s.mem pa n = v.toNat % 2 ^ (8 * n) ∧ s.poisonedAt pa n = false := by
  unfold mwaitSame
  rw [hu.onState (fun x => x.readPa key pa n) fun _ => rfl, hu.onState (fun x => x.poisonedAt pa n) fun _ => rfl, readPa_of_keyHeld hk]

theorem ends_mwait_differs (hn : n < 2 ^ 64)
    (hi : ∀ u : State, u.applyEff (.sched i [wd pa, va, wd key, g, v, wd n]) = u.applyMwait d [wd pa, va, wd key, g, v, wd n])
    (hr : rollsBack (.sched i [wd pa, va, wd key, g, v, wd n]) = false) (hpa : pa < 2 ^ 64) (hkey : key < 2 ^ 64)
    (h : committing s [.sched i [wd pa, va, wd key, g, v, wd n]]) (hk : isGlobal pa = true → keyHeld s key pa n = true)
    (hv : ¬(memRead s.mem pa n = v.toNat % 2 ^ (8 * n) ∧ s.poisonedAt pa n = false)) :
    ∃ t l, Ends s t ∧ l ∈ (issuer s t).loads ∧ l.dest = d ∧ l.done = some (wd (memRead s.mem pa n), b2n (s.poisonedAt pa n)) ∧
      thas (t.core s.bun.core).l1 (pa / 128) = false ∧ (issuer s t).wait = (issuer s s).wait ∧ t.mem = s.mem := by
  let l := loadOf s.nextId d pa va.toNat key (some (wd (memRead s.mem pa n), b2n (s.poisonedAt pa n)))
  obtain ⟨t, x, ht, hx, hg, hl, hm⟩ := ends_of_lineDropped (fun x => { x with loads := x.loads ++ [l] }) h rfl hr (by simp)
    fun u hu _ => by
      rw [hi, applyMwait_differs hpa hkey hn fun e => hv ((mwaitSame_congr hu hk).mp e), 
        hu.onState (fun x => x.readPa key pa n) fun _ => rfl, hu.onState (fun x => x.poisonedAt pa n) fun _ => rfl, readPa_of_keyHeld hk]
      exact ⟨by simp, by simp, by rw [newLoad_me, mwaitSeen_me, mwaitSeen_nextId, hu.onState State.nextId fun _ => rfl],
        by rw [newLoad_l1, mwaitSeen_l1]⟩
  refine ⟨t, l, ht, ?_, rfl, rfl, hl, ?_, hm⟩
  · rw [ctx_eq_of_beside hg Ctx.loads fun _ => rfl]; simp
  · exact (ctx_eq_of_beside hg Ctx.wait fun _ => rfl).trans (ctx_eq_of_beside hx Ctx.wait fun _ => rfl)

theorem ends_mwait_same (hn : n < 2 ^ 64)
    (hi : ∀ u : State, u.applyEff (.sched i [wd pa, va, wd key, g, v, wd n]) = u.applyMwait d [wd pa, va, wd key, g, v, wd n])
    (hr : rollsBack (.sched i [wd pa, va, wd key, g, v, wd n]) = false) (hpa : pa < 2 ^ 64) (hkey : key < 2 ^ 64)
    (h : committing s [.sched i [wd pa, va, wd key, g, v, wd n]]) (hk : isGlobal pa = true → keyHeld s key pa n = true)
    (hv : memRead s.mem pa n = v.toNat % 2 ^ (8 * n) ∧ s.poisonedAt pa n = false) (hw : (issuer s s).wait = .none) :
    ∃ t l, Ends s t ∧ l ∈ (issuer s t).loads ∧ l.id = s.nextId ∧ l.dest = d ∧ l.done = none ∧
      (issuer s t).wait = .line pa (s.bun.t + 2 + 1000 * s.mhz) n key s.nextId ∧
      thas (t.core s.bun.core).l1 (pa / 128) = false ∧ t.mem = s.mem := by
  let l := loadOf s.nextId d pa va.toNat key none
  obtain ⟨t, x, ht, hx, hg, hl, hm⟩ := ends_of_lineDropped
    (fun x => { x with loads := x.loads ++ [l], wait := .line pa (s.bun.t + 2 + 1000 * s.mhz) n key s.nextId }) h rfl hr (by simp)
    fun u hu hb => by
      have huw : u.me.wait = .none := by rw [State.me, hb, hu.onCtx Ctx.wait fun _ => rfl]; exact hw
      rw [hi, applyMwait_same hpa hkey hn ((mwaitSame_congr hu hk).mpr hv), hu.onState State.mhz fun _ => rfl,
        hu.onState State.nextId fun _ => rfl]
      refine ⟨by simp, by simp, ?_, by rw [await_l1, newLoad_l1, mwaitSeen_l1]⟩
      rw [await_me (by rw [newLoad_me, mwaitSeen_me]; exact huw), newLoad_me, mwaitSeen_me, mwaitSeen_nextId,
        hu.onState State.nextId fun _ => rfl, hb]
  refine ⟨t, l, ht, ?_, rfl, rfl, rfl, ?_, hl, hm⟩
  · rw [ctx_eq_of_beside hg Ctx.loads fun _ => rfl]; simp
  · exact ctx_eq_of_beside hg Ctx.wait fun _ => rfl

end

end Sys2Proof.Proofs


/-! PROOFS. Results scheduled and landed (R75, R76), and the control words of queues (R308, R310). -/

namespace Sys2Proof.Proofs

open Sys2Proof.Machine Sys2Proof.Safety Sys2Proof.Laws

/-! ### Results land -/

/-- A bank is read through its context's number of it. -/
theorem bankOf_congr {s t : State} {c j : Nat} (hb : (t.ctx c j).bank = (s.ctx c j).bank) (hk : (t.core c).banks = (s.core c).banks) :
    t.bankOf c j = s.bankOf c j := by
  unfold State.bankOf Core.bank; rw [hb, hk]

/-- A change of a context that keeps its bank's number. -/
theorem modCtx_bankOf {s : State} {c j : Nat} {f : Ctx → Ctx} (h : (f (s.ctx c j)).bank = (s.ctx c j).bank) (n k : Nat) :
    (s.modCtx c j f).bankOf n k = s.bankOf n k := by
  refine bankOf_congr ?_ (modCtx_core_field Core.banks (fun _ _ => rfl) ..)
  rw [modCtx_ctx]
  split
  · next e => rw [h, e.1, e.2]
  · rfl

theorem sameCtxs_modBank (s : State) (c j : Nat) (f : Bank → Bank) : SameCtxs s (s.modBank c j f) := by
  unfold State.modBank
  split
  · exact sameCtxs_modCore fun _ => rfl
  · exact .refl s

theorem modBank_bankOf {s : State} {c j : Nat} (f : Bank → Bank) (h : (s.ctx c j).bank.isSome = true) :
    (s.modBank c j f).bankOf c j = f (s.bankOf c j) := by
  obtain ⟨b, hb⟩ := Option.isSome_iff_exists.mp h
  rw [State.bankOf, (sameCtxs_modBank s c j f).ctx, hb]
  simp [State.modBank, State.bankOf, hb, Core.bank]

/-- Nothing lands before it is due. -/
theorem landUntil_early {s : State} {c j m : Nat} (h : ∀ l ∈ (s.ctx c j).land, m < l.due) : s.landUntil c j m = s := by
  have none_ : (s.ctx c j).land.filter (fun l => decide (l.due ≤ m)) = [] :=
    List.filter_eq_nil_iff.mpr fun l hl => by simpa using h l hl
  unfold State.landUntil
  simp only [none_, List.isEmpty_nil, if_true]

/-- Results that are all due land in their bank, in order; outside a phase poison among them is no consumption. -/
theorem landUntil_late {s : State} {c j m : Nat} (h : ∀ l ∈ (s.ctx c j).land, l.due ≤ m) (hb : (s.ctx c j).bank.isSome = true)
    (hp : (s.ctx c j).phase.opened = false) :
    (s.landUntil c j m).bankOf c j = (s.ctx c j).land.foldl (fun b l => b.land l.dest l.val) (s.bankOf c j) ∧
      (s.landUntil c j m).mem = s.mem := by
  have all_ : (s.ctx c j).land.filter (fun l => decide (l.due ≤ m)) = (s.ctx c j).land :=
    List.filter_eq_self.mpr fun l hl => by simpa using h l hl
  unfold State.landUntil
  simp only [all_, hp, Bool.false_and, Bool.false_eq_true, if_false]
  split
  · next e => rw [List.isEmpty_iff.mp e]; exact ⟨rfl, rfl⟩
  · refine ⟨?_, modBank_mem ..⟩
    let s1 := s.modCtx c j fun x => { x with land := x.land.filter fun l => !decide (l.due ≤ m) }
    have some1 : (s1.ctx c j).bank.isSome = true := by rw [modCtx_ctx_same]; exact hb
    have bank1 : s1.bankOf c j = s.bankOf c j := modCtx_bankOf rfl c j
    exact (modBank_bankOf (s := s1) _ some1).trans (by rw [bank1])

/-! ### Results are scheduled -/

/-- The landing of a result of the bundle in hand. -/
def landingOf (s : State) (lat : Nat) (d : Dest) (v : Val) : Landing :=
  ⟨s.bun.t + lat, s.me.seq, d, v, false, s.bun.mirror.contains d⟩

@[simp] theorem schedule_bun (s : State) (lat : Nat) (d : Dest) (v : Val) (b : Bool) : (s.schedule lat d v b).bun = s.bun := rfl
@[simp] theorem schedule_mem (s : State) (lat : Nat) (d : Dest) (v : Val) (b : Bool) : (s.schedule lat d v b).mem = s.mem := rfl

theorem schedule_me (s : State) (lat : Nat) (d : Dest) (v : Val) :
    (s.schedule lat d v false).me = { s.me with land := insertLanding (landingOf s lat d v) s.me.land } :=
  modCtx_ctx_same s s.bun.core s.bun.ctx fun x =>
    { x with land := insertLanding ⟨s.bun.t + lat, x.seq, d, v, false, s.bun.mirror.contains d⟩ x.land }

theorem schedule_bankOf (s : State) (lat : Nat) (d : Dest) (v : Val) (b : Bool) (c j : Nat) :
    (s.schedule lat d v b).bankOf c j = s.bankOf c j := by
  unfold State.schedule State.modMe
  exact modCtx_bankOf rfl c j

/-- A result goes after those that are due no later. -/
theorem insertLanding_last {x : Landing} {l : List Landing} (h : ∀ y ∈ l, y.due ≤ x.due) : insertLanding x l = l ++ [x] := by
  induction l with
  | nil => rfl
  | cons y l ih =>
    rw [insertLanding, if_neg (by simpa using h y (by simp)), ih fun z hz => h z (by simp [hz]), List.cons_append]

/-! ### Queue control words -/

theorem toNat_wd_mod (n : Nat) : (wd n).toNat = n % 2 ^ 64 := by rw [wd, BitVec.toNat_ofNat]

theorem bit_eq_bits (x k : Nat) : bit x k = (bits x k 1 == 1) := rfl

theorem qTail_le (q : Nat) : qDepth q ≤ 2 ^ 8 := by
  have := Nat.mod_lt (q >>> 29) (Nat.two_pow_pos 8)
  unfold qDepth bits
  omega

theorem qPlace_lt (q n : Nat) : n % qDepth q < 2 ^ 8 :=
  Nat.lt_of_lt_of_le (Nat.mod_lt _ (Nat.succ_pos _)) (qTail_le q)

theorem qCnt_pushed (q : Nat) : qCnt (wd (qPushed q)).toNat = (qCnt q + 1) % 2 ^ 9 := by
  rw [toNat_wd_mod, qCnt, bits_mod _ (by omega), qPushed, bits_setBits_same]

theorem qTail_pushed (q : Nat) : qTail (wd (qPushed q)).toNat = (qTail q + 1) % qDepth q := by
  rw [toNat_wd_mod, qTail, bits_mod _ (by omega), qPushed, bits_setBits_above _ _ (by omega), bits_setBits_same,
    Nat.mod_eq_of_lt (qPlace_lt q _)]

theorem qCnt_popped (q : Nat) : qCnt (wd (qPopped q)).toNat = qCnt q - 1 := by
  have : qCnt q < 2 ^ 9 := Nat.mod_lt _ (Nat.two_pow_pos 9)
  rw [toNat_wd_mod, qCnt, bits_mod _ (by omega), qPopped, bits_setBits_same, Nat.mod_eq_of_lt (by omega)]

theorem qHead_popped (q : Nat) : qHead (wd (qPopped q)).toNat = (qHead q + 1) % qDepth q := by
  rw [toNat_wd_mod, qHead, bits_mod _ (by omega), qPopped, bits_setBits_above _ _ (by omega), bits_setBits_same,
    Nat.mod_eq_of_lt (qPlace_lt q _)]

theorem qTail_popped (q : Nat) : qTail (wd (qPopped q)).toNat = qTail q := by
  rw [toNat_wd_mod, qTail, bits_mod _ (by omega), qPopped, bits_setBits_above _ _ (by omega), bits_setBits_below _ _ (by omega), qTail]

/-! ### The tail is taken -/

theorem takeTail_queue (b : Bank) (k : Nat) (f : Bool) : (b.takeTail k f).queue k = (wd (qPushed (b.queue k))).toNat := by
  unfold Bank.takeTail Bank.queue
  cases f <;> simp [Bank.fillElem]

theorem takeTail_present (b : Bank) (k : Nat) : bit (tget 0 (b.takeTail k true).present k) (qTail (b.queue k)) = true := by
  have p : tget 0 (b.takeTail k true).present k = setBits (tget 0 b.present k) (qTail (b.queue k)) 1 1 := by
    simp [Bank.takeTail, Bank.fillElem]
  rw [p, bit_eq_bits, bits_setBits_same]
  rfl

/-! ### The head is given up -/

theorem pop_queue (b : Bank) (k : Nat) : (b.pop k).queue k = (wd (qPopped (b.queue k))).toNat := by
  simp [Bank.pop, Bank.queue]

theorem pop_queue_other (b : Bank) {k n : Nat} (h : n ≠ k) : (b.pop k).queue n = b.queue n := by
  simp [Bank.pop, Bank.queue, tget_tset_other, h]

theorem pop_present (b : Bank) (k : Nat) : bit (tget 0 (b.pop k).present k) (qHead (b.queue k)) = false := by
  have p : tget 0 (b.pop k).present k = setBits (tget 0 b.present k) (qHead (b.queue k)) 1 0 := by simp [Bank.pop]
  rw [p, bit_eq_bits, bits_setBits_same]
  rfl

theorem pop_present_other (b : Bank) {k n : Nat} (h : n ≠ k) : tget 0 (b.pop k).present n = tget 0 b.present n := by
  simp [Bank.pop, tget_tset_other, h]

/-- Pops of other queues. -/
theorem pops_other (ks : List Nat) (b : Bank) {n : Nat} (h : n ∉ ks) :
    (ks.foldl Bank.pop b).queue n = b.queue n ∧ tget 0 (ks.foldl Bank.pop b).present n = tget 0 b.present n := by
  induction ks generalizing b with
  | nil => exact ⟨rfl, rfl⟩
  | cons k ks ih =>
    obtain ⟨hk, hks⟩ := not_or.mp (List.mem_cons.not.mp h)
    rw [List.foldl_cons, (ih _ hks).1, (ih _ hks).2]
    exact ⟨pop_queue_other b hk, pop_present_other b hk⟩

/-- Pops of different queues, that of n among them. -/
theorem pops_mem {ks : List Nat} (hd : ks.Nodup) (b : Bank) {n : Nat} (h : n ∈ ks) :
    (ks.foldl Bank.pop b).queue n = (b.pop n).queue n ∧ tget 0 (ks.foldl Bank.pop b).present n = tget 0 (b.pop n).present n := by
  induction ks generalizing b with
  | nil => simp at h
  | cons k ks ih =>
    obtain ⟨hk, hks⟩ := List.nodup_cons.mp hd
    rw [List.foldl_cons]
    by_cases e : n = k
    · subst e
      exact pops_other ks _ hk
    · obtain ⟨q, p⟩ := ih hks (b.pop k) ((List.mem_cons.mp h).resolve_left e)
      rw [q, p, pop_queue, pop_queue, pop_queue_other b e]
      refine ⟨rfl, ?_⟩
      simp [Bank.pop, tget_tset_other, e, Bank.queue]

/-- A pop of the bundle in hand. -/
def popLanding (s : State) (k : Nat) : Landing := landingOf s 2 (.qhead k) (.move false)

/-- The pops of a commit are due two cycles after the issue. -/
theorem applyPops_me {s : State} (h : s.me.land = []) (pop : Nat) :
    (s.applyPops pop).me = { s.me with land := ((List.range 8).filter (bit pop)).map (popLanding s) } ∧
      (s.applyPops pop).bun = s.bun ∧ (s.applyPops pop).mem = s.mem ∧ (s.applyPops pop).bankOf s.bun.core s.bun.ctx = s.bankOf s.bun.core s.bun.ctx := by
  unfold State.applyPops
  generalize List.range 8 = ks
  induction ks using List.reverseRecOn with
  | nil => exact ⟨by simp [← h], rfl, rfl, rfl⟩
  | append_singleton ks k ih =>
    rw [List.foldl_append, List.foldl_cons, List.foldl_nil, List.filter_append, List.map_append]
    generalize List.foldl _ s ks = u at ih ⊢
    obtain ⟨me, hbun, hmem, hbank⟩ := ih
    split
    · next hk =>
      have one : landingOf u 2 (.qhead k) (.move false) = popLanding s k := by simp only [landingOf, popLanding, hbun, me]
      have due : ∀ y ∈ u.me.land, y.due ≤ (popLanding s k).due := by
        intro y hy
        rw [me] at hy
        obtain ⟨i, -, rfl⟩ := List.mem_map.mp hy
        exact le_rfl
      refine ⟨?_, hbun, hmem, (schedule_bankOf ..).trans hbank⟩
      rw [schedule_me, one, insertLanding_last due, me]
      simp [hk]
    · next hk => exact ⟨by simpa [hk] using me, hbun, hmem, hbank⟩

end Sys2Proof.Proofs


/-! PROOFS. Pushes and pops of queues (R72, R310). -/

namespace Sys2Proof.Proofs

open Sys2Proof.Machine Sys2Proof.Safety Sys2Proof.Laws

/-! ### A write of the committing strand outside the address space -/

theorem perform_local {s : State} {pa n : Nat} (uid v : Nat) (hg : isGlobal pa = false) :
    s.perform uid 0 0 0 pa n v = (s.writePa 0 pa n v).wakeWriters pa n := by
  have fills : s.l2Fills 0 pa n = s := if_pos rfl
  unfold State.perform
  rw [cxlDown_local hg, fills]
  rfl

/-- What such a write leaves: its bytes, and news of it. -/
theorem perform_local_rest {s : State} {pa n : Nat} (uid v : Nat) (hg : isGlobal pa = false) (hn : n ≠ 0) :
    (s.perform uid 0 0 0 pa n v).mem = memWrite s.mem pa n v ∧ (s.perform uid 0 0 0 pa n v).bun = s.bun ∧
      (∀ c j, (s.perform uid 0 0 0 pa n v).bankOf c j = s.bankOf c j) ∧
      ∀ c j, ctxBeside ((s.perform uid 0 0 0 pa n v).ctx c j) = ctxBeside (s.ctx c j) := by
  rw [perform_local uid v hg]
  have write := sameButMemory_writePa s 0 pa n v
  have news := sameButIssue_wakeWriters (s.writePa 0 pa n v) pa n
  refine ⟨?_, ?_, fun c j => ?_, fun c j => ?_⟩
  · rw [news.mem, writePa_mem_of_keyHeld hn fun e => absurd (hg.symm.trans e) (by decide)]
  · rw [wakeWriters_bun, write.on State.bun fun _ => rfl]
  · rw [news.bankOf, write.on (fun x => x.bankOf c j) fun _ => rfl]
  · rw [news.ctx, write.on (fun x => x.ctx c j) fun _ => rfl]

/-! ### A push -/

/-- The address of the element that a push of queue k takes when no other is in flight. -/
def pushAt (s : State) (k : Nat) : Nat :=
  (s.allot s.bun.core s.me.crew).1 + qBase (s.queue k) + qTail (s.queue k) % qDepth (s.queue k) * qEsz (s.queue k)

theorem applyEff_qpush {s : State} (h : s.me.land = []) (k : Nat) (a b : Word) (n : Nat) :
    s.applyEff (.qpush k a b n) =
      (s.perform s.me.uid 0 0 0 (pushAt s k) n ((a.toNat + b.toNat * 2 ^ 64) % 2 ^ (8 * n))).schedule 2 (.qtail k) (.move true) false := by
  have next : s.qNext k = qTail (s.queue k) % qDepth (s.queue k) := by simp [State.qNext, State.qReserved, h]
  rw [pushAt, ← next]
  rfl

theorem pushAt_congr {s u : State} (hu : SameButIssue s u) (hb : u.bun = s.bun) (k : Nat) : pushAt u k = pushAt s k := by
  unfold pushAt State.queue State.mb State.me
  rw [hb, hu.onCtx Ctx.crew fun _ => rfl, hu.allot, hu.bankOf]

/-- What a push leaves before its tail is taken. -/
theorem ends_qpush_begins {s : State} {k n : Nat} {a b : Word} (h : committing s [.qpush k a b n]) (hn : n ≠ 0)
    (hl : (issuer s s).land = []) (hg : isGlobal (pushAt s k) = false) :
    ∃ t l, Ends s t ∧ t.mem = memWrite s.mem (pushAt s k) n ((a.toNat + b.toNat * 2 ^ 64) % 2 ^ (8 * n)) ∧
      issuerBank s t = issuerBank s s ∧ (issuer s t).land = [l] ∧ l.due = s.bun.t + 2 ∧ l.dest = .qtail k ∧ l.val = .move true ∧
      (issuer s t).bank = (issuer s s).bank ∧ (issuer s t).phase = (issuer s s).phase := by
  obtain ⟨u, hu, hb, go⟩ := ends_of_committing h rfl rfl (by simp)
  have land : u.me.land = [] := by rw [State.me, hb, hu.onCtx Ctx.land fun _ => rfl]; exact hl
  have place := pushAt_congr hu hb k
  obtain ⟨pmem, pbun, pbank, pctx⟩ := perform_local_rest (s := u) (pa := pushAt u k) u.me.uid
    ((a.toNat + b.toNat * 2 ^ 64) % 2 ^ (8 * n)) (by rw [place]; exact hg) hn
  rw [applyEff_qpush land] at go
  generalize u.perform _ _ _ _ _ _ _ = p at pmem pbun pbank pctx go
  obtain ⟨t, ht, hs⟩ := go pbun
  have pme : ctxBeside p.me = ctxBeside (issuer s s) := by rw [State.me, pbun, pctx, hb]; exact hu.ctx _ _
  have noLand : p.me.land = [] := (ctx_eq_of_beside pme Ctx.land fun _ => rfl).trans hl
  have tme : ctxBeside (issuer s t) = ctxBeside { p.me with land := [landingOf p 2 (.qtail k) (.move true)] } := by
    rw [show [landingOf p 2 (.qtail k) (.move true)] = insertLanding (landingOf p 2 (.qtail k) (.move true)) p.me.land by
      rw [noLand]; rfl, ← schedule_me, State.me, schedule_bun, pbun, hb]
    exact hs.ctx _ _
  refine ⟨t, landingOf p 2 (.qtail k) (.move true), ht, ?_, ?_, ctx_eq_of_beside tme Ctx.land fun _ => rfl, ?_, rfl, rfl,
    (ctx_eq_of_beside tme Ctx.bank fun _ => rfl).trans (ctx_eq_of_beside pme Ctx.bank fun _ => rfl),
    (ctx_eq_of_beside tme Ctx.phase fun _ => rfl).trans (ctx_eq_of_beside pme Ctx.phase fun _ => rfl)⟩
  · rw [hs.mem, schedule_mem, pmem, place, hu.mem]
  · rw [issuerBank, hs.bankOf, schedule_bankOf, pbank, hu.bankOf, issuerBank]
  · rw [landingOf, pbun, hb]

theorem sameBytesBut_memWrite {s t : State} {pa n v : Nat} (h : MemoryCanonical s) (hm : t.mem = memWrite s.mem pa n v) :
    SameBytesBut pa n s t := by
  intro a ha
  rw [byteAt, hm, memGet_memWrite_other h ha, byteAt]

theorem pow_bytes (n : Nat) : 256 ^ n = 2 ^ (8 * n) := by rw [Nat.pow_mul]

theorem ends_qpush {s : State} {k n : Nat} {a b : Word} (h : committing s [.qpush k a b n]) (hc : MemoryCanonical s)
    (hbank : (issuer s s).bank.isSome = true) (hn : n ≠ 0) (hl : (issuer s s).land = []) (hp : (issuer s s).phase.opened = false)
    (hg : isGlobal (pushAt s k) = false) :
    ∃ t, Ends s t ∧ memRead t.mem (pushAt s k) n = (a.toNat + b.toNat * 2 ^ 64) % 2 ^ (8 * n) ∧ SameBytesBut (pushAt s k) n s t ∧
      ∀ m, let u := t.landUntil s.bun.core s.bun.ctx m
        (m < s.bun.t + 2 → issuerBank s u = issuerBank s s) ∧
        (s.bun.t + 2 ≤ m → qCnt ((issuerBank s u).queue k) = (qCnt (s.queue k) + 1) % 2 ^ 9 ∧
          qTail ((issuerBank s u).queue k) = (qTail (s.queue k) + 1) % qDepth (s.queue k) ∧
          bit (tget 0 (issuerBank s u).present k) (qTail (s.queue k)) = true ∧ u.mem = t.mem) := by
  obtain ⟨t, l, ht, hm, hb, land, due, dest, val, bank, phase⟩ := ends_qpush_begins h hn hl hg
  refine ⟨t, ht, ?_, sameBytesBut_memWrite hc hm, fun m => ⟨fun early => ?_, fun late => ?_⟩⟩
  · rw [hm, memRead_memWrite hc, pow_bytes, Nat.mod_mod]
  · rw [landUntil_early, hb]
    intro l' hl'
    rw [show (t.ctx s.bun.core s.bun.ctx).land = [l] from land, List.mem_singleton] at hl'
    rw [hl', due]
    exact early
  · obtain ⟨banks, mem⟩ := landUntil_late (s := t) (c := s.bun.core) (j := s.bun.ctx) (m := m)
      (by
        intro l' hl'
        rw [show (t.ctx s.bun.core s.bun.ctx).land = [l] from land, List.mem_singleton] at hl'
        rw [hl', due]
        exact late)
      ((congrArg Option.isSome bank).trans hbank) ((congrArg Phase.opened phase).trans hp)
    have taken : issuerBank s (t.landUntil s.bun.core s.bun.ctx m) = (issuerBank s s).takeTail k true := by
      rw [issuerBank, banks, show (t.ctx s.bun.core s.bun.ctx).land = [l] from land, show t.bankOf s.bun.core s.bun.ctx = _ from hb,
        List.foldl_cons, List.foldl_nil, dest, val]
      rfl
    rw [taken, takeTail_queue, qCnt_pushed, qTail_pushed]
    exact ⟨rfl, rfl, takeTail_present _ k, mem⟩

/-! ### POP -/

theorem ends_pops {s : State} {pop : Nat} (ready : readyToCommit s = true) (he : s.bun.effs = []) (hpop : hdrPop s.header = pop)
    (hbank : (issuer s s).bank.isSome = true) (hl : (issuer s s).land = []) (hp : (issuer s s).phase.opened = false) :
    ∃ t, Ends s t ∧ t.mem = s.mem ∧ ∀ m, let u := t.landUntil s.bun.core s.bun.ctx m
      (m < s.bun.t + 2 → issuerBank s u = issuerBank s s) ∧
      (s.bun.t + 2 ≤ m → issuerBank s u = ((List.range 8).filter (bit pop)).foldl Bank.pop (issuerBank s s)) := by
  obtain ⟨t, ht, hs⟩ := ends_of_performed ready (by simp [he]) (by simp [he])
  have none_ : performed (given s [s.bun.core]) = committingFrom (given s [s.bun.core]) := by simp [performed, he]
  have hu : SameButIssue s (committingFrom (given s [s.bun.core])) := (sameButIssue_given s _).trans (sameButIssue_committingFrom _)
  have hb : (committingFrom (given s [s.bun.core])).bun = s.bun := by simp
  rw [none_, State.header, hb, show s.bun.words.headD 0 = s.header from rfl, hpop] at hs
  generalize committingFrom (given s [s.bun.core]) = u at hs hu hb
  have ume : ctxBeside u.me = ctxBeside (issuer s s) := by rw [State.me, hb]; exact hu.ctx _ _
  obtain ⟨pme, pbun, pmem, pbank⟩ := applyPops_me ((ctx_eq_of_beside ume Ctx.land fun _ => rfl).trans hl) pop
  have tme : ctxBeside (issuer s t) = ctxBeside { u.me with land := ((List.range 8).filter (bit pop)).map (popLanding u) } := by
    rw [← pme, State.me, pbun, hb]; exact hs.ctx _ _
  have land : (t.ctx s.bun.core s.bun.ctx).land = ((List.range 8).filter (bit pop)).map (popLanding u) :=
    ctx_eq_of_beside tme Ctx.land fun _ => rfl
  have due : ∀ l ∈ (t.ctx s.bun.core s.bun.ctx).land, l.due = s.bun.t + 2 := by
    intro l hl
    rw [land] at hl
    obtain ⟨k, -, rfl⟩ := List.mem_map.mp hl
    rw [popLanding, landingOf, hb]
  have tbank : t.bankOf s.bun.core s.bun.ctx = issuerBank s s := by
    rw [hs.bankOf]
    rw [hb] at pbank
    exact pbank.trans (hu.bankOf _ _)
  refine ⟨t, ht, hs.mem.trans (pmem.trans hu.mem), fun m => ⟨fun early => ?_, fun late => ?_⟩⟩
  · rw [landUntil_early fun l hl => by rw [due l hl]; exact early]
    exact tbank
  · have bank := (ctx_eq_of_beside tme Ctx.bank fun _ => rfl).trans (ctx_eq_of_beside ume Ctx.bank fun _ => rfl)
    have phase := (ctx_eq_of_beside tme Ctx.phase fun _ => rfl).trans (ctx_eq_of_beside ume Ctx.phase fun _ => rfl)
    obtain ⟨banks, -⟩ := landUntil_late (s := t) (c := s.bun.core) (j := s.bun.ctx) (m := m)
      (fun l hl => by rw [due l hl]; exact late) ((congrArg Option.isSome bank).trans hbank) ((congrArg Phase.opened phase).trans hp)
    rw [issuerBank, banks, land, tbank, List.foldl_map]
    rfl

/-- What the pops leave of one queue. -/
theorem pops_queue (pop : Nat) (b : Bank) {k : Nat} (hk : k < 8) :
    let b' := ((List.range 8).filter (bit pop)).foldl Bank.pop b
    (bit pop k = false → b'.queue k = b.queue k ∧ tget 0 b'.present k = tget 0 b.present k) ∧
    (bit pop k = true → qHead (b'.queue k) = (qHead (b.queue k) + 1) % qDepth (b.queue k) ∧ qCnt (b'.queue k) = qCnt (b.queue k) - 1 ∧
      qTail (b'.queue k) = qTail (b.queue k) ∧ bit (tget 0 b'.present k) (qHead (b.queue k)) = false) := by
  refine ⟨fun off => pops_other _ b (by simp [off]), fun on => ?_⟩
  obtain ⟨q, p⟩ := pops_mem (List.nodup_range.filter _) b (n := k) (List.mem_filter.mpr ⟨List.mem_range.mpr hk, on⟩)
  rw [q, p, pop_queue, qHead_popped, qCnt_popped, qTail_popped]
  exact ⟨rfl, rfl, rfl, pop_present b k⟩

end Sys2Proof.Proofs


/-! PROOFS. twait (R251) and link words (R350). -/

namespace Sys2Proof.Proofs

open Sys2Proof.Machine Sys2Proof.Safety Sys2Proof.Laws

/-! ### twait -/

theorem ends_twait {s : State} (h : committing s [.twait]) :
    ∃ t, Ends s t ∧ t.mem = s.mem ∧ (t.core s.bun.core).seqr.till = s.bun.t + 2 ∧
      t.cellarOpen = s.cellarOpen.map fun p => if p.uid = (issuer s s).uid ∧ p.copy = 1 then { p with copy := 0 } else p := by
  obtain ⟨u, hu, hb, go⟩ := ends_of_committing h rfl rfl (by simp)
  obtain ⟨t, ht, hs⟩ := go rfl
  have uid : u.me.uid = (issuer s s).uid := by rw [State.me, hb, hu.onCtx Ctx.uid fun _ => rfl, issuer]
  refine ⟨t, ht, hs.mem.trans hu.mem, ?_, ?_⟩
  · rw [hs.onCore Core.seqr fun _ => rfl, ← hb]
    exact congrArg (fun k : Core => k.seqr.till) (modCore_core_same ..)
  · rw [hs.onState State.cellarOpen fun _ => rfl, ← hu.onState State.cellarOpen fun _ => rfl, ← uid]
    rfl

/-! ### Link words -/

theorem modLf_lfOf (s : State) (c k : Nat) (f : Lf → Lf) : ((s.modLf c k f).core c).lfOf k = f ((s.core c).lfOf k) := by
  unfold State.modLf Core.lfOf
  rw [modCore_core_same]
  exact tget_tset_same ..

theorem sameCtxs_modLf (s : State) (c k : Nat) (f : Lf → Lf) : SameCtxs s (s.modLf c k f) := sameCtxs_modCore fun _ => rfl

theorem ends_lfPop {s : State} {d k : Nat} (h : committing s [.lfPop d k]) :
    ∃ t, Ends s t ∧ ((t.core s.bun.core).lfOf k).inq = ((s.core s.bun.core).lfOf k).inq.drop 1 ∧ t.mem = s.mem := by
  obtain ⟨u, hu, hb, go⟩ := ends_of_committing h rfl rfl (by simp)
  obtain ⟨t, ht, hs⟩ := go rfl
  refine ⟨t, ht, ?_, hs.mem.trans hu.mem⟩
  rw [hs.lfOf, ← hb]
  have lf := modLf_lfOf u u.bun.core k fun l => { l with inq := l.inq.drop 1 }
  exact (congrArg Lf.inq lf).trans (by rw [hu.lfOf])

/-- What the tables of operations and packets hold of the entry just written. -/
theorem find_tset {α : Type} (t : Tab α) (n : Nat) (v : α) : (tset t n v).find? (fun q => q.1 == n) = some (n, v) := by
  induction t with
  | nil => simp [tset]
  | cons p t ih =>
    obtain ⟨k, w⟩ := p
    unfold tset
    split
    · simp
    · split
      · simp
      · next hne => rw [List.find?_cons_of_neg (by simpa using fun e => hne (Eq.symm e)), ih]

/-- A remote operation as it waits for its reply. -/
def waitingRemote (s : State) (r : Remote) (p : Packet) : Remote := { r with deadline := s.ns + 8000000, dev := p.dst, win := p.win }

/-- The packet of an operation as it goes out. -/
def outPacket (s : State) (r : Remote) (p : Packet) : Packet :=
  { p with kind := r.kind, req := s.dev, who := s.nextId, src := s.dev, cls := b2n (r.kind == 6), hops := 0, nm := false, born := s.ns }

theorem ask_remotes (s : State) (r : Remote) (p : Packet) :
    (s.ask r p).remotes.find? (fun q => q.1 == s.nextId) = some (s.nextId, waitingRemote s r p) := find_tset ..

theorem ask_packets (s : State) (r : Remote) (p : Packet) :
    (s.ask r p).packets.find? (fun q => q.1 == s.nextId + 1) = some (s.nextId + 1, outPacket s r p) := find_tset ..

section

variable {s : State} {k : Nat} {w : Word}

/-- The words of the link FIFO's packet with the one pushed. -/
def partWith (s : State) (k : Nat) (w : Word) : List Word := ((s.core s.bun.core).lfOf k).part ++ [w]

/-- The header of that packet. -/
def partHeader (s : State) (k : Nat) (w : Word) : Nat := ((partWith s k w).headD 0).toNat

theorem partWith_congr {u : State} (hu : SameButIssue s u) (hb : u.bun = s.bun) (k : Nat) (w : Word) :
    partWith u k w = partWith s k w := by
  unfold partWith; rw [hb, hu.lfOf]

/-- A word that does not complete its packet waits in the FIFO. -/
theorem lfPush_part (h : (partWith s k w).length < packetLen (partHeader s k w)) :
    s.lfPush k w = s.modLf s.bun.core k fun l => { l with
      part := partWith s k w, partOwner := if (s.lf k).part.isEmpty then s.me.uid else l.partOwner
      partRegion := if (s.lf k).part.isEmpty then s.me.region.opened else l.partRegion } :=
  if_pos h

theorem ends_lfPush_part (h : committing s [.lfPush k w]) (hlen : (partWith s k w).length < packetLen (partHeader s k w)) :
    ∃ t, Ends s t ∧ ((t.core s.bun.core).lfOf k).part = partWith s k w ∧
      ((t.core s.bun.core).lfOf k).outq = ((s.core s.bun.core).lfOf k).outq ∧ t.packets = s.packets ∧ t.mem = s.mem ∧
      (((s.core s.bun.core).lfOf k).part = [] → ((t.core s.bun.core).lfOf k).partOwner = (issuer s s).uid ∧
        ((t.core s.bun.core).lfOf k).partRegion = (issuer s s).region.opened) := by
  obtain ⟨u, hu, hb, go⟩ := ends_of_committing h rfl rfl (by simp)
  have parts := partWith_congr hu hb k w
  have ulen : (partWith u k w).length < packetLen (partHeader u k w) := by unfold partHeader; rw [parts]; exact hlen
  rw [show u.applyEff (.lfPush k w) = u.lfPush k w from rfl, lfPush_part ulen] at go
  obtain ⟨t, ht, hs⟩ := go rfl
  have lf := hs.lfOf u.bun.core k
  rw [modLf_lfOf, hb, hu.lfOf, parts] at lf
  have packets := (hs.onState State.packets fun _ => rfl).trans (hu.onState State.packets fun _ => rfl)
  refine ⟨t, ht, by rw [lf], by rw [lf], packets, hs.mem.trans hu.mem, fun empty => ?_⟩
  have first : (u.lf k).part.isEmpty = true := by rw [State.lf, hb, hu.lfOf, empty]; rfl
  have me : ctxBeside u.me = ctxBeside (issuer s s) := by rw [State.me, hb]; exact hu.ctx _ _
  rw [lf, first]
  exact ⟨ctx_eq_of_beside me Ctx.uid fun _ => rfl, congrArg Region.opened (ctx_eq_of_beside me Ctx.region fun _ => rfl)⟩

/-- A link FIFO whose packet has left for the fabric. -/
def lfSent (l : Lf) (part : List Word) : Lf := { l with part := [], outq := l.outq ++ part, rqn := l.rqn + 1 }

/-- The remote operation that a packet's last word begins. -/
def linkRemote (s : State) (k : Nat) (w : Word) : Remote :=
  { kind := 0, core := s.bun.core, ctx := s.bun.ctx, uid := s.me.uid, lf := k, rqn := ((s.core s.bun.core).lfOf k).rqn
    op := partHeader s k w, words := replyWords (partHeader s k w), copy := 0, region := s.me.region.opened, dev := 0, win := 0
    deadline := 0, off := (nth 0 (partWith s k w) 1).toNat % 2 ^ 56
    seq := s.me.fence - b2n (s.bun.effs.any fun e => match e with | .fence .. => true | _ => false), wins := [], lost := false }

/-- The packet that it sends. -/
def linkPacket (s : State) (k : Nat) (w : Word) : Packet :=
  { Packet.blank with
    dst := bits ((s.core s.bun.core).lfOf k).bind.toNat 31 15, win := bits (partHeader s k w) 36 12, key := bits (partHeader s k w) 0 32
    hdr := partHeader s k w, off := (nth 0 (partWith s k w) 1).toNat, port := s.bun.core * 8 + k
    words := ((partWith s k w).drop 2).map (·.toNat) }

/-- The state that sends it: the words go out, and the next request has the next number. -/
def linkSending (s : State) (k : Nat) (w : Word) : State := s.modLf s.bun.core k fun l => lfSent l (partWith s k w)

theorem lfPush_sends (h : packetLen (partHeader s k w) ≤ (partWith s k w).length) :
    s.lfPush k w = (linkSending s k w).ask (linkRemote s k w) (linkPacket s k w) := by
  have me : (linkSending s k w).me = s.me := (sameCtxs_modLf s s.bun.core k _).ctx _ _
  have whole : s.lfPush k w = (linkSending s k w).ask { linkRemote s k w with
      uid := (linkSending s k w).me.uid
      seq := (linkSending s k w).me.fence - b2n (s.bun.effs.any fun e => match e with | .fence .. => true | _ => false) }
      (linkPacket s k w) :=
    if_neg (Nat.not_lt.mpr h)
  rw [whole, me]
  rfl

theorem linkRemote_congr {u : State} (hu : SameButIssue s u) (hb : u.bun = s.bun) : linkRemote u k w = linkRemote s k w := by
  unfold linkRemote partHeader State.me
  rw [partWith_congr hu hb, hb, hu.lfOf, hu.onCtx Ctx.uid fun _ => rfl, hu.onCtx Ctx.region fun _ => rfl, hu.onCtx Ctx.fence fun _ => rfl]

theorem linkPacket_congr {u : State} (hu : SameButIssue s u) (hb : u.bun = s.bun) : linkPacket u k w = linkPacket s k w := by
  unfold linkPacket partHeader
  rw [partWith_congr hu hb, hb, hu.lfOf]

theorem linkSending_lfOf {u : State} (hu : SameButIssue s u) (hb : u.bun = s.bun) :
    ((linkSending u k w).core s.bun.core).lfOf k = lfSent ((s.core s.bun.core).lfOf k) (partWith s k w) := by
  rw [← hb, linkSending, modLf_lfOf, partWith_congr hu hb, hu.lfOf]

/-- The last word of a packet sends it: a remote operation waits for its reply. -/
theorem ends_lfPush_sends (h : committing s [.lfPush k w]) (hlen : packetLen (partHeader s k w) ≤ (partWith s k w).length) :
    ∃ t, Ends s t ∧ (t.core s.bun.core).lfOf k = lfSent ((s.core s.bun.core).lfOf k) (partWith s k w) ∧
      t.remotes.find? (fun q => q.1 == s.nextId) = some (s.nextId, waitingRemote s (linkRemote s k w) (linkPacket s k w)) ∧
      t.packets.find? (fun q => q.1 == s.nextId + 1) = some (s.nextId + 1, outPacket s (linkRemote s k w) (linkPacket s k w)) ∧
      t.mem = s.mem := by
  obtain ⟨u, hu, hb, go⟩ := ends_of_committing h rfl rfl (by simp)
  have ulen : packetLen (partHeader u k w) ≤ (partWith u k w).length := by
    unfold partHeader; rw [partWith_congr hu hb]; exact hlen
  rw [show u.applyEff (.lfPush k w) = u.lfPush k w from rfl, lfPush_sends ulen, linkRemote_congr hu hb, linkPacket_congr hu hb] at go
  obtain ⟨t, ht, hs⟩ := go rfl
  have id : (linkSending u k w).nextId = s.nextId := hu.onState State.nextId fun _ => rfl
  refine ⟨t, ht, (hs.lfOf ..).trans (linkSending_lfOf hu hb), ?_, ?_, hs.mem.trans hu.mem⟩
  · rw [hs.onState State.remotes fun _ => rfl, ← id, ask_remotes]
    exact congrArg (fun r => some (_, r)) (hu.onState (fun x => waitingRemote x (linkRemote s k w) (linkPacket s k w)) fun _ => rfl)
  · rw [hs.onState State.packets fun _ => rfl, ← id, ask_packets]
    exact congrArg (fun p => some (_, p)) (hu.onState (fun x => outPacket x (linkRemote s k w) (linkPacket s k w)) fun _ => rfl)

end

end Sys2Proof.Proofs


/-! PROOFS. The obligation on committed fences, waits and queue forms. -/

namespace Sys2Proof.Proofs

open Sys2Proof.Machine Sys2Proof.Safety Sys2Proof.Laws

/-- The mwait clause, for an instruction that performs as an mwait of n bytes. -/
theorem mwait_takesEffect {s : State} {i : Instr} {d pa key n : Nat} {va g v : Word} (hn : n < 2 ^ 64)
    (hi : ∀ u : State, u.applyEff (.sched i [wd pa, va, wd key, g, v, wd n]) = u.applyMwait d [wd pa, va, wd key, g, v, wd n])
    (hr : rollsBack (.sched i [wd pa, va, wd key, g, v, wd n]) = false) (hpa : pa < 2 ^ 64) (hkey : key < 2 ^ 64)
    (h : committing s [.sched i [wd pa, va, wd key, g, v, wd n]]) (hk : isGlobal pa = true → keyHeld s key pa n = true) :
    let same : Prop := memRead s.mem pa n = v.toNat % 2 ^ (8 * n) ∧ s.poisonedAt pa n = false
    (¬same → ∃ t l, Ends s t ∧ l ∈ (issuer s t).loads ∧ l.dest = d ∧ l.done = some (wd (memRead s.mem pa n), b2n (s.poisonedAt pa n)) ∧
      thas (t.core s.bun.core).l1 (pa / 128) = false ∧ (issuer s t).wait = (issuer s s).wait ∧ t.mem = s.mem) ∧
    (same → (issuer s s).wait = .none →
      ∃ t l, Ends s t ∧ l ∈ (issuer s t).loads ∧ l.id = s.nextId ∧ l.dest = d ∧ l.done = none ∧
        (issuer s t).wait = .line pa (s.bun.t + 2 + 1000 * s.mhz) n key s.nextId ∧
        thas (t.core s.bun.core).l1 (pa / 128) = false ∧ t.mem = s.mem) :=
  ⟨ends_mwait_differs hn hi hr hpa hkey h hk, ends_mwait_same hn hi hr hpa hkey h hk⟩

/-- The clause of the pops. -/
theorem pops_takeEffect {s : State} {pop : Nat} (ready : readyToCommit s = true) (he : s.bun.effs = []) (hpop : hdrPop s.header = pop)
    (hbank : (issuer s s).bank.isSome = true) (hl : (issuer s s).land = []) (hp : (issuer s s).phase.opened = false) :
    ∃ t, Ends s t ∧ t.mem = s.mem ∧ ∀ m, let u := t.landUntil s.bun.core s.bun.ctx m
      (m < s.bun.t + 2 → issuerBank s u = issuerBank s s) ∧
      (s.bun.t + 2 ≤ m → ∀ k, k < 8 →
        let q := s.queue k
        let q' := (issuerBank s u).queue k
        (bit pop k = false → q' = q ∧ tget 0 (issuerBank s u).present k = tget 0 (issuerBank s s).present k) ∧
        (bit pop k = true → 1 ≤ qCnt q → qHead q' = (qHead q + 1) % qDepth q ∧ qCnt q' = qCnt q - 1 ∧ qTail q' = qTail q ∧
          bit (tget 0 (issuerBank s u).present k) (qHead q) = false)) := by
  obtain ⟨t, ht, hm, lands⟩ := ends_pops ready he hpop hbank hl hp
  refine ⟨t, ht, hm, fun m => ⟨(lands m).1, fun late k hk => ?_⟩⟩
  rw [(lands m).2 late]
  obtain ⟨off, on⟩ := pops_queue pop (issuerBank s s) hk
  exact ⟨off, fun h _ => on h⟩

/-- The clause of a packet's last link word. -/
theorem lfPush_sends_takesEffect {s : State} {k : Nat} {w : Word} (h : committing s [.lfPush k w])
    (hlen : packetLen (partHeader s k w) ≤ (partWith s k w).length) :
    let l := (s.core s.bun.core).lfOf k
    ∃ t r p, Ends s t ∧ (t.core s.bun.core).lfOf k = { l with part := [], outq := l.outq ++ partWith s k w, rqn := l.rqn + 1 } ∧
      t.remotes.find? (fun q => q.1 == s.nextId) = some (s.nextId, r) ∧ r.kind = 0 ∧ r.core = s.bun.core ∧ r.uid = (issuer s s).uid ∧
      r.lf = k ∧ r.rqn = l.rqn ∧ r.region = (issuer s s).region.opened ∧ r.deadline = s.ns + 8000000 ∧
      t.packets.find? (fun q => q.1 == s.nextId + 1) = some (s.nextId + 1, p) ∧ p.kind = 0 ∧ p.who = s.nextId ∧
      p.dst = l.bind.toNat / 2 ^ 31 % 2 ^ 15 ∧ p.win = partHeader s k w / 2 ^ 36 % 2 ^ 12 ∧ p.key = partHeader s k w % 2 ^ 32 ∧
      p.hdr = partHeader s k w ∧ p.off = (nth 0 (partWith s k w) 1).toNat ∧ p.words = ((partWith s k w).drop 2).map (·.toNat) ∧
      t.mem = s.mem := by
  obtain ⟨t, ht, lf, remote, packet, hm⟩ := ends_lfPush_sends h hlen
  exact ⟨t, _, _, ht, lf, remote, rfl, rfl, rfl, rfl, rfl, rfl, rfl, packet, rfl, rfl, bits_eq .., bits_eq .., rfl, rfl, rfl, rfl, hm⟩

/-- Settles O40: each form's effect performs in a state that differs from the committing one in the bundle's account alone. -/
theorem committedFencesWaitsAndQueuesTakeEffect : Obligations.CommittedFencesWaitsAndQueuesTakeEffect := by
  intro s
  refine ⟨fun _ _ => ends_fence, fun _ => ends_fwait_waits, fun _ => ends_fwait_ready, fun _ _ _ _ _ _ _ => ends_storeRel,
    fun _ _ => ends_publish, fun _ => ends_phaseCommit, ends_endStrand, fun _ _ _ => ends_suspend, fun _ _ _ _ => ends_dormArm,
    fun _ _ _ => ends_dormDisarm, ?mwait, fun k a b n h hc hb hn _ hl hp hg => ends_qpush h hc hb (by omega) hl hp hg,
    fun _ => pops_takeEffect, ends_twait, fun _ _ => ends_lfPop, fun _ _ h => ⟨ends_lfPush_part h, lfPush_sends_takesEffect h⟩⟩
  case mwait =>
    rintro i d a b pa va key g n v (⟨rfl, rfl⟩ | ⟨rfl, rfl⟩) hpa hkey h hk
    · exact mwait_takesEffect (by decide) (fun _ => rfl) rfl hpa hkey h hk
    · exact mwait_takesEffect (by decide) (fun _ => rfl) rfl hpa hkey h hk

end Sys2Proof.Proofs


/-! PROOFS. A core that runs a context goes on running it, and the end of a wait (R25). -/

namespace Sys2Proof.Proofs

open Sys2Proof.Machine Sys2Proof.Safety Sys2Proof.Laws

/-! ### A core that runs a context goes on running it -/

/-- A change of a table's entry that keeps a property of its values keeps an entry with it. -/
theorem any_tset {α : Type} {p : α → Bool} {f : α → α} (d : α) (n : Nat) (hf : ∀ v, p v = true → p (f v) = true) {t : Tab α}
    (h : t.any (fun q => p q.2) = true) : (tset t n (f (tget d t n))).any (fun q => p q.2) = true := by
  induction t with
  | nil => simp at h
  | cons q t ih =>
    obtain ⟨k, w⟩ := q
    rw [List.any_cons, Bool.or_eq_true] at h
    unfold tset
    split
    · rw [List.any_cons, List.any_cons, Bool.or_eq_true, Bool.or_eq_true]
      exact .inr h
    · split
      · next _ e =>
        rw [tget, if_pos e, List.any_cons, Bool.or_eq_true]
        exact h.imp (hf w) id
      · next _ e =>
        rw [tget, if_neg e, List.any_cons, Bool.or_eq_true]
        exact h.imp id ih

/-- A core runs some context. -/
def runs (s : State) (c : Nat) : Bool := (s.core c).running.isSome

theorem runs_eq_any (s : State) (c : Nat) : runs s c = (s.core c).ctxs.any fun q => q.2.st == .running := by
  rw [runs, Core.running, Option.isSome_map, List.isSome_find?]

theorem choose_of_runs {s : State} {c : Nat} (h : runs s c = true) : s.choose c = s := if_pos h

theorem runs_modCtx {s : State} {c j : Nat} {f : Ctx → Ctx} (hf : ∀ x, x.st = .running → (f x).st = .running) {n : Nat}
    (h : runs s n = true) : runs (s.modCtx c j f) n = true := by
  rw [runs_eq_any] at h ⊢
  unfold State.modCtx
  rw [modCore_core]
  split
  · next e =>
    rw [e] at h
    exact any_tset (p := fun x : Ctx => x.st == .running) Ctx.empty j (fun x hx => by simpa using hf x (by simpa using hx)) h
  · exact h

/-- The news of a write stops no context. -/
theorem runs_wakeWriters {s : State} {pa n c : Nat} (h : runs s c = true) : runs (s.wakeWriters pa n) c = true := by
  rcases wakeWriters_core s pa n c with e | e
  · rw [runs, e]; exact h
  · rw [runs_eq_any] at h ⊢
    rw [e]
    obtain ⟨q, hq, hr⟩ := List.any_eq_true.mp h
    refine List.any_eq_true.mpr ⟨(q.1, q.2.hear pa n), List.mem_map.mpr ⟨q, hq, rfl⟩, ?_⟩
    rw [← hr]
    unfold Ctx.hear
    split <;> rfl

/-! ### Steps that change no context -/

theorem SameCtxs.runs {s t : State} (h : SameCtxs s t) (n : Nat) : runs t n = runs s n := by
  rw [runs_eq_any, runs_eq_any, h n]

theorem SameButLines.sameCtxs {s t : State} (h : SameButLines s t) : SameCtxs s t :=
  fun n => h.on (fun v => (v.core n).ctxs) fun _ => rfl
theorem SameButMemory.sameCtxs {s t : State} (h : SameButMemory s t) : SameCtxs s t :=
  fun n => h.on (fun v => (v.core n).ctxs) fun _ => rfl

theorem sameCtxs_bumpCounter (s : State) (c n by_ : Nat) : SameCtxs s (s.bumpCounter c n by_) := by
  unfold State.bumpCounter
  split
  · exact .refl s
  · exact sameCtxs_modCore fun _ => rfl

theorem sameCtxs_perf (s : State) (c j evt n : Nat) : SameCtxs s (s.perf c j evt n) := by
  unfold State.perf
  exact foldl_keeps (SameCtxs s) _ (fun u _ h => h.trans (sameCtxs_bumpCounter u _ _ _)) _ _ (.refl s)

theorem sameCtxs_countBusy (s : State) (c t : Nat) : SameCtxs s (s.countBusy c t) := by
  unfold State.countBusy
  split
  · exact (sameCtxs_perf s _ _ _ _).trans (sameCtxs_modCore fun _ => rfl)
  · exact .refl s

theorem sameCtxs_dropSequencer (s : State) (c : Nat) : SameCtxs s (s.dropSequencer c) :=
  (sameCtxs_countBusy s c s.clk).trans (sameCtxs_modCore fun _ => rfl)

theorem bumpCounter_mem (s : State) (c n by_ : Nat) : (s.bumpCounter c n by_).mem = s.mem :=
  (sameButIssue_bumpCounter s c n by_).mem

theorem dropSequencer_mem (s : State) (c : Nat) : (s.dropSequencer c).mem = s.mem := by
  unfold State.dropSequencer State.countBusy
  split
  · exact (sameButIssue_perf s ..).mem
  · rfl

/-! ### A wait ends -/

/-- A context as the end of its wait leaves it. -/
def wokenAt (clk : Nat) (x : Ctx) : Ctx :=
  { x with wait := x.after, after := .none, woken := false, st := if x.st = .parked then .ready else x.st, nextAt := clk }

theorem wakeCtx_eq {s : State} {c : Nat} (h : runs s c = true) (j : Nat) : s.wakeCtx c j = s.modCtx c j (wokenAt s.clk) :=
  choose_of_runs (runs_modCtx (fun x hx => by simp [hx]) h)

theorem wakeCtx_ctx {s : State} {c : Nat} (h : runs s c = true) (j : Nat) : (s.wakeCtx c j).ctx c j = wokenAt s.clk (s.ctx c j) := by
  rw [wakeCtx_eq h, modCtx_ctx_same]

theorem wakeCtx_mem {s : State} {c : Nat} (h : runs s c = true) (j : Nat) : (s.wakeCtx c j).mem = s.mem := by
  rw [wakeCtx_eq h]; rfl

end Sys2Proof.Proofs


/-! PROOFS. Loads return (R78, R199). -/

namespace Sys2Proof.Proofs

open Sys2Proof.Machine Sys2Proof.Safety Sys2Proof.Laws

/-! ### The event in hand -/

@[simp] theorem given_op (s : State) (ops : List Nat) (n : Nat) : (given s ops).op n = ops.getD n 0 := rfl
@[simp] theorem given_ctx (s : State) (ops : List Nat) (c j : Nat) : (given s ops).ctx c j = s.ctx c j := rfl

/-! ### A load returns -/

/-- The state in which a load that returns is no longer waited for. -/
def loadTaken (s : State) (c j : Nat) (l : Load) : State :=
  let s := s.modCtx c j fun x => { x with loads := x.loads.filter (·.id != l.id) }
  if 1 ≤ l.acquire.getD 0 then s.dropL1 c else s

/-- The state in which its value has landed. -/
def loadLanded (s : State) (c j : Nat) (l : Load) (w : Word) (m : Nat) : State :=
  (loadTaken s c j l).modBank c j fun b => b.land (.s l.dest) (.word w m)

section

variable {s : State} {c j i : Nat} {l : Load} {w : Word} {m : Nat}

theorem returnLoad_eq (hf : l.failed = false) : s.returnLoad c j l w m =
    if m = 1 ∧ ((loadLanded s c j l w m).ctx c j).phase.opened then (loadLanded s c j l w m).consume c j else loadLanded s c j l w m :=
  if_neg (by simp [hf])

/-- The contexts and the banks as the load leaves its context. -/
theorem sameCtxs_loadTaken (s : State) (c j : Nat) (l : Load) :
    SameCtxs (s.modCtx c j fun x => { x with loads := x.loads.filter (·.id != l.id) }) (loadTaken s c j l) := by
  unfold loadTaken
  dsimp only
  split
  · exact sameCtxs_modCore fun _ => rfl
  · exact .refl _

theorem loadTaken_ctx : (loadTaken s c j l).ctx c j = { s.ctx c j with loads := (s.ctx c j).loads.filter (·.id != l.id) } :=
  ((sameCtxs_loadTaken s c j l).ctx c j).trans (modCtx_ctx_same ..)

theorem loadTaken_bankOf : (loadTaken s c j l).bankOf c j = s.bankOf c j := by
  refine bankOf_congr (by rw [loadTaken_ctx]) ?_
  unfold loadTaken State.dropL1
  dsimp only
  split
  · rw [modCore_core_same]
    exact modCtx_core_field Core.banks (fun _ _ => rfl) ..
  · exact modCtx_core_field Core.banks (fun _ _ => rfl) ..

theorem loadTaken_mem : (loadTaken s c j l).mem = s.mem := by
  unfold loadTaken; dsimp only; split <;> rfl

theorem loadLanded_ctx :
    (loadLanded s c j l w m).ctx c j = { s.ctx c j with loads := (s.ctx c j).loads.filter (·.id != l.id) } := by
  rw [loadLanded, (sameCtxs_modBank _ c j _).ctx, loadTaken_ctx]

theorem loadLanded_bankOf (hb : (s.ctx c j).bank.isSome = true) :
    (loadLanded s c j l w m).bankOf c j = (s.bankOf c j).land (.s l.dest) (.word w m) := by
  rw [loadLanded, modBank_bankOf _ (by rw [loadTaken_ctx]; exact hb), loadTaken_bankOf]

theorem loadLanded_mem : (loadLanded s c j l w m).mem = s.mem := (modBank_mem ..).trans loadTaken_mem

theorem loadLanded_runs (h : runs s c = true) : runs (loadLanded s c j l w m) c = true := by
  rw [loadLanded, (sameCtxs_modBank _ c j _).runs, (sameCtxs_loadTaken s c j l).runs]
  refine runs_modCtx (fun _ hx => ?_) h
  exact hx

theorem answers_globalLoadReturn (hl : ((s.ctx c j).loads.filter fun l => l.done.isSome && !l.held)[i]? = some l)
    (hd : l.done = some (w, m)) (hb : (s.ctx c j).bank.isSome = true) :
    Answers .globalLoadReturn [c, j, i] s (((given s [c, j, i]).returnLoad c j l w m).choose c) := by
  have hb' : (s.ctx c j).bank.isNone = false := by rw [← Option.not_isSome, hb]; rfl
  show execGlobalLoadReturn (given s [c, j, i]) = _
  unfold execGlobalLoadReturn
  simp [hl, hd, hb']

/-- A load without poison lands in its register. -/
theorem loadReturn_takesEffect (hr : runs s c = true) (hl : ((s.ctx c j).loads.filter fun l => l.done.isSome && !l.held)[i]? = some l)
    (hd : l.done = some (w, 0)) (hf : l.failed = false) (hb : (s.ctx c j).bank.isSome = true) :
    ∃ t, Answers .globalLoadReturn [c, j, i] s t ∧ (t.bankOf c j).sr l.dest = (if l.dest = 0 then 0 else w) ∧
      (∀ k, k ≠ l.dest → (t.bankOf c j).sr k = (s.bankOf c j).sr k) ∧ (∀ q, q ∈ (t.ctx c j).loads → q.id ≠ l.id) ∧ t.mem = s.mem := by
  have ha := answers_globalLoadReturn hl hd hb
  rw [returnLoad_eq hf, if_neg (by simp), choose_of_runs (loadLanded_runs (s := given s [c, j, i]) hr)] at ha
  refine ⟨_, ha, ?_, fun k hk => ?_, fun q hq => ?_, loadLanded_mem⟩
  · rw [loadLanded_bankOf (s := given s [c, j, i]) hb, sr_land_s]
    by_cases h0 : l.dest = 0
    · simp [h0, Bank.sr]
    · simp [h0]
  · rw [loadLanded_bankOf (s := given s [c, j, i]) hb, sr_land_s, if_neg fun e => hk e.1]
    rfl
  · rw [loadLanded_ctx] at hq
    simpa using (List.mem_filter.mp hq).2

/-! ### A consumption in an open phase -/

/-- A context as the start of its rollback leaves it. -/
def rolledBack (x : Ctx) : Ctx :=
  { x with
    rel := x.rel.map Release.rolledBack, wait := .rollback 0, after := .none, land := x.land.filter (·.commits), snap := []
    loads := (x.loads.filter fun l => l.release.isSome && l.done.isNone).map fun l => { l with dest := 0 } }

/-- The state in which what a consumption drops beside its context is gone. -/
def consumeDrops (s : State) (c j : Nat) : State :=
  let s' := s.dropCarried c (s.ctx c j).uid false
  if (s.ctx c j).rel.any (·.kind.commits) then s'.dropFlips (s.ctx c j).uid else s'

theorem consume_eq (hk : (s.ctx c j).wait.killing = false) (hh : (s.ctx c j).handler = false) :
    s.consume c j = if (s.ctx c j).st = .running then ((consumeDrops s c j).modCtx c j rolledBack).dropSequencer c
      else (consumeDrops s c j).modCtx c j rolledBack := by
  unfold State.consume
  simp only [hk, hh, Bool.false_eq_true, if_false]
  rfl

theorem sameCtxs_consumeDrops (s : State) (c j : Nat) : SameCtxs s (consumeDrops s c j) := by
  unfold consumeDrops; dsimp only; split <;> exact fun _ => rfl

theorem consumeDrops_mem : (consumeDrops s c j).mem = s.mem := by
  unfold consumeDrops; dsimp only; split <;> rfl

theorem consume_rest (hr : runs s c = true) (hk : (s.ctx c j).wait.killing = false) (hh : (s.ctx c j).handler = false) :
    (s.consume c j).ctx c j = rolledBack (s.ctx c j) ∧ (s.consume c j).mem = s.mem ∧ runs (s.consume c j) c = true := by
  have ctx : ((consumeDrops s c j).modCtx c j rolledBack).ctx c j = rolledBack (s.ctx c j) := by
    rw [modCtx_ctx_same, (sameCtxs_consumeDrops s c j).ctx]
  have run : runs ((consumeDrops s c j).modCtx c j rolledBack) c = true := by
    refine runs_modCtx (fun _ hx => ?_) (((sameCtxs_consumeDrops s c j).runs c).trans hr)
    exact hx
  rw [consume_eq hk hh]
  split
  · refine ⟨((sameCtxs_dropSequencer _ c).ctx c j).trans ctx, ?_, ((sameCtxs_dropSequencer _ c).runs c).trans run⟩
    rw [dropSequencer_mem]
    exact consumeDrops_mem
  · exact ⟨ctx, consumeDrops_mem, run⟩

/-- A poisoned load in an open phase starts its rollback. -/
theorem loadReturn_consumes (hr : runs s c = true) (hl : ((s.ctx c j).loads.filter fun l => l.done.isSome && !l.held)[i]? = some l)
    (hd : l.done = some (w, 1)) (hf : l.failed = false) (hb : (s.ctx c j).bank.isSome = true) (hp : (s.ctx c j).phase.opened = true)
    (hh : (s.ctx c j).handler = false) (hk : ∀ k, (s.ctx c j).wait ≠ .kill k) :
    ∃ t, Answers .globalLoadReturn [c, j, i] s t ∧ (t.ctx c j).wait = .rollback 0 ∧
      (t.ctx c j).land = (s.ctx c j).land.filter (·.commits) ∧ t.mem = s.mem := by
  have killing : (s.ctx c j).wait.killing = false := by
    cases e : (s.ctx c j).wait with
    | kill k => exact absurd e (hk k)
    | _ => rfl
  let v := loadLanded (given s [c, j, i]) c j l w 1
  have vctx : v.ctx c j = { s.ctx c j with loads := (s.ctx c j).loads.filter (·.id != l.id) } := loadLanded_ctx
  obtain ⟨ctx, mem, run⟩ := consume_rest (s := v) (loadLanded_runs (s := given s [c, j, i]) hr) (by rw [vctx]; exact killing)
    (by rw [vctx]; exact hh)
  have ha := answers_globalLoadReturn hl hd hb
  rw [returnLoad_eq hf, if_pos ⟨rfl, by rw [show (loadLanded _ c j l w 1).ctx c j = _ from vctx]; exact hp⟩, choose_of_runs run] at ha
  refine ⟨_, ha, ?_, ?_, mem.trans loadLanded_mem⟩
  · rw [show (State.consume _ c j).ctx c j = _ from ctx]; rfl
  · rw [show (State.consume _ c j).ctx c j = _ from ctx, vctx]; rfl

end

end Sys2Proof.Proofs


/-! PROOFS. Waits and parks end or begin again (R25, R252, R384, R431). -/

namespace Sys2Proof.Proofs

open Sys2Proof.Machine Sys2Proof.Safety Sys2Proof.Laws

/-! ### Waits and parks end -/

section

variable {s : State} {c j : Nat}

theorem runs_given (ops : List Nat) (h : runs s c = true) : runs (given s ops) c = true := h

/-- The end of a wait in a state u that the event reaches, with its context and memory as they were. -/
theorem wakes {u : State} (hr : runs u c = true) (hx : (u.ctx c j).after = (s.ctx c j).after) (hm : u.mem = s.mem) :
    ((u.wakeCtx c j).ctx c j).wait = (s.ctx c j).after ∧ (u.wakeCtx c j).mem = s.mem := by
  rw [wakeCtx_ctx hr, wakeCtx_mem hr]
  exact ⟨hx, hm⟩

theorem fwaitComplete_takesEffect {tok : Word} {d : Nat} (hr : runs s c = true) (hw : (s.ctx c j).wait = .fence tok d)
    (hf : s.fwaitReady c j tok = true) :
    ∃ t, Answers .fwaitComplete [c, j] s t ∧ (t.ctx c j).wait = (s.ctx c j).after ∧ t.mem = s.mem := by
  have same := sameCtxs_fwaitDone (given s [c, j]) c j tok
  refine ⟨((given s [c, j]).fwaitDone c j tok).wakeCtx c j, ?_,
    wakes ((same.runs c).trans hr) (by rw [same.ctx]; rfl) (fwaitDone_mem ..)⟩
  show execFwaitComplete (given s [c, j]) = _
  have hf' : (given s [c, j]).fwaitReady c j tok = true := hf
  unfold execFwaitComplete
  simp [hw, hf']

/-- A location that an mwait has read again. -/
def readAgain (s : State) (c j pa n key id : Nat) : State :=
  ((s.dropLine c pa).downAccess pa).modCtx c j fun x => { x with loads := x.loads.map fun q =>
    if q.id = id then { q with done := some (wd (s.readPa key pa n), b2n (s.poisonedAt pa n)) } else q }

theorem sameCtxs_lineSeen (s : State) (c pa : Nat) : SameCtxs s ((s.dropLine c pa).downAccess pa) :=
  (sameCtxs_dropLine s c pa).trans (sameButLines_downAccess _ pa).sameCtxs

theorem lineWake_takesEffect {pa d n key id : Nat} (hr : runs s c = true) (hw : (s.ctx c j).wait = .line pa d n key id)
    (hn : (s.ctx c j).woken = true) (hid : id ≠ 0) :
    ∃ t, Answers .contextWake [c, j] s t ∧ (t.ctx c j).wait = (s.ctx c j).after ∧ t.mem = s.mem ∧
      ∀ q, q ∈ (t.ctx c j).loads → q.id = id → q.done = some (wd (s.readPa key pa n), b2n (s.poisonedAt pa n)) := by
  have run : runs (readAgain (given s [c, j]) c j pa n key id) c = true := by
    refine runs_modCtx (fun _ hx => ?_) (((sameCtxs_lineSeen (given s [c, j]) c pa).runs c).trans hr)
    exact hx
  have ctx : (readAgain (given s [c, j]) c j pa n key id).ctx c j = { s.ctx c j with loads := (s.ctx c j).loads.map fun q =>
      if q.id = id then { q with done := some (wd (s.readPa key pa n), b2n (s.poisonedAt pa n)) } else q } := by
    rw [readAgain, modCtx_ctx_same, (sameCtxs_lineSeen (given s [c, j]) c pa).ctx]
    rfl
  have mem : (readAgain (given s [c, j]) c j pa n key id).mem = s.mem :=
    (sameButLines_downAccess ((given s [c, j]).dropLine c pa) pa).on State.mem fun _ => rfl
  obtain ⟨wait, mem⟩ := wakes run (by rw [ctx]) mem
  refine ⟨(readAgain (given s [c, j]) c j pa n key id).wakeCtx c j, ?_, wait, mem, fun q hq e => ?_⟩
  · show execContextWake (given s [c, j]) = _
    unfold execContextWake State.wakeDue State.wakeFrom
    simp [hw, hn, hid]
    rfl
  · rw [wakeCtx_ctx run, ctx] at hq
    obtain ⟨r, -, rfl⟩ := List.mem_map.mp hq
    split at e <;> rename_i h
    · rw [if_pos h]
    · exact absurd e h

theorem barWake_takesEffect {pa d : Nat} (hr : runs s c = true) (hw : (s.ctx c j).wait = .bar pa d) (hn : (s.ctx c j).woken = true) :
    ∃ t, Answers .contextWake [c, j] s t ∧ (t.ctx c j).wait = (s.ctx c j).after ∧ (t.ctx c j).woken = false ∧ t.mem = s.mem := by
  have run := runs_given [c, j] hr
  obtain ⟨wait, mem⟩ := wakes (s := s) (j := j) run rfl rfl
  refine ⟨(given s [c, j]).wakeCtx c j, ?_, wait, by rw [wakeCtx_ctx run]; rfl, mem⟩
  show execContextWake (given s [c, j]) = _
  unfold execContextWake State.wakeDue State.wakeFrom
  simp [hw, hn]

theorem drainTimeout_takesEffect {ch d : Nat} (hr : runs s c = true) (hw : (s.ctx c j).wait = .drain ch d) (hd : d ≤ s.clk) :
    ∃ t, Answers .parkTimeout [c, j] s t ∧ (t.ctx c j).wait = (s.ctx c j).after ∧ t.mem = s.mem := by
  refine ⟨(given s [c, j]).wakeCtx c j, ?_, wakes (runs_given [c, j] hr) rfl rfl⟩
  show execParkTimeout (given s [c, j]) = _
  have hd' : d ≤ (given s [c, j]).clk := hd
  unfold execParkTimeout
  simp [hw, hd']

theorem fenceTimeout_takesEffect {tok : Word} {d : Nat} (hw : (s.ctx c j).wait = .fence tok d) (hd : d ≤ s.clk) :
    ∃ t, Answers .parkTimeout [c, j] s t ∧ (t.ctx c j).wait = .fence tok (s.clk + 1000 * s.mhz) ∧ t.mem = s.mem := by
  refine ⟨(given s [c, j]).modCtx c j fun x => { x with wait := .fence tok (s.clk + 1000 * s.mhz) }, ?_, by rw [modCtx_ctx_same], rfl⟩
  show execParkTimeout (given s [c, j]) = _
  have hd' : d ≤ (given s [c, j]).clk := hd
  unfold execParkTimeout
  simp [hw, hd']
  rfl

theorem spinPark_takesEffect (hj : (s.core c).running = some j) (hs : s.spinDue c j = true) :
    ∃ t, Answers .spinPark [c] s t ∧
      (t.ctx c j).wait = .line ((s.ctx c j).spin.last.getD (0, 0)).1 (s.clk + 1000 * s.mhz) 8 0 0 ∧
      t.mem = s.mem ∧ t.bankOf c j = s.bankOf c j := by
  let f : Ctx → Ctx := fun x => { x with wait := .line (x.spin.last.getD (0, 0)).1 (s.clk + 1000 * s.mhz) 8 0 0, spin := .none }
  let v := (given s [c]).modCtx c j f
  refine ⟨v.bumpCounter c 0x029 1, ?_, ?_, bumpCounter_mem v c 0x029 1, ?_⟩
  · show execSpinPark (given s [c]) = _
    have hs' : (given s [c]).spinDue c j = true := hs
    have hj' : ((given s [c]).core c).running = some j := hj
    unfold execSpinPark
    simp only [given_op, List.getD_cons_zero, hj', hs', if_true]
    rfl
  · rw [(sameCtxs_bumpCounter v c 0x029 1).ctx, modCtx_ctx_same]
    rfl
  · rw [(sameButIssue_bumpCounter v c 0x029 1).bankOf]
    exact modCtx_bankOf rfl c j

end

end Sys2Proof.Proofs


/-! PROOFS. Seals (R264 to R267). -/

namespace Sys2Proof.Proofs

open Sys2Proof.Machine Sys2Proof.Safety Sys2Proof.Laws

/-! ### The steps of a seal -/

/-- The state that a seal whose check passes leaves: the records, then the body, whose header ends with VALID = 0, and both durable. -/
def sealedBody (s : State) (key pa at_ : Nat) (recs front : List Nat) (len form : Nat) : State :=
  (((((s.writeList key at_ recs).writeList key pa (front ++ toBytes 8 0)).setForm pa len form).wakeWriters pa len)).sealDurable pa len

theorem length_toBytes (n x : Nat) : (toBytes n x).length = n := by
  induction n generalizing x with
  | zero => rfl
  | succ n ih => rw [toBytes, List.length_cons, ih]

/-- What the steps of a seal can answer: a status, with nothing done that any but the account behind memory shows, or the body,
written. -/
def SealOutcome (s : State) (r : Except Nat (Nat × Nat × Nat) × State) : Prop :=
  (∃ st, r.1 = .error st ∧ SameButLines s r.2) ∨
  ∃ pa key gen at_ recs front len form, r.1 = .ok (pa, key, gen) ∧ front.length = 56 ∧
    r.2 = sealedBody s key pa at_ recs front len form

theorem sealOutcome_error {s u : State} (st : Nat) (h : SameButLines s u) : SealOutcome s (.error st, u) := .inl ⟨st, rfl, h⟩

theorem sealSteps_cases (s : State) (c j va : Nat) : SealOutcome s (s.sealSteps c j va) := by
  unfold State.sealSteps
  extract_lets sp
  split
  · exact sealOutcome_error 3 (.refl s)
  split
  · exact sealOutcome_error 4 (sameButLines_downAccess s _)
  extract_lets h nent es gen
  split
  · exact sealOutcome_error 1 (.refl s)
  split
  · exact sealOutcome_error 3 (.refl s)
  split
  · exact sealOutcome_error 4 (sameButLines_downAccess s _)
  split
  · exact sealOutcome_error 1 (.refl s)
  split
  · exact sealOutcome_error 2 (.refl s)
  extract_lets len recs head
  split
  · exact sealOutcome_error 3 (.refl s)
  split
  · exact sealOutcome_error 3 (.refl s)
  split
  · exact sealOutcome_error 5 rfl
  split
  · exact sealOutcome_error 6 (.refl s)
  · refine .inr ⟨_, _, _, _, _, _, _, _, rfl, ?_, rfl⟩
    simp [length_toBytes, head]

theorem sealSteps_error {s : State} {c j va st : Nat} (h : (s.sealSteps c j va).1 = .error st) :
    SameButLines s (s.sealSteps c j va).2 := by
  rcases sealSteps_cases s c j va with ⟨_, -, same⟩ | ⟨_, _, _, _, _, _, _, _, ok, -⟩
  · exact same
  · exact absurd (h.symm.trans ok) (by simp)

theorem sealSteps_ok {s : State} {c j va pa key gen : Nat} (h : (s.sealSteps c j va).1 = .ok (pa, key, gen)) :
    ∃ at_ recs front len form, front.length = 56 ∧ (s.sealSteps c j va).2 = sealedBody s key pa at_ recs front len form := by
  rcases sealSteps_cases s c j va with ⟨_, error, -⟩ | ⟨pa', key', gen', at_, recs, front, len, form, ok, hl, hs⟩
  · exact absurd (h.symm.trans error) (by simp)
  · obtain ⟨rfl, rfl, rfl⟩ : pa = pa' ∧ key = key' ∧ gen = gen' := by simpa using h.symm.trans ok
    exact ⟨at_, recs, front, len, form, hl, hs⟩

/-! ### What the body's bytes are -/

theorem pack_lt (l : List Nat) : pack 8 l < 256 ^ l.length := by
  induction l with
  | nil => simp [pack]
  | cons x l ih =>
    rw [pack, Nat.shiftLeft_eq, List.length_cons, Nat.pow_succ]
    have := Nat.mod_lt x (Nat.two_pow_pos 8)
    omega

/-- Zero bytes at the end add nothing. -/
theorem pack_append_zeros (l z : List Nat) (h : ∀ x ∈ z, x = 0) : pack 8 (l ++ z) = pack 8 l := by
  have zeros : pack 8 z = 0 := by
    clear l
    induction z with
    | nil => rfl
    | cons x z ih => rw [pack, ih fun y hy => h y (by simp [hy]), h x (by simp)]; rfl
  induction l with
  | nil => exact zeros
  | cons x l ih => rw [List.cons_append, pack, pack, ih]

/-- Bytes of a write above its number's are 0. -/
theorem memRead_memWrite_above {m : List Host.Cell} {a n v k l : Nat} (h : Memory.wf m = true) (hv : v < 256 ^ k) (hl : k + l ≤ n) :
    memRead (memWrite m a n v) (a + k) l = 0 := by
  induction l generalizing k with
  | zero => rfl
  | succ l ih =>
    rw [memRead, memGet_memWrite_in h (by omega), Nat.div_eq_of_lt hv, Nat.add_assoc,
      ih (Nat.lt_of_lt_of_le hv (Nat.pow_le_pow_right (by decide) (by omega))) (by omega)]
    rfl

/-! ### What the seal's writes leave -/

/-- What follows a write of the seal: news of it, and its granules made durable. -/
def madeDurable (s : State) (pa n : Nat) : State := (s.wakeWriters pa n).sealDurable pa n

theorem madeDurable_mem (s : State) (pa n : Nat) : (madeDurable s pa n).mem = s.mem :=
  ((sameButLines_sealDurable _ pa n).on State.mem fun _ => rfl).trans (sameButIssue_wakeWriters s pa n).mem

theorem madeDurable_rpt (s : State) (pa n : Nat) : (madeDurable s pa n).rpt = s.rpt :=
  ((sameButLines_sealDurable _ pa n).on State.rpt fun _ => rfl).trans ((sameButIssue_wakeWriters s pa n).onState State.rpt fun _ => rfl)

theorem madeDurable_runs {s : State} {c : Nat} (pa n : Nat) (h : runs s c = true) : runs (madeDurable s pa n) c = true :=
  ((sameButLines_sealDurable _ pa n).sameCtxs.runs c).trans (runs_wakeWriters h)

theorem madeDurable_ctx (s : State) (pa n c j : Nat) : ctxBeside ((madeDurable s pa n).ctx c j) = ctxBeside (s.ctx c j) := by
  rw [madeDurable, (sameButLines_sealDurable _ pa n).sameCtxs.ctx]
  exact (sameButIssue_wakeWriters s pa n).ctx c j

section

variable {s : State} {key pa at_ len form : Nat} {recs front : List Nat}

theorem sealedBody_rpt : (sealedBody s key pa at_ recs front len form).rpt = s.rpt := by
  rw [sealedBody, show ∀ u : State, (u.wakeWriters pa len).sealDurable pa len = madeDurable u pa len from fun _ => rfl, madeDurable_rpt,
    (sameButLines_setForm _ pa len form).on State.rpt fun _ => rfl, State.writeList,
    (sameButMemory_writePa _ key pa _ _).on State.rpt fun _ => rfl, State.writeList,
    (sameButMemory_writePa s key at_ _ _).on State.rpt fun _ => rfl]

theorem sealedBody_mem : (sealedBody s key pa at_ recs front len form).mem =
    ((s.writeList key at_ recs).writeList key pa (front ++ toBytes 8 0)).mem :=
  (madeDurable_mem _ pa len).trans ((sameButLines_setForm _ pa len form).on State.mem fun _ => rfl)

/-- The body's VALID is 0. -/
theorem sealedBody_invalid (hc : MemoryCanonical s) (hd : s.cxlDown pa = false) (hl : front.length = 56) :
    memRead (sealedBody s key pa at_ recs front len form).mem (pa + 56) 8 = 0 := by
  have up : (s.writeList key at_ recs).cxlDown pa = false :=
    ((sameButMemory_writePa s key at_ _ _).on (fun v => v.cxlDown pa) fun _ => rfl).trans hd
  have bytes : (front ++ toBytes 8 0).length = 64 := by rw [List.length_append, hl, length_toBytes]
  have small : pack 8 (front ++ toBytes 8 0) < 256 ^ 56 := by
    rw [pack_append_zeros _ _ (by decide), ← hl]
    exact pack_lt front
  rw [sealedBody_mem, State.writeList, bytes, writePa_mem _ (by decide) up]
  exact memRead_memWrite_above (beforeWrite_wf _ _ _ (writeList_wf _ _ _ hc)) small (by decide)

end

/-! ### The events of a seal -/

/-- The token that a seal's release waits for. -/
def sealToken : Word := wd (4 * 2 ^ 61 + 2 ^ 48 - 1)

section

variable {s : State} {c j l va n d : Nat}

/-- The state in which a seal takes its steps. -/
def sealBegins (s : State) (c j : Nat) : State := (given s [c, j]).fwaitDone c j sealToken

theorem sameCtxs_sealBegins (s : State) (c j : Nat) : SameCtxs s (sealBegins s c j) := sameCtxs_fwaitDone (given s [c, j]) c j sealToken

theorem sealBegins_mem (s : State) (c j : Nat) : (sealBegins s c j).mem = s.mem := fwaitDone_mem (given s [c, j]) c j sealToken

theorem sealBegins_rpt (s : State) (c j : Nat) : (sealBegins s c j).rpt = s.rpt := by
  unfold sealBegins State.fwaitDone; dsimp only; split_ifs <;> rfl

theorem sealBegins_cxlDown (s : State) (c j pa : Nat) : (sealBegins s c j).cxlDown pa = s.cxlDown pa := by
  unfold sealBegins State.fwaitDone; dsimp only; split_ifs <;> rfl

theorem fillLoad_runs {s : State} (id : Nat) (w : Word) (h : runs s c = true) : runs (s.fillLoad c j id w) c = true := by
  refine runs_modCtx (fun _ hx => ?_) h
  exact hx

theorem fillLoad_after (s : State) (id : Nat) (w : Word) : ((s.fillLoad c j id w).ctx c j).after = (s.ctx c j).after := by
  rw [State.fillLoad, modCtx_ctx_same]

/-- What a seal does with the outcome of its steps. -/
def sealGoesOn (c j l n d : Nat) : Except Nat (Nat × Nat × Nat) × State → State
  | (.error st, s) => (s.fillLoad c j l (wd st)).wakeCtx c j
  | (.ok (pa, key, gen), s) => s.modCtx c j fun x => { x with wait := .valid l n pa key gen d }

theorem answers_seal {t : State} (hw : (s.ctx c j).wait = .seal l va n d) (hf : s.fwaitReady c j sealToken = true) :
    Answers .cksealComplete [c, j] s t ↔ t = sealGoesOn c j l n d ((sealBegins s c j).sealSteps c j va) := by
  have hf' : (given s [c, j]).fwaitReady c j (wd (4 * 2 ^ 61 + 2 ^ 48 - 1)) = true := hf
  have go : execCksealComplete (given s [c, j]) = .next (sealGoesOn c j l n d ((sealBegins s c j).sealSteps c j va)) := by
    unfold execCksealComplete
    simp only [given_op, List.getD_cons_zero, List.getD_cons_succ, given_ctx, hw, hf', if_true]
    rfl
  exact ⟨fun h => Host.Outcome.next.inj (h.symm.trans go), fun h => h ▸ go⟩

theorem sealGoesOn_error {r : Except Nat (Nat × Nat × Nat) × State} {st : Nat} (h : r.1 = .error st) :
    sealGoesOn c j l n d r = (r.2.fillLoad c j l (wd st)).wakeCtx c j := by
  obtain ⟨e, u⟩ := r
  subst h
  rfl

theorem sealGoesOn_ok {r : Except Nat (Nat × Nat × Nat) × State} {pa key gen : Nat} (h : r.1 = .ok (pa, key, gen)) :
    sealGoesOn c j l n d r = r.2.modCtx c j fun x => { x with wait := .valid l n pa key gen d } := by
  obtain ⟨e, u⟩ := r
  subst h
  rfl

/-- A seal whose check fails answers its status, and leaves memory and the recovery points. -/
theorem sealError_takesEffect {st : Nat} (hr : runs s c = true) (hw : (s.ctx c j).wait = .seal l va n d)
    (hf : s.fwaitReady c j sealToken = true) (h : ((sealBegins s c j).sealSteps c j va).1 = .error st) :
    let t := (((sealBegins s c j).sealSteps c j va).2.fillLoad c j l (wd st)).wakeCtx c j
    Answers .cksealComplete [c, j] s t ∧ (t.ctx c j).wait = (s.ctx c j).after ∧ t.mem = s.mem ∧ t.rpt = s.rpt := by
  refine ⟨(answers_seal hw hf).mpr (sealGoesOn_error h).symm, ?_⟩
  have same := sealSteps_error h
  generalize ((sealBegins s c j).sealSteps c j va).2 = u at same ⊢
  have ctxs : SameCtxs s u := (sameCtxs_sealBegins s c j).trans same.sameCtxs
  have run : runs (u.fillLoad c j l (wd st)) c = true := fillLoad_runs l (wd st) ((ctxs.runs c).trans hr)
  obtain ⟨wait, mem⟩ := wakes (s := s) (j := j) run (by rw [fillLoad_after, ctxs.ctx])
    ((same.on State.mem fun _ => rfl).trans (sealBegins_mem s c j))
  refine ⟨wait, mem, ?_⟩
  rw [wakeCtx_eq run]
  exact (same.on State.rpt fun _ => rfl).trans (sealBegins_rpt s c j)

/-- A seal whose check passes leaves the body with VALID = 0. -/
theorem sealOk_takesEffect {pa key gen : Nat} (hw : (s.ctx c j).wait = .seal l va n d) (hf : s.fwaitReady c j sealToken = true)
    (h : ((sealBegins s c j).sealSteps c j va).1 = .ok (pa, key, gen)) :
    ∃ t, Answers .cksealComplete [c, j] s t ∧ (t.ctx c j).wait = .valid l n pa key gen d ∧ t.rpt = s.rpt ∧
      (MemoryCanonical s → s.cxlDown pa = false → memRead t.mem (pa + 56) 8 = 0) := by
  obtain ⟨at_, recs, front, len, form, hl, body⟩ := sealSteps_ok h
  refine ⟨_, (answers_seal hw hf).mpr (sealGoesOn_ok h).symm, by rw [modCtx_ctx_same], ?_, fun hc hd => ?_⟩
  · rw [body, ← sealBegins_rpt s c j]
    exact sealedBody_rpt
  · rw [body]
    refine sealedBody_invalid ?_ ((sealBegins_cxlDown s c j pa).trans hd) hl
    rw [MemoryCanonical, sealBegins_mem]
    exact hc

/-! ### VALID and the recovery point -/

/-- The recovery point of a sealed body. -/
def recoveryPoint (s : State) (pa key gen : Nat) : Nat := 2 ^ 127 + pa % 2 ^ 56 * 2 ^ 64 + gen * 2 ^ 32 + s.readPa key (pa + 4) 4

/-- The value of VALID in a sealed body. -/
def validOf (gen : Nat) : Nat := 0x5EA1 * 2 ^ 48 + gen

theorem sealValid_eq (s : State) (n pa key gen : Nat) : s.sealValid n pa key gen =
    { madeDurable (s.writePa key (pa + 56) 8 (validOf gen)) (pa + 56) 8 with
      rpt := tset (madeDurable (s.writePa key (pa + 56) 8 (validOf gen)) (pa + 56) 8).rpt n (recoveryPoint s pa key gen) } := rfl

theorem sealValid_rpt (s : State) (n pa key gen : Nat) : (s.sealValid n pa key gen).rpt = tset s.rpt n (recoveryPoint s pa key gen) := by
  rw [sealValid_eq, madeDurable_rpt, (sameButMemory_writePa s key _ 8 _).on State.rpt fun _ => rfl]

theorem sealValid_mem (s : State) (n pa key gen : Nat) : (s.sealValid n pa key gen).mem = (s.writePa key (pa + 56) 8 (validOf gen)).mem :=
  madeDurable_mem ..

theorem sealValid_runs {s : State} (n pa key gen : Nat) (h : runs s c = true) : runs (s.sealValid n pa key gen) c = true :=
  madeDurable_runs (pa + 56) 8 (((sameButMemory_writePa s key (pa + 56) 8 (validOf gen)).sameCtxs.runs c).trans h)

theorem sealValid_after (s : State) (n pa key gen : Nat) : ((s.sealValid n pa key gen).ctx c j).after = (s.ctx c j).after := by
  have durable := madeDurable_ctx (s.writePa key (pa + 56) 8 (validOf gen)) (pa + 56) 8 c j
  rw [(sameButMemory_writePa s key (pa + 56) 8 (validOf gen)).sameCtxs.ctx] at durable
  exact ctx_eq_of_beside durable Ctx.after fun _ => rfl

theorem sealValid_takesEffect {pa key gen : Nat} (hr : runs s c = true) (hw : (s.ctx c j).wait = .valid l n pa key gen d) :
    ∃ t, Answers .cksealComplete [c, j] s t ∧ (t.ctx c j).wait = (s.ctx c j).after ∧ tget 0 t.rpt n = recoveryPoint s pa key gen ∧
      (∀ m, m ≠ n → tget 0 t.rpt m = tget 0 s.rpt m) ∧
      (MemoryCanonical s → keyHeld s key (pa + 56) 8 = true →
        memRead t.mem (pa + 56) 8 = validOf gen % 2 ^ 64 ∧ SameBytesBut (pa + 56) 8 s t) := by
  let u := (given s [c, j]).sealValid n pa key gen
  have run : runs (u.fillLoad c j l 0) c = true := fillLoad_runs l 0 (sealValid_runs (s := given s [c, j]) n pa key gen hr)
  have rpt : ((u.fillLoad c j l 0).wakeCtx c j).rpt = tset s.rpt n (recoveryPoint s pa key gen) := by
    rw [wakeCtx_eq run]
    exact sealValid_rpt (given s [c, j]) n pa key gen
  have mem : ((u.fillLoad c j l 0).wakeCtx c j).mem = ((given s [c, j]).writePa key (pa + 56) 8 (validOf gen)).mem := by
    rw [wakeCtx_mem run]
    exact sealValid_mem (given s [c, j]) n pa key gen
  refine ⟨(u.fillLoad c j l 0).wakeCtx c j, ?_, ?_, by rw [rpt, tget_tset_same], fun m hm => by rw [rpt, tget_tset_other _ _ _ hm],
    fun hc hk => ?_⟩
  · show execCksealComplete (given s [c, j]) = _
    unfold execCksealComplete
    simp only [given_op, List.getD_cons_zero, List.getD_cons_succ, given_ctx, hw]
    rfl
  · rw [wakeCtx_ctx run]
    exact (fillLoad_after u l 0).trans (sealValid_after (given s [c, j]) n pa key gen)
  · have bytes : ((u.fillLoad c j l 0).wakeCtx c j).mem = memWrite s.mem (pa + 56) 8 (validOf gen) :=
      mem.trans (writePa_mem_of_keyHeld (s := given s [c, j]) (by decide) fun _ => hk)
    refine ⟨?_, sameBytesBut_memWrite hc bytes⟩
    rw [bytes, memRead_memWrite hc]
    rfl

end

end Sys2Proof.Proofs


/-! PROOFS. Scratchpad words put back (R243). -/

namespace Sys2Proof.Proofs

open Sys2Proof.Machine Sys2Proof.Safety Sys2Proof.Laws

/-! ### Words put back -/

/-- Byte i of a number read. -/
theorem memGet_of_memRead (m : List Host.Cell) {a n i : Nat} (hi : i < n) :
    memGet m (a + i) = BitVec.ofNat 8 (memRead m a n / 256 ^ i) := by
  induction n generalizing a i with
  | zero => omega
  | succ n ih =>
    have byte : (memGet m a).toNat < 256 := (memGet m a).isLt
    rw [memRead]
    cases i with
    | zero =>
      refine BitVec.eq_of_toNat_eq ?_
      rw [BitVec.toNat_ofNat, Nat.pow_zero, Nat.div_one, Nat.add_zero]
      omega
    | succ i =>
      rw [show a + (i + 1) = a + 1 + i by omega, ih (by omega), Nat.pow_succ', ← Nat.div_div_eq_div_mul]
      congr 2
      omega

theorem memRead_congr {m m' : List Host.Cell} {a n : Nat} (h : ∀ i, i < n → memGet m' (a + i) = memGet m (a + i)) :
    memRead m' a n = memRead m a n := by
  induction n generalizing a with
  | zero => rfl
  | succ n ih =>
    rw [memRead, memRead, show memGet m' a = memGet m a from h 0 (by omega), ih fun i hi => ?_]
    rw [Nat.add_assoc, Nat.add_comm 1]
    exact h (i + 1) (by omega)

/-- One word put back, with its poison. -/
def putWord (s : State) (p : Nat × Nat) : State :=
  let s := s.writePa 0 p.1 4 (p.2 % 2 ^ 32)
  if 2 ^ 32 ≤ p.2 then s.poisonRange p.1 4 else s

theorem putWords_eq (s : State) (l : List (Nat × Nat)) : s.putWords l = l.foldl putWord s := rfl

theorem putWord_mem (s : State) (p : Nat × Nat) : (putWord s p).mem = (s.writePa 0 p.1 4 (p.2 % 2 ^ 32)).mem := by
  unfold putWord State.poisonRange
  dsimp only
  split_ifs <;> rfl

theorem putWord_wf {s : State} (p : Nat × Nat) (h : Memory.wf s.mem = true) : Memory.wf (putWord s p).mem = true := by
  rw [putWord_mem]; exact writePa_wf _ _ _ _ h

theorem putWords_wf {s : State} (l : List (Nat × Nat)) (h : Memory.wf s.mem = true) : Memory.wf (s.putWords l).mem = true :=
  foldl_keeps (fun u : State => Memory.wf u.mem = true) _ (fun _ p hu => putWord_wf p hu) _ _ h

theorem sameButMemory_putWords (s : State) (l : List (Nat × Nat)) : SameButMemory s (s.putWords l) := by
  refine foldl_keeps (SameButMemory s) putWord (fun u p h => h.trans ?_) l s (.refl s)
  have write := sameButMemory_writePa u 0 p.1 4 (p.2 % 2 ^ 32)
  unfold putWord
  dsimp only
  split
  · exact write.trans (sameButMemory_poisonRange _ _ _)
  · exact write

section

variable {m : List Host.Cell}

/-- A word of memory m put back: each of its bytes is as in m, and any other that was stays so. -/
theorem putWord_get {u : State} {p : Nat × Nat} (hc : Memory.wf u.mem = true) (hg : isGlobal p.1 = false)
    (hv : p.2 % 2 ^ 32 = memRead m p.1 4) {k : Nat} (hk : (p.1 ≤ k ∧ k < p.1 + 4) ∨ memGet u.mem k = memGet m k) :
    memGet (putWord u p).mem k = memGet m k := by
  have write : (putWord u p).mem = memWrite u.mem p.1 4 (memRead m p.1 4) := by
    rw [putWord_mem, hv]
    exact writePa_mem_of_keyHeld (by decide) fun e => absurd (hg.symm.trans e) (by decide)
  rw [write]
  by_cases hin : p.1 ≤ k ∧ k < p.1 + 4
  · obtain ⟨i, rfl⟩ := Nat.exists_eq_add_of_le hin.1
    rw [memGet_memWrite_in hc (by omega), memGet_of_memRead m (n := 4) (by omega)]
  · rw [memGet_memWrite_other hc (by omega)]
    exact hk.resolve_left hin

/-- Words of m put back: bytes as in m stay so. -/
theorem putWords_keeps {l : List (Nat × Nat)} {u : State} (hc : Memory.wf u.mem = true)
    (hl : ∀ p ∈ l, isGlobal p.1 = false ∧ p.2 % 2 ^ 32 = memRead m p.1 4) {k : Nat} (hk : memGet u.mem k = memGet m k) :
    memGet (u.putWords l).mem k = memGet m k := by
  rw [putWords_eq]
  induction l generalizing u with
  | nil => exact hk
  | cons p l ih =>
    obtain ⟨hg, hv⟩ := hl p (by simp)
    exact ih (putWord_wf p hc) (fun q hq => hl q (by simp [hq])) (putWord_get hc hg hv (.inr hk))

/-- Words of m put back: each is as in m, however they overlap. -/
theorem putWords_get {l : List (Nat × Nat)} {u : State} (hc : Memory.wf u.mem = true)
    (hl : ∀ p ∈ l, isGlobal p.1 = false ∧ p.2 % 2 ^ 32 = memRead m p.1 4) {p : Nat × Nat} (hp : p ∈ l) {k : Nat}
    (hk : p.1 ≤ k ∧ k < p.1 + 4) : memGet (u.putWords l).mem k = memGet m k := by
  induction l generalizing u with
  | nil => simp at hp
  | cons q l ih =>
    have rest : ∀ r ∈ l, isGlobal r.1 = false ∧ r.2 % 2 ^ 32 = memRead m r.1 4 := fun r hr => hl r (by simp [hr])
    obtain ⟨hg, hv⟩ := hl q (by simp)
    rcases List.mem_cons.mp hp with rfl | hp
    · exact putWords_keeps (l := l) (putWord_wf p hc) rest (putWord_get hc hg hv (.inl hk))
    · exact ih (u := putWord u q) (putWord_wf q hc) rest hp

end

/-- What the words at local addresses hold. -/
theorem wordsNow_spec {s : State} {l : List Nat} (hl : ∀ a ∈ l, isGlobal a = false) {p : Nat × Nat} (hp : p ∈ s.wordsNow l) :
    isGlobal p.1 = false ∧ p.2 % 2 ^ 32 = memRead s.mem p.1 4 := by
  obtain ⟨a, ha, rfl⟩ := List.mem_map.mp hp
  have small : memRead s.mem a 4 < 2 ^ 32 := memRead_lt s.mem a 4
  refine ⟨hl a ha, ?_⟩
  dsimp only
  rw [readPa_local (hl a ha)]
  split <;> omega

theorem mem_wordsNow (s : State) {l : List Nat} {a : Nat} (h : a ∈ l) : ∃ v, (a, v) ∈ s.wordsNow l :=
  ⟨_, List.mem_map.mpr ⟨a, h, rfl⟩⟩

end Sys2Proof.Proofs


/-! PROOFS. Release stores perform (R243, R247). -/

namespace Sys2Proof.Proofs

open Sys2Proof.Machine Sys2Proof.Safety Sys2Proof.Laws

/-! ### A write at its point of coherence -/

/-- What a write notes under its leaf: the form of its blocks and what is to become durable. -/
def noteWrite (s : State) (uid leaf pa n : Nat) : State :=
  let s := if leaf = 0 then s else s.setForm pa n (bits leaf 6 1 + 4 * bits leaf 7 1)
  if bit leaf 5 then s.cellarWrite uid 0 pa n else s

theorem sameButLines_noteWrite (s : State) (uid leaf pa n : Nat) : SameButLines s (noteWrite s uid leaf pa n) := by
  have form : SameButLines s (if leaf = 0 then s else s.setForm pa n (bits leaf 6 1 + 4 * bits leaf 7 1)) := by
    split
    · rfl
    · exact sameButLines_setForm s _ _ _
  unfold noteWrite
  dsimp only
  split
  · exact form.trans rfl
  · exact form

theorem perform_down {s : State} {pa : Nat} (uid leaf key n v : Nat) (h : s.cxlDown pa = true) :
    s.perform uid 0 leaf key pa n v = s.machineCheck 2 pa := if_pos h

theorem perform_up {s : State} {pa : Nat} (uid leaf key n v : Nat) (h : s.cxlDown pa = false) :
    s.perform uid 0 leaf key pa n v = (noteWrite ((s.l2Fills leaf pa n).writePa key pa n v) uid leaf pa n).wakeWriters pa n :=
  if_neg (by simp [h])

section

variable {s : State} {pa n : Nat} (uid leaf key v : Nat)

/-- What a strand's write leaves of the contexts. -/
theorem perform_ctx (s : State) (uid leaf key pa n v c j : Nat) :
    ctxBeside ((s.perform uid 0 leaf key pa n v).ctx c j) = ctxBeside (s.ctx c j) := by
  cases h : s.cxlDown pa with
  | true => rw [perform_down uid leaf key n v h, (sameButLines_machineCheck s 2 pa).sameCtxs.ctx]
  | false =>
    rw [perform_up uid leaf key n v h, (sameButIssue_wakeWriters _ pa n).ctx, (sameButLines_noteWrite _ uid leaf pa n).sameCtxs.ctx,
      (sameButMemory_writePa _ key pa n v).sameCtxs.ctx, (sameButLines_l2Fills s leaf pa n).sameCtxs.ctx]

theorem perform_up_mem (h : s.cxlDown pa = false) :
    (s.perform uid 0 leaf key pa n v).mem = ((s.l2Fills leaf pa n).writePa key pa n v).mem := by
  rw [perform_up uid leaf key n v h, (sameButIssue_wakeWriters _ pa n).mem,
    (sameButLines_noteWrite _ uid leaf pa n).on State.mem fun _ => rfl]

theorem perform_wf (hc : Memory.wf s.mem = true) : Memory.wf (s.perform uid 0 leaf key pa n v).mem = true := by
  cases h : s.cxlDown pa with
  | true => rw [perform_down uid leaf key n v h, machineCheck_mem]; exact hc
  | false =>
    rw [perform_up_mem uid leaf key v h]
    refine writePa_wf _ _ _ _ ?_
    rw [(sameButLines_l2Fills s leaf pa n).on State.mem fun _ => rfl]
    exact hc

/-- Where the granules hold its key, a write leaves its bytes over those that were there. -/
theorem perform_mem (hn : n ≠ 0) (hk : isGlobal pa = true → keyHeld s key pa n = true) :
    (s.perform uid 0 leaf key pa n v).mem = memWrite s.mem pa n v := by
  have up : s.cxlDown pa = false := by
    cases hg : isGlobal pa with
    | false => exact cxlDown_local hg
    | true => simpa using (Bool.and_eq_true_iff.mp (hk hg)).1
  have lines := sameButLines_l2Fills s leaf pa n
  rw [perform_up_mem uid leaf key v up, writePa_mem_of_keyHeld hn fun hg => (keyHeld_of_lines lines key pa n).trans (hk hg),
    lines.on State.mem fun _ => rfl]

end

/-! ### A release store performs -/

section

variable {s : State} {c j uid n pa va key : Nat} {w : Word} {g : Bool}

/-- A store as it performs, before its core's L1 sees it. -/
def storePerforms (c uid n pa va key : Nat) (w : Word) (g : Bool) (s : State) : State :=
  s.perform uid 0 (if g then s.leafOf c s.me.space va else 0) key pa n (w.toNat % 2 ^ (8 * n))

theorem storeAt_eq (s : State) : s.storeAt c uid n pa va key w.toNat g =
    if g then (storePerforms c uid n pa va key w g s).modCore c fun k => k.l1Store pa n w.toNat
    else storePerforms c uid n pa va key w g s :=
  rfl

theorem l1Store_ctxs (k : Core) (pa n v : Nat) : (k.l1Store pa n v).ctxs = k.ctxs := by
  unfold Core.l1Store; dsimp only; split <;> rfl

theorem sameCtxs_storeAt (s : State) :
    SameCtxs (storePerforms c uid n pa va key w g s) (s.storeAt c uid n pa va key w.toNat g) := by
  rw [storeAt_eq]
  split
  · exact sameCtxs_modCore fun k => l1Store_ctxs k pa n w.toNat
  · exact .refl _

theorem storeAt_mem (s : State) : (s.storeAt c uid n pa va key w.toNat g).mem = (storePerforms c uid n pa va key w g s).mem := by
  rw [storeAt_eq]; split <;> rfl

/-- A state in which a context acts outside any bundle. -/
def actsFor (s : State) (c j : Nat) : State :=
  { s with bun := { Bundle.none with core := c, ctx := j, pc := (s.ctx c j).pc, t := s.clk } }

/-- A store that performs for a context outside any bundle. -/
def lateStore (c j uid n pa va key : Nat) (w : Word) (g : Bool) (s : State) : State :=
  s.onBehalf c j fun s => s.storeAt c uid n pa va key w.toNat g

theorem lateStore_ctx (s : State) (a b : Nat) : ctxBeside ((lateStore c j uid n pa va key w g s).ctx a b) = ctxBeside (s.ctx a b) := by
  have store : (lateStore c j uid n pa va key w g s).ctx a b = (storePerforms c uid n pa va key w g (actsFor s c j)).ctx a b :=
    (sameCtxs_storeAt (actsFor s c j)).ctx a b
  rw [store]
  exact perform_ctx ..

theorem lateStore_mem (s : State) :
    (lateStore c j uid n pa va key w g s).mem = (storePerforms c uid n pa va key w g (actsFor s c j)).mem :=
  storeAt_mem (actsFor s c j)

theorem lateStore_wf (hc : Memory.wf s.mem = true) : Memory.wf (lateStore c j uid n pa va key w g s).mem = true := by
  rw [lateStore_mem]
  exact perform_wf (s := actsFor s c j) uid _ key _ hc

theorem lateStore_mem_of_keyHeld (hn : n ≠ 0) (hk : isGlobal pa = true → keyHeld s key pa n = true) :
    (lateStore c j uid n pa va key w g s).mem = memWrite s.mem pa n (w.toNat % 2 ^ (8 * n)) := by
  rw [lateStore_mem]
  exact perform_mem (s := actsFor s c j) uid _ key _ hn hk

/-! ### It performs before the words that VA's store of its bundle wrote -/

/-- The words of VA's store that a release holds back. -/
def heldBack (s : State) (c j : Nat) : List Nat := (s.ctx c j).relBefore.map (·.1)

theorem beforeVa_mem (f : State → State) :
    (s.beforeVa c j f).mem = ((f (s.putWords (s.ctx c j).relBefore)).putWords (s.wordsNow (heldBack s c j))).mem := rfl

/-- A context that holds no words back. -/
def holdsNothing (x : Ctx) : Ctx := { x with relBefore := [] }

theorem beforeVa_ctx {f : State → State} (hf : ∀ u, ctxBeside ((f u).ctx c j) = ctxBeside (u.ctx c j)) :
    ctxBeside ((s.beforeVa c j f).ctx c j) = ctxBeside (holdsNothing (s.ctx c j)) := by
  have inner : ctxBeside (((f (s.putWords (s.ctx c j).relBefore)).putWords (s.wordsNow (heldBack s c j))).ctx c j) =
      ctxBeside (s.ctx c j) := by
    rw [(sameButMemory_putWords _ _).sameCtxs.ctx, hf, (sameButMemory_putWords _ _).sameCtxs.ctx]
  unfold State.beforeVa
  rw [modCtx_ctx_same]
  exact congrArg holdsNothing inner

/-- Without such words the release alone performs. -/
theorem beforeVa_mem_of_none (f : State → State) (h : (s.ctx c j).relBefore = []) : (s.beforeVa c j f).mem = (f s).mem := by
  rw [beforeVa_mem, heldBack, h]; rfl

/-- Such words are as they were. -/
theorem beforeVa_word {f : State → State} (hc : Memory.wf s.mem = true)
    (hf : ∀ u, Memory.wf u.mem = true → Memory.wf (f u).mem = true) (hl : ∀ p ∈ (s.ctx c j).relBefore, isGlobal p.1 = false)
    {p : Nat × Nat} (hp : p ∈ (s.ctx c j).relBefore) : memRead (s.beforeVa c j f).mem p.1 4 = memRead s.mem p.1 4 := by
  have local_ : ∀ a ∈ heldBack s c j, isGlobal a = false := by
    intro a ha
    obtain ⟨q, hq, rfl⟩ := List.mem_map.mp ha
    exact hl q hq
  obtain ⟨v, hv⟩ := mem_wordsNow s (l := heldBack s c j) (List.mem_map.mpr ⟨p, hp, rfl⟩)
  refine memRead_congr fun i hi => ?_
  rw [beforeVa_mem]
  exact putWords_get (hf _ (putWords_wf _ hc)) (fun q hq => wordsNow_spec local_ hq) hv ⟨by dsimp only; omega, by dsimp only; omega⟩

/-! ### The release is over -/

theorem putBarrier_ctx (s : State) (pa w c j : Nat) : ctxBeside ((s.putBarrier pa w).ctx c j) = ctxBeside (s.ctx c j) := by
  rw [State.putBarrier, (sameButIssue_wakeWriters _ pa 16).ctx, (sameButMemory_writePa s 0 pa 16 w).sameCtxs.ctx]

/-- A context whose release and arrivals are done. -/
def released (x : Ctx) : Ctx := { x with rel := none, arrives := [] }

theorem relDone_ctx (s : State) (c j : Nat) : ctxBeside ((s.relDone c j).ctx c j) = ctxBeside (released (s.ctx c j)) := by
  have start : ctxBeside ((s.modCtx c j released).ctx c j) = ctxBeside (released (s.ctx c j)) := by rw [modCtx_ctx_same]
  exact foldl_keeps (fun u : State => ctxBeside (u.ctx c j) = ctxBeside (released (s.ctx c j))) _
    (fun u _ hu => (putBarrier_ctx u ..).trans hu) _ _ start

theorem relDone_mem_of_none (s : State) (c j : Nat) (h : (s.ctx c j).arrives = []) : (s.relDone c j).mem = s.mem := by
  rw [State.relDone, h]; rfl

theorem wordsGo_mem (s : State) (c j : Nat) : (s.wordsGo c j).mem = s.mem := rfl

theorem sameCtxs_wordsGo (s : State) (c j : Nat) : SameCtxs s (s.wordsGo c j) := sameCtxs_modCore fun _ => rfl

end

section

variable {s : State} {c j sc n pa va key : Nat} {w : Word} {g : Bool}

/-- The state in which a release of scope sc takes effect. -/
def releaseBegins (s : State) (c j sc : Nat) : State :=
  if sc = 4 then (given s [c, j]).coverCellar (s.ctx c j).uid else given s [c, j]

theorem sameButLines_releaseBegins (s : State) (c j sc : Nat) : SameButLines (given s [c, j]) (releaseBegins s c j sc) := by
  unfold releaseBegins; split <;> rfl

/-- The state in which its store has performed. -/
def releaseStored (s : State) (c j sc n pa va key : Nat) (w : Word) (g : Bool) : State :=
  (releaseBegins s c j sc).beforeVa c j (lateStore c j (s.ctx c j).uid n pa va key w g)

theorem answers_releaseStore (hr : (s.ctx c j).rel = some ⟨sc, .store n pa va key w g⟩) (hready : s.releaseReady c j = true) :
    Answers .releasePerformed [c, j] s (((releaseStored s c j sc n pa va key w g).relDone c j).wordsGo c j) := by
  have ready : (given s [c, j]).releaseReady c j = true := hready
  show execReleasePerformed (given s [c, j]) = _
  unfold execReleasePerformed
  simp only [given_op, List.getD_cons_zero, List.getD_cons_succ, given_ctx, ready, hr, Bool.not_true, Bool.false_eq_true, if_false]
  rfl

theorem releaseStored_arrives : ((releaseStored s c j sc n pa va key w g).ctx c j).arrives = (s.ctx c j).arrives := by
  have stored := beforeVa_ctx (s := releaseBegins s c j sc) (c := c) (j := j)
    (f := lateStore c j (s.ctx c j).uid n pa va key w g) fun u => lateStore_ctx u c j
  rw [(sameButLines_releaseBegins s c j sc).sameCtxs.ctx] at stored
  exact ctx_eq_of_beside stored Ctx.arrives fun _ => rfl

/-- A release store performs. -/
theorem releaseStore_takesEffect (hr : (s.ctx c j).rel = some ⟨sc, .store n pa va key w g⟩) (hready : s.releaseReady c j = true)
    (hn : n ≠ 0) (hc : MemoryCanonical s) (hk : isGlobal pa = true → keyHeld s key pa n = true)
    (hl : ∀ p, p ∈ (s.ctx c j).relBefore → isGlobal p.1 = false) :
    ∃ t, Answers .releasePerformed [c, j] s t ∧ (t.ctx c j).rel = none ∧ (t.ctx c j).arrives = [] ∧
      ((s.ctx c j).arrives = [] →
        ((s.ctx c j).relBefore = [] → memRead t.mem pa n = w.toNat % 2 ^ (8 * n) ∧ SameBytesBut pa n s t) ∧
        ∀ p, p ∈ (s.ctx c j).relBefore → memRead t.mem p.1 4 = memRead s.mem p.1 4) := by
  have begins := sameButLines_releaseBegins s c j sc
  have mem : (releaseBegins s c j sc).mem = s.mem := begins.on State.mem fun _ => rfl
  have ctx : (releaseBegins s c j sc).ctx c j = s.ctx c j := begins.sameCtxs.ctx c j
  have ha := answers_releaseStore hr hready
  have done : ctxBeside ((((releaseStored s c j sc n pa va key w g).relDone c j).wordsGo c j).ctx c j) =
      ctxBeside (released ((releaseStored s c j sc n pa va key w g).ctx c j)) := by
    rw [(sameCtxs_wordsGo _ c j).ctx, relDone_ctx]
  have stored : (s.ctx c j).arrives = [] →
      (((releaseStored s c j sc n pa va key w g).relDone c j).wordsGo c j).mem = (releaseStored s c j sc n pa va key w g).mem :=
    fun none_ => (wordsGo_mem _ c j).trans (relDone_mem_of_none _ c j (releaseStored_arrives.trans none_))
  generalize ((releaseStored s c j sc n pa va key w g).relDone c j).wordsGo c j = t at ha done stored
  have rel := ctx_eq_of_beside done Ctx.rel fun _ => rfl
  have arrives := ctx_eq_of_beside done Ctx.arrives fun _ => rfl
  refine ⟨t, ha, rel, arrives, fun none_ => ?_⟩
  rw [stored none_]
  refine ⟨fun before => ?_, fun p hp => ?_⟩
  · have bytes : (releaseStored s c j sc n pa va key w g).mem = memWrite s.mem pa n (w.toNat % 2 ^ (8 * n)) := by
      rw [releaseStored, beforeVa_mem_of_none _ (by rw [ctx]; exact before),
        lateStore_mem_of_keyHeld hn fun hg => (keyHeld_of_lines begins key pa n).trans (hk hg), mem]
    refine ⟨?_, sameBytesBut_memWrite hc ((stored none_).trans bytes)⟩
    rw [bytes, memRead_memWrite hc, pow_bytes, Nat.mod_mod]
  · rw [releaseStored, beforeVa_word (by rw [mem]; exact hc) (fun u hu => lateStore_wf hu) (by rw [ctx]; exact hl)
      (by rw [ctx]; exact hp), mem]

end

end Sys2Proof.Proofs


/-! PROOFS. The obligation on loads, releases and waits. -/

namespace Sys2Proof.Proofs

open Sys2Proof.Machine Sys2Proof.Safety Sys2Proof.Laws

/-- Settles O43: each event acts on a core that goes on running its context, so that no other is chosen, and a release or seal reaches
memory by writes alone. -/
theorem loadReleaseAndWaitEventsTakeEffect : Obligations.LoadReleaseAndWaitEventsTakeEffect := by
  intro s c j hr
  refine ⟨fun _ _ _ => loadReturn_takesEffect hr, fun _ _ _ => loadReturn_consumes hr,
    fun _ _ _ _ _ _ _ hrel ready hn _ => releaseStore_takesEffect hrel ready (by omega), fun _ _ => fwaitComplete_takesEffect hr,
    fun _ _ _ _ hw hf => ⟨fun _ => sealError_takesEffect hr hw hf, fun _ _ _ => sealOk_takesEffect hw hf⟩,
    fun _ _ _ _ _ _ => sealValid_takesEffect hr, fun _ _ _ _ _ => lineWake_takesEffect hr, fun _ _ => barWake_takesEffect hr,
    fun _ _ => drainTimeout_takesEffect hr, fun _ _ => fenceTimeout_takesEffect, spinPark_takesEffect⟩

end Sys2Proof.Proofs


/-! PROOFS. The obligation on strand events. -/

namespace Sys2Proof.Proofs

open Sys2Proof.Machine Sys2Proof.Safety Sys2Proof.Laws

/-! ### The slot of a handler start

The handler-start clause of O44 speaks of every state, also of one whose table of contexts lists a slot twice. A read of the table
(`tget`) finds the first entry, but the search for an armed slot (`State.armedSlot`) goes through all of them, so it can take a slot
that a read shows as free. -/

/-- A core whose table lists slot 0 twice: free, and then dormant and armed for crew 0. -/
def coreWithSlotTwice : Core := { Core.reset with ctxs := [(0, Ctx.empty), (0, { Ctx.empty with st := .dormant, crew := 0 })] }

/-- The reset state, but core 0 lists its slot 0 twice and one handler start waits there for crew 0. -/
def startOnSlotTwice : State := { State.reset with cores := [(0, coreWithSlotTwice)], starts := [⟨0, 0, 0, 0, 0⟩] }

/-- Refutes O44: where the table of contexts lists a slot twice, a handler start takes the slot for its second entry, armed, while
every read finds its first entry, which is free and stays so. -/
theorem not_strandEventsTakeEffect : ¬ Obligations.StrandEventsTakeEffect := by
  intro h
  obtain ⟨-, -, -, -, -, -, -, -, -, handlerStart, -⟩ := h
  obtain ⟨t, r, ha, -, hst, -⟩ := handlerStart startOnSlotTwice 0 ⟨0, 0, 0, 0, 0⟩ 0 rfl (by simp) (by decide) (by decide) (by decide)
    (by decide) (by decide) (by decide)
  have answer : t = _ := (Host.Outcome.next.inj ha).symm
  have free : (t.ctx 0 0).st = .free := by rw [answer]; decide
  exact absurd (hst.symm.trans free) (by decide)

end Sys2Proof.Proofs

/-! PROOFS. The fields of a word, and the words of each layout of operands (R60 to R66). -/

namespace Sys2Proof.Proofs

/-! ### Fields of a word -/

/-- The lower bits of a word, cut at bit lo. -/
theorem fld_cut (w lo n hi : Nat) (h : lo + n = hi := by rfl) : fld w 0 hi = fld w 0 lo + fld w lo n * 2 ^ lo := by
  simp [fld, ← h, pow_add, Nat.mod_mul, Nat.mul_comm]

/-- What stands above a field does not change what it reads. -/
theorem fld_add_mul (x y : Nat) {m lo n : Nat} (h : m % 2 ^ (lo + n) = 0) : fld (x + y * m) lo n = fld x lo n := by
  obtain ⟨k, rfl⟩ := Nat.dvd_of_mod_eq_zero h
  unfold fld
  rw [pow_add, show x + y * (2 ^ lo * 2 ^ n * k) = x + 2 ^ lo * (2 ^ n * (y * k)) by ring, Nat.add_mul_div_left _ _ (by positivity),
    Nat.add_mul_mod_self_left]

theorem two_pow_mod {k j : Nat} (h : j ≤ k) : 2 ^ k % 2 ^ j = 0 := Nat.mod_eq_zero_of_dvd (pow_dvd_pow 2 h)

/-! ### Layouts

What a word reads as that a form makes of its constant c and its operands: its major opcode is that of c, each operand is in its
field, and the bits that no operand takes are those of c. -/

section

variable {c d a b e i s o z g x y w : Nat}

theorem layout_dab (hw : c + d * 2097152 + a * 65536 + b * 2048 = w) (hd : d < 32) (ha : a < 32) (hb : b < 32)
    (hc : c % 2 ^ 26 < 2048) :
    w / 67108864 = c / 67108864 ∧ fld w 21 5 = d ∧ fld w 16 5 = a ∧ fld w 11 5 = b ∧ fld w 0 16 = b * 2048 + c % 2048 ∧
      ∀ lo n, lo + n ≤ 11 → fld w lo n = c / 2 ^ lo % 2 ^ n := by
  subst hw
  refine ⟨by omega, by unfold fld; omega, by unfold fld; omega, by unfold fld; omega, by unfold fld; omega, fun lo n h => ?_⟩
  rw [fld_add_mul (m := 2048) _ b (two_pow_mod (k := 11) h), fld_add_mul (m := 65536) _ a (two_pow_mod (k := 16) (by omega)),
    fld_add_mul (m := 2097152) _ d (two_pow_mod (k := 21) (by omega)), fld]

theorem layout_da (hw : c + d * 2097152 + a * 65536 = w) (hd : d < 32) (ha : a < 32) (hc : c % 2 ^ 26 < 65536) :
    w / 67108864 = c / 67108864 ∧ fld w 21 5 = d ∧ fld w 16 5 = a ∧
      fld w 0 26 = d * 2097152 + a * 65536 + c % 65536 ∧ ∀ lo n, lo + n ≤ 16 → fld w lo n = c / 2 ^ lo % 2 ^ n := by
  subst hw
  refine ⟨by omega, by unfold fld; omega, by unfold fld; omega, by unfold fld; omega, fun lo n h => ?_⟩
  rw [fld_add_mul (m := 65536) _ a (two_pow_mod (k := 16) h), fld_add_mul (m := 2097152) _ d (two_pow_mod (k := 21) (by omega)), fld]

theorem layout_dabe (hw : c + d * 2097152 + a * 65536 + b * 2048 + e * 64 = w) (hd : d < 32) (ha : a < 32) (hb : b < 32)
    (he : e < 32) (hc : c % 2 ^ 26 < 64) :
    w / 67108864 = c / 67108864 ∧ fld w 21 5 = d ∧ fld w 16 5 = a ∧ fld w 11 5 = b ∧ fld w 6 5 = e ∧ fld w 0 6 = c % 64 ∧
      fld w 0 11 = e * 64 + c % 64 := by
  subst hw
  unfold fld
  omega

theorem layout_gxy (hw : c + g * 262144 + x * 8192 + y * 256 = w) (hg : g < 16) (hx : x < 32) (hy : y < 32)
    (hc : c % 2 ^ 22 = 0) :
    w / 67108864 = c / 67108864 ∧ fld w 22 4 = c / 2 ^ 22 % 2 ^ 4 ∧ fld w 18 4 = g ∧ fld w 13 5 = x ∧ fld w 8 5 = y ∧ fld w 0 8 = 0 := by
  subst hw
  unfold fld
  omega

theorem layout_atomic (hw : c + d * 2097152 + a * 65536 + b * 2048 + s * 128 + o * 32 + z * 16 = w) (hd : d < 32) (ha : a < 32)
    (hb : b < 32) (hs : s < 8) (ho : o < 4) (hz : z < 2) (hc : c % 2 ^ 26 < 16) :
    w / 67108864 = c / 67108864 ∧ fld w 21 5 = d ∧ fld w 16 5 = a ∧ fld w 11 5 = b ∧ fld w 10 1 = 0 ∧ fld w 7 3 = s ∧ fld w 5 2 = o ∧
      fld w 4 1 = z ∧ fld w 0 4 = c % 16 := by
  subst hw
  unfold fld
  omega

/-- The forms whose one operand is the register at bit 17. -/
theorem layout_xa (hw : c + a * 131072 = w) (ha : a < 32) (hc : c % 2 ^ 22 = 0) :
    w / 67108864 = c / 67108864 ∧ fld w 22 4 = c / 2 ^ 22 % 2 ^ 4 ∧ fld w 17 5 = a ∧ fld w 0 17 = 0 := by
  subst hw
  unfold fld
  omega

theorem layout_dai (hw : c + d * 2097152 + a * 65536 + i = w) (hd : d < 32) (ha : a < 32) (hi : i < 65536) (hc : c % 2 ^ 26 = 0) :
    w / 67108864 = c / 67108864 ∧ fld w 21 5 = d ∧ fld w 16 5 = a ∧ fld w 0 16 = i := by
  subst hw
  unfold fld
  omega

theorem layout_dan (hw : c + d * 2097152 + a * 65536 + i = w) (hd : d < 32) (ha : a < 32) (hi : i < 64) (hc : c % 2 ^ 26 < 65536)
    (hz : c % 64 = 0) :
    w / 67108864 = c / 67108864 ∧ fld w 21 5 = d ∧ fld w 16 5 = a ∧ fld w 0 6 = i ∧ fld w 6 10 = c % 65536 / 64 := by
  subst hw
  unfold fld
  omega

theorem layout_dalp (hw : c + d * 2097152 + a * 65536 + b * 64 + i = w) (hd : d < 32) (ha : a < 32) (hb : b < 64) (hi : i < 64)
    (hc : c % 2 ^ 26 < 65536) (hz : c % 4096 = 0) :
    w / 67108864 = c / 67108864 ∧ fld w 21 5 = d ∧ fld w 16 5 = a ∧ fld w 6 6 = b ∧ fld w 0 6 = i ∧ fld w 12 4 = c % 65536 / 4096 := by
  subst hw
  unfold fld
  omega

end

end Sys2Proof.Proofs


/-! PROOFS. The word of each well-formed form decodes to it (R60 to R66).

By the constructors of a map, those of one layout together; a form of another map, or an event, has no word in it. -/

namespace Sys2Proof.Proofs

theorem accept_of_wf {i : Instr} (h : i.wf = true) : accept i = some i := by simp [accept, h]

theorem bounds_and_word {p : Prop} [Decidable p] {sm sm' : SlotMap} {v w : Nat} (wf : decide p = true) (word : some (sm, v) = some (sm', w)) :
    p ∧ v = w :=
  ⟨of_decide_eq_true wf, (Prod.mk.inj (Option.some.inj word)).2⟩

/-- The forms of the S map that compute, move and check (R107 to R119). -/
theorem decodeS_encode_compute {i : Instr} {w : Nat} (h : i.ctorIdx < 59) (wf : i.wf = true) (word : encode i = some (.s, w)) :
    decodeS w = some i := by
  cases i
  case add d a b | sub d a b | and d a b | or d a b | xor d a b | andn d a b | shl d a b | shr d a b | sar d a b |
      ror d a b | minI64 d a b | minN64 d a b | maxI64 d a b | maxN64 d a b | addsI64 d a b | addsN64 d a b |
      subsI64 d a b | subsN64 d a b | mul d a b | mulhI64 d a b | mulhN64 d a b | divI64 d a b | divN64 d a b |
      remI64 d a b | remN64 d a b =>
    obtain ⟨hd, ha, hb⟩ := of_decide_eq_true wf
    obtain ⟨major, hd, ha, hb, -, low⟩ := layout_dab (Prod.mk.inj (Option.some.inj word)).2 hd ha hb (by decide)
    simp [decodeS, decodeS1, decodeS3, major, hd, ha, hb, low, accept_of_wf wf]
  case clz d a | ctz d a | popc d a | neg d a | not d a | abs d a | sx8 d a | sx16 d a | sx32 d a | zx8 d a |
      zx16 d a | zx32 d a | brev d a | bswap d a =>
    obtain ⟨hd, ha⟩ := of_decide_eq_true wf
    obtain ⟨major, hd, ha, -, low⟩ := layout_da (Prod.mk.inj (Option.some.inj word)).2 hd ha (by decide)
    simp [decodeS, decodeS2, major, hd, ha, low, accept_of_wf wf]
  case addi d a i | andi d a i | ori d a i | xori d a i | movk d a i | lea d a i =>
    obtain ⟨hd, ha, hi⟩ := of_decide_eq_true wf
    obtain ⟨major, hd, ha, hi⟩ := layout_dai (Prod.mk.inj (Option.some.inj word)).2 hd ha hi (by decide)
    simp [decodeS, decodeS5, decodeS6, decodeS7, decodeS8, decodeS12, decodeS13, major, hd, ha, hi, accept_of_wf wf]
  case shli d a n | shri d a n | sari d a n | rori d a n =>
    obtain ⟨hd, ha, hn⟩ := of_decide_eq_true wf
    obtain ⟨major, hd, ha, hn, sel⟩ := layout_dan (Prod.mk.inj (Option.some.inj word)).2 hd ha hn (by decide) (by decide)
    simp [decodeS, decodeS9, major, hd, ha, hn, sel, accept_of_wf wf]
  case bextN64 d a l p | bextI64 d a l p | bins d a l p =>
    obtain ⟨hd, ha, hl, hp, -⟩ := of_decide_eq_true wf
    obtain ⟨major, hd, ha, hl, hp, sel⟩ := layout_dalp (Prod.mk.inj (Option.some.inj word)).2 hd ha hl hp (by decide) (by decide)
    simp [decodeS, decodeS14, decodeS15, major, hd, ha, hl, hp, sel, accept_of_wf wf]
  case cmp d a b c =>
    obtain ⟨bounds, sum⟩ := bounds_and_word wf word
    have fields : w / 67108864 = 4 ∧ fld w 3 8 = 0 ∧ fld w 21 5 = d ∧ fld w 16 5 = a ∧ fld w 11 5 = b ∧ fld w 0 3 = c := by
      unfold fld; omega
    simp [decodeS, decodeS4, fields, accept_of_wf wf]
  case cmpi d a c i =>
    obtain ⟨bounds, sum⟩ := bounds_and_word wf word
    have fields : w / 67108864 = 10 ∧ fld w 21 5 = d ∧ fld w 16 5 = a ∧ fld w 13 3 = c ∧ fld w 0 13 = i := by
      unfold fld; omega
    simp [decodeS, decodeS10, fields, accept_of_wf wf]
  case movi d i =>
    obtain ⟨bounds, sum⟩ := bounds_and_word wf word
    have fields : w / 67108864 = 11 ∧ fld w 21 5 = d ∧ fld w 0 21 = i := by
      unfold fld; omega
    simp [decodeS, decodeS11, fields, accept_of_wf wf]
  case crd d n =>
    obtain ⟨bounds, sum⟩ := bounds_and_word wf word
    have fields : w / 67108864 = 16 ∧ fld w 12 9 = 0 ∧ fld w 21 5 = d ∧ fld w 0 12 = n := by
      unfold fld; omega
    simp [decodeS, decodeS16, fields, accept_of_wf wf]
  case cwr a n =>
    obtain ⟨bounds, sum⟩ := bounds_and_word wf word
    have fields : w / 67108864 = 17 ∧ fld w 12 4 = 0 ∧ fld w 21 5 = 0 ∧ fld w 16 5 = a ∧ fld w 0 12 = n := by
      unfold fld; omega
    simp [decodeS, decodeS17, fields, accept_of_wf wf]
  case gset a f i =>
    obtain ⟨bounds, sum⟩ := bounds_and_word wf word
    have fields : w / 67108864 = 18 ∧ fld w 8 8 = 0 ∧ fld w 21 5 = 0 ∧ fld w 16 5 = a ∧ fld w 7 1 = f ∧ fld w 0 7 = i := by
      unfold fld; omega
    simp [decodeS, decodeS18, fields, accept_of_wf wf]
  case gget d f i =>
    obtain ⟨bounds, sum⟩ := bounds_and_word wf word
    have fields : w / 67108864 = 19 ∧ fld w 8 13 = 0 ∧ fld w 21 5 = d ∧ fld w 7 1 = f ∧ fld w 0 7 = i := by
      unfold fld; omega
    simp [decodeS, decodeS19, fields, accept_of_wf wf]
  all_goals cases word
  all_goals exact absurd h (of_decide_eq_false rfl)

/-- The forms of the S map that use memory: loads, stores, atomics, fences, transforms, phases and seals (chapter 10). -/
theorem decodeS_encode_memory {i : Instr} {w : Nat} (h : 59 ≤ i.ctorIdx ∧ i.ctorIdx < 87) (wf : i.wf = true) (word : encode i = some (.s, w)) :
    decodeS w = some i := by
  cases i
  case xformBpack d a b | xformBunpack d a b =>
    obtain ⟨hd, ha, hb⟩ := of_decide_eq_true wf
    obtain ⟨major, hd, ha, hb, -, low⟩ := layout_dab (Prod.mk.inj (Option.some.inj word)).2 hd ha hb (by decide)
    simp [decodeS, decodeS29, major, hd, ha, hb, low, accept_of_wf wf]
  case amoAdd d a b s o z | amoAnd d a b s o z | amoOr d a b s o z | amoXor d a b s o z | amoMinI d a b s o z |
      amoMaxI d a b s o z | amoMinN d a b s o z | amoMaxN d a b s o z | amoSwap d a b s o z | amoFadd d a b s o z |
      cas d a b s o z =>
    obtain ⟨hd, ha, hb, hs, ho, hz, -⟩ := of_decide_eq_true wf
    obtain ⟨major, hd, ha, hb, h10, hs, ho, hz, low⟩ := layout_atomic (Prod.mk.inj (Option.some.inj word)).2 hd ha hb hs ho hz (by decide)
    simp [decodeS, decodeS24, decodeS25, major, hd, ha, hb, h10, hs, ho, hz, low, accept_of_wf wf]
  case ld d a t o =>
    obtain ⟨bounds, sum⟩ := bounds_and_word wf word
    have fields : w / 67108864 = 20 ∧ fld w 21 5 = d ∧ fld w 16 5 = a ∧ fld w 13 3 = t ∧ fld w 0 13 = o := by
      unfold fld; omega
    simp [decodeS, decodeS20, fields, accept_of_wf wf]
  case st d a t o =>
    obtain ⟨bounds, sum⟩ := bounds_and_word wf word
    have fields : w / 67108864 = 21 ∧ fld w 21 5 = d ∧ fld w 16 5 = a ∧ fld w 13 3 = t ∧ fld w 0 13 = o := by
      unfold fld; omega
    simp [decodeS, decodeS21, fields, accept_of_wf wf]
  case ldx d o =>
    obtain ⟨bounds, sum⟩ := bounds_and_word wf word
    have fields : w / 67108864 = 22 ∧ fld w 14 7 = 0 ∧ fld w 21 5 = d ∧ fld w 0 14 = o := by
      unfold fld; omega
    simp [decodeS, decodeS22, fields, accept_of_wf wf]
  case stx d o =>
    obtain ⟨bounds, sum⟩ := bounds_and_word wf word
    have fields : w / 67108864 = 22 ∧ fld w 14 7 = 2 ∧ fld w 21 5 = d ∧ fld w 0 14 = o := by
      unfold fld; omega
    simp [decodeS, decodeS22, fields, accept_of_wf wf]
  case ldAcq d a s z o =>
    obtain ⟨bounds, sum⟩ := bounds_and_word wf word
    have fields : w / 67108864 = 23 ∧ fld w 15 1 = 0 ∧ fld w 21 5 = d ∧ fld w 16 5 = a ∧ fld w 12 3 = s ∧
        fld w 11 1 = z ∧ fld w 0 11 = o := by
      unfold fld; omega
    simp [decodeS, decodeS23, fields, accept_of_wf wf]
  case stRel d a s z o =>
    obtain ⟨bounds, sum⟩ := bounds_and_word wf word
    have fields : w / 67108864 = 23 ∧ fld w 15 1 = 1 ∧ fld w 21 5 = d ∧ fld w 16 5 = a ∧ fld w 12 3 = s ∧
        fld w 11 1 = z ∧ fld w 0 11 = o := by
      unfold fld; omega
    simp [decodeS, decodeS23, fields, accept_of_wf wf]
  case fence d s =>
    obtain ⟨bounds, sum⟩ := bounds_and_word wf word
    have fields : w / 67108864 = 26 ∧ fld w 3 18 = 0 ∧ fld w 21 5 = d ∧ fld w 0 3 = s := by
      unfold fld; omega
    simp [decodeS, decodeS26, fields, accept_of_wf wf]
  case fwait a =>
    obtain ⟨bounds, sum⟩ := bounds_and_word wf word
    have fields : w / 67108864 = 27 ∧ fld w 0 16 = 0 ∧ fld w 21 5 = 0 ∧ fld w 16 5 = a := by
      unfold fld; omega
    simp [decodeS, decodeS27, fields, accept_of_wf wf]
  case publish a s =>
    obtain ⟨bounds, sum⟩ := bounds_and_word wf word
    have fields : w / 67108864 = 28 ∧ fld w 3 13 = 0 ∧ fld w 21 5 = 0 ∧ fld w 16 5 = a ∧ fld w 0 3 = s := by
      unfold fld; omega
    simp [decodeS, decodeS28, fields, accept_of_wf wf]
  case xformSplit d a b f =>
    obtain ⟨bounds, sum⟩ := bounds_and_word wf word
    have fields : w / 67108864 = 29 ∧ fld w 0 4 = 0 ∧ fld w 8 3 = 0 ∧ fld w 21 5 = d ∧ fld w 16 5 = a ∧ fld w 11 5 = b ∧
        fld w 4 4 = f := by
      unfold fld; omega
    simp [decodeS, decodeS29, fields, accept_of_wf wf]
  case xformMerge d a b f =>
    obtain ⟨bounds, sum⟩ := bounds_and_word wf word
    have fields : w / 67108864 = 29 ∧ fld w 0 4 = 0 ∧ fld w 8 3 = 1 ∧ fld w 21 5 = d ∧ fld w 16 5 = a ∧ fld w 11 5 = b ∧
        fld w 4 4 = f := by
      unfold fld; omega
    simp [decodeS, decodeS29, fields, accept_of_wf wf]
  case xformConv d a b f g =>
    obtain ⟨bounds, sum⟩ := bounds_and_word wf word
    have fields : w / 67108864 = 29 ∧ fld w 8 3 = 2 ∧ fld w 21 5 = d ∧ fld w 16 5 = a ∧ fld w 11 5 = b ∧ fld w 4 4 = f ∧
        fld w 0 4 = g := by
      unfold fld; omega
    simp [decodeS, decodeS29, fields, accept_of_wf wf]
  case xformZero d b =>
    obtain ⟨bounds, sum⟩ := bounds_and_word wf word
    have fields : w / 67108864 = 29 ∧ fld w 0 11 = 768 ∧ fld w 16 5 = 0 ∧ fld w 21 5 = d ∧ fld w 11 5 = b ∧
        fld w 0 4 = 0 ∧ fld w 8 3 = 3 := by
      unfold fld; omega
    simp [decodeS, decodeS29, fields, accept_of_wf wf]
  case phaseStart a n m =>
    obtain ⟨bounds, sum⟩ := bounds_and_word wf word
    have fields : w / 67108864 = 30 ∧ fld w 8 8 = 0 ∧ fld w 21 5 = 0 ∧ fld w 16 5 = a ∧ fld w 4 4 = n ∧ fld w 0 4 = m := by
      unfold fld; omega
    simp [decodeS, decodeS30, fields, accept_of_wf wf]
  case ckseal d a n =>
    obtain ⟨bounds, sum⟩ := bounds_and_word wf word
    have fields : w / 67108864 = 31 ∧ fld w 2 14 = 0 ∧ fld w 21 5 = d ∧ fld w 16 5 = a ∧ fld w 0 2 = n := by
      unfold fld; omega
    simp [decodeS, decodeS31, fields, accept_of_wf wf]
  all_goals cases word
  all_goals exact absurd h (of_decide_eq_false rfl)

/-- The other forms of the S map: strands, the Silo, barriers, regions, and the forms without operands. -/
theorem decodeS_encode_scheduling {i : Instr} {w : Nat} (h : 87 ≤ i.ctorIdx) (wf : i.wf = true) (word : encode i = some (.s, w)) :
    decodeS w = some i := by
  cases i
  case wvpinT d a b | wvgetT d a b | wvrelT d a b | arrive d a b | mwaitN32 d a b | mwaitN64 d a b | gtrig d a b |
      barArrive d a b | barWait d a b | barTest d a b =>
    obtain ⟨hd, ha, hb⟩ := of_decide_eq_true wf
    obtain ⟨major, hd, ha, hb, low16, low⟩ := layout_dab (Prod.mk.inj (Option.some.inj word)).2 hd ha hb (by decide)
    simp [decodeS, decodeS36, decodeS37, decodeS38, decodeS39, decodeS40, major, hd, ha, hb, low16, low, accept_of_wf wf]
  case crewJoin d a | crewInfo d a | wvpin d a | wvget d a | wvrel d a | wvnewStage d a | dormArm d a |
      dormDisarm d a =>
    obtain ⟨hd, ha⟩ := of_decide_eq_true wf
    obtain ⟨major, hd, ha, low26, low⟩ := layout_da (Prod.mk.inj (Option.some.inj word)).2 hd ha (by decide)
    simp [decodeS, decodeS35, decodeS36, decodeS45, major, hd, ha, low26, low, accept_of_wf wf]
  case spawn d a n =>
    obtain ⟨bounds, sum⟩ := bounds_and_word wf word
    have fields : w / 67108864 = 32 ∧ fld w 6 10 = 0 ∧ fld w 21 5 = d ∧ fld w 16 5 = a ∧ fld w 0 6 = n := by
      unfold fld; omega
    simp [decodeS, decodeS32, fields, accept_of_wf wf]
  case suspend s p f =>
    obtain ⟨bounds, sum⟩ := bounds_and_word wf word
    have fields : w / 67108864 = 33 ∧ fld w 6 20 = 0 ∧ fld w 5 1 = s ∧ fld w 2 3 = p ∧ fld w 0 2 = f := by
      unfold fld; omega
    simp [decodeS, decodeS33, fields, accept_of_wf wf]
  case wvnewPub a =>
    obtain ⟨bounds, sum⟩ := bounds_and_word wf word
    have fields : w / 67108864 = 36 ∧ fld w 0 16 = 4 ∧ fld w 21 5 = 0 ∧ fld w 16 5 = a ∧ fld w 0 11 = 4 := by
      unfold fld; omega
    simp [decodeS, decodeS36, fields, accept_of_wf wf]
  case barInit a b =>
    obtain ⟨bounds, sum⟩ := bounds_and_word wf word
    have fields : w / 67108864 = 40 ∧ fld w 0 11 = 0 ∧ fld w 21 5 = 0 ∧ fld w 16 5 = a ∧ fld w 11 5 = b := by
      unfold fld; omega
    simp [decodeS, decodeS40, fields, accept_of_wf wf]
  case barExpect a b =>
    obtain ⟨bounds, sum⟩ := bounds_and_word wf word
    have fields : w / 67108864 = 40 ∧ fld w 0 11 = 1 ∧ fld w 21 5 = 0 ∧ fld w 16 5 = a ∧ fld w 11 5 = b := by
      unfold fld; omega
    simp [decodeS, decodeS40, fields, accept_of_wf wf]
  case rdcnt d n =>
    obtain ⟨bounds, sum⟩ := bounds_and_word wf word
    have fields : w / 67108864 = 41 ∧ fld w 12 9 = 0 ∧ fld w 21 5 = d ∧ fld w 0 12 = n := by
      unfold fld; omega
    simp [decodeS, decodeS41, fields, accept_of_wf wf]
  case rbeg l =>
    obtain ⟨bounds, sum⟩ := bounds_and_word wf word
    have fields : w / 67108864 = 42 ∧ fld w 6 20 = 0 ∧ fld w 0 6 = l := by
      unfold fld; omega
    simp [decodeS, decodeS42, fields, accept_of_wf wf]
  case chkt a b =>
    obtain ⟨bounds, sum⟩ := bounds_and_word wf word
    have fields : w / 67108864 = 44 ∧ fld w 0 11 = 0 ∧ fld w 21 5 = 0 ∧ fld w 16 5 = a ∧ fld w 11 5 = b := by
      unfold fld; omega
    simp [decodeS, decodeS44, fields, accept_of_wf wf]
  case dormCount d =>
    obtain ⟨bounds, sum⟩ := bounds_and_word wf word
    have fields : w / 67108864 = 45 ∧ fld w 0 21 = 2 ∧ fld w 21 5 = d ∧ fld w 0 16 = 2 := by
      unfold fld; omega
    simp [decodeS, decodeS45, fields, accept_of_wf wf]
  case nopS | phaseCommitCore | phaseCommitClu | phaseCommitDev | phaseCommitSys | phaseCommitRcv | phaseAbort |
      exit | crewLeave | rcom =>
    cases word; decide
  all_goals cases word
  all_goals exact absurd h (of_decide_eq_false rfl)

/-- The forms of the V map. -/
theorem decodeV_encode {i : Instr} {w : Nat} (wf : i.wf = true) (word : encode i = some (.v, w)) :
    decodeV w = some i := by
  cases i
  case vfadd d a b | vfsub d a b | vfmul d a b | vfmin d a b | vfmax d a b | vfsgn d a b | viadd d a b |
      visub d a b | vimul d a b | vimulh d a b | vand d a b | vor d a b | vxor d a b | vandn d a b | vshl d a b |
      vshr d a b | vsar d a b | vimin d a b | vimax d a b | viadds d a b | visubs d a b | vperm d a b | vzipl d a b |
      vziph d a b | vunze d a b | vunzo d a b | vgat d a b =>
    obtain ⟨hd, ha, hb, -⟩ := of_decide_eq_true wf
    obtain ⟨major, hd, ha, hb, -, low⟩ := layout_dab (Prod.mk.inj (Option.some.inj word)).2 hd ha hb (by decide)
    simp [decodeV, decodeV1, decodeV3, decodeV8, decodeV18, major, hd, ha, hb, low, accept_of_wf wf]
  case viabs d a | vineg d a | vfabs d a | vfneg d a | vsqrt d a | vrcp d a | vrsqrt d a | vexp2 d a | vexp d a |
      vlog2 d a | vtanh d a | vsigm d a | vredadd d a | vredmin d a | vredmax d a | vredand d a | vredor d a |
      vredxor d a | vscanadd d a | vscanmin d a | vscanmax d a | vscanxadd d a | vscanxmin d a | vscanxmax d a |
      vcomp d a | vexpd d a =>
    obtain ⟨hd, ha, -⟩ := of_decide_eq_true wf
    obtain ⟨major, hd, ha, -, low⟩ := layout_da (Prod.mk.inj (Option.some.inj word)).2 hd ha (by decide)
    simp [decodeV, decodeV3, decodeV7, decodeV10, decodeV11, decodeV12, major, hd, ha, low, accept_of_wf wf]
  case vfma d a b e | vfms d a b e | vnfma d a b e | vnfms d a b e | vsel d a b e | vsels d a b e | vperm2 d a b e =>
    obtain ⟨hd, ha, hb, he, -⟩ := of_decide_eq_true wf
    obtain ⟨major, hd, ha, hb, he, low, low11⟩ := layout_dabe (Prod.mk.inj (Option.some.inj word)).2 hd ha hb he (by decide)
    simp [decodeV, decodeV2, decodeV5, decodeV8, major, hd, ha, hb, he, low, low11, accept_of_wf wf]
  case vrot d a n | vshd d a n | vext64 d a n =>
    obtain ⟨hd, ha, hn, -⟩ := of_decide_eq_true wf
    obtain ⟨major, hd, ha, hn, sel⟩ := layout_dan (Prod.mk.inj (Option.some.inj word)).2 hd ha hn (by decide) (by decide)
    simp [decodeV, decodeV9, decodeV14, major, hd, ha, hn, sel, accept_of_wf wf]
  case vcmp d a b k =>
    obtain ⟨bounds, sum⟩ := bounds_and_word wf word
    have fields : w / 67108864 = 4 ∧ fld w 3 8 = 0 ∧ fld w 21 5 = d ∧ fld w 16 5 = a ∧ fld w 11 5 = b ∧ fld w 0 3 = k := by
      unfold fld; omega
    simp [decodeV, decodeV4, fields, accept_of_wf wf]
  case vcmpm a b k =>
    obtain ⟨bounds, sum⟩ := bounds_and_word wf word
    have fields : w / 67108864 = 4 ∧ fld w 3 8 = 1 ∧ fld w 21 5 = 0 ∧ fld w 16 5 = a ∧ fld w 11 5 = b ∧ fld w 0 3 = k := by
      unfold fld; omega
    simp [decodeV, decodeV4, fields, accept_of_wf wf]
  case vcvt d a p s =>
    obtain ⟨bounds, sum⟩ := bounds_and_word wf word
    have fields : w / 67108864 = 6 ∧ fld w 6 10 = 0 ∧ fld w 21 5 = d ∧ fld w 16 5 = a ∧ fld w 4 2 = p ∧ fld w 0 4 = s ∧
        fld w 11 5 = 0 ∧ fld w 0 6 ≠ 14 ∧ fld w 0 6 ≠ 15 := by
      unfold fld; omega
    simp [decodeV, decodeV6, fields, accept_of_wf wf]
  case vcvtTote d a m =>
    obtain ⟨bounds, sum⟩ := bounds_and_word wf word
    have fields : w / 67108864 = 6 ∧ fld w 0 6 = 14 ∧ fld w 11 5 = 0 ∧ fld w 21 5 = d ∧ fld w 16 5 = a ∧ fld w 6 5 = m := by
      unfold fld; omega
    simp [decodeV, decodeV6, fields, accept_of_wf wf]
  case vcvtFrte d a m =>
    obtain ⟨bounds, sum⟩ := bounds_and_word wf word
    have fields : w / 67108864 = 6 ∧ fld w 0 6 = 15 ∧ fld w 11 5 = 0 ∧ fld w 21 5 = d ∧ fld w 16 5 = a ∧ fld w 6 5 = m := by
      unfold fld; omega
    simp [decodeV, decodeV6, fields, accept_of_wf wf]
  case vcat d a b n =>
    obtain ⟨bounds, sum⟩ := bounds_and_word wf word
    have fields : w / 67108864 = 9 ∧ fld w 6 5 = 2 ∧ fld w 21 5 = d ∧ fld w 16 5 = a ∧ fld w 11 5 = b ∧ fld w 0 6 = n ∧
        fld w 6 10 ≠ 0 ∧ fld w 6 10 ≠ 1 := by
      unfold fld; omega
    simp [decodeV, decodeV9, fields, accept_of_wf wf]
  case vm2v d =>
    obtain ⟨bounds, sum⟩ := bounds_and_word wf word
    have fields : w / 67108864 = 12 ∧ fld w 0 21 = 2 ∧ fld w 21 5 = d ∧ fld w 0 16 = 2 := by
      unfold fld; omega
    simp [decodeV, decodeV12, fields, accept_of_wf wf]
  case vnzm a =>
    obtain ⟨bounds, sum⟩ := bounds_and_word wf word
    have fields : w / 67108864 = 12 ∧ fld w 0 16 = 3 ∧ fld w 21 5 = 0 ∧ fld w 16 5 = a ∧ fld w 0 21 ≠ 2 := by
      unfold fld; omega
    simp [decodeV, decodeV12, fields, accept_of_wf wf]
  case vmovi d i =>
    obtain ⟨bounds, sum⟩ := bounds_and_word wf word
    have fields : w / 67108864 = 13 ∧ fld w 20 1 = 0 ∧ fld w 21 5 = d ∧ fld w 0 20 = i := by
      unfold fld; omega
    simp [decodeV, decodeV13, fields, accept_of_wf wf]
  case vmovih d i =>
    obtain ⟨bounds, sum⟩ := bounds_and_word wf word
    have fields : w / 67108864 = 13 ∧ fld w 20 1 = 1 ∧ fld w 21 5 = d ∧ fld w 0 20 = i := by
      unfold fld; omega
    simp [decodeV, decodeV13, fields, accept_of_wf wf]
  case vext d a l =>
    obtain ⟨bounds, sum⟩ := bounds_and_word wf word
    have fields : w / 67108864 = 14 ∧ fld w 6 10 = 0 ∧ fld w 21 5 = d ∧ fld w 16 5 = a ∧ fld w 0 6 = l := by
      unfold fld; omega
    simp [decodeV, decodeV14, fields, accept_of_wf wf]
  case vexts d a l =>
    obtain ⟨bounds, sum⟩ := bounds_and_word wf word
    have fields : w / 67108864 = 14 ∧ fld w 6 10 = 1 ∧ fld w 21 5 = d ∧ fld w 16 5 = a ∧ fld w 0 6 = l := by
      unfold fld; omega
    simp [decodeV, decodeV14, fields, accept_of_wf wf]
  case vaccr d b q u =>
    obtain ⟨bounds, sum⟩ := bounds_and_word wf word
    have fields : w / 67108864 = 15 ∧ fld w 4 7 = 0 ∧ fld w 16 5 = 0 ∧ fld w 21 5 = d ∧ fld w 11 5 = b ∧ fld w 2 2 = q ∧
        fld w 0 2 = u := by
      unfold fld; omega
    simp [decodeV, decodeV15, fields, accept_of_wf wf]
  case vaccw a b q u =>
    obtain ⟨bounds, sum⟩ := bounds_and_word wf word
    have fields : w / 67108864 = 15 ∧ fld w 4 7 = 1 ∧ fld w 21 5 = 0 ∧ fld w 16 5 = a ∧ fld w 11 5 = b ∧ fld w 2 2 = q ∧
        fld w 0 2 = u := by
      unfold fld; omega
    simp [decodeV, decodeV15, fields, accept_of_wf wf]
  case vaccrF64 d b q u =>
    obtain ⟨bounds, sum⟩ := bounds_and_word wf word
    have fields : w / 67108864 = 15 ∧ fld w 4 7 = 2 ∧ fld w 16 5 = 0 ∧ fld w 21 5 = d ∧ fld w 11 5 = b ∧ fld w 2 2 = q ∧
        fld w 0 2 = u := by
      unfold fld; omega
    simp [decodeV, decodeV15, fields, accept_of_wf wf]
  case vaccwF64 a b q u =>
    obtain ⟨bounds, sum⟩ := bounds_and_word wf word
    have fields : w / 67108864 = 15 ∧ fld w 4 7 = 3 ∧ fld w 21 5 = 0 ∧ fld w 16 5 = a ∧ fld w 11 5 = b ∧ fld w 2 2 = q ∧
        fld w 0 2 = u := by
      unfold fld; omega
    simp [decodeV, decodeV15, fields, accept_of_wf wf]
  case vld d a m =>
    obtain ⟨bounds, sum⟩ := bounds_and_word wf word
    have fields : w / 67108864 = 16 ∧ fld w 2 14 = 0 ∧ fld w 21 5 = d ∧ fld w 16 5 = a ∧ fld w 0 2 = m := by
      unfold fld; omega
    simp [decodeV, decodeV16, fields, accept_of_wf wf]
  case vst a c m =>
    obtain ⟨bounds, sum⟩ := bounds_and_word wf word
    have fields : w / 67108864 = 17 ∧ fld w 2 4 = 0 ∧ fld w 11 5 = 0 ∧ fld w 21 5 = 0 ∧ fld w 16 5 = a ∧ fld w 6 5 = c ∧
        fld w 0 2 = m := by
      unfold fld; omega
    simp [decodeV, decodeV17, fields, accept_of_wf wf]
  case vscat a b c =>
    obtain ⟨bounds, sum⟩ := bounds_and_word wf word
    have fields : w / 67108864 = 18 ∧ fld w 0 6 = 1 ∧ fld w 21 5 = 0 ∧ fld w 16 5 = a ∧ fld w 11 5 = b ∧ fld w 6 5 = c ∧
        fld w 0 11 ≠ 0 := by
      unfold fld; omega
    simp [decodeV, decodeV18, fields, accept_of_wf wf]
  case vqh d k =>
    obtain ⟨bounds, sum⟩ := bounds_and_word wf word
    have fields : w / 67108864 = 19 ∧ fld w 3 18 = 0 ∧ fld w 21 5 = d ∧ fld w 0 3 = k := by
      unfold fld; omega
    simp [decodeV, decodeV19, fields, accept_of_wf wf]
  case vchk a b =>
    obtain ⟨bounds, sum⟩ := bounds_and_word wf word
    have fields : w / 67108864 = 20 ∧ fld w 0 11 = 0 ∧ fld w 21 5 = 0 ∧ fld w 16 5 = a ∧ fld w 11 5 = b := by
      unfold fld; omega
    simp [decodeV, decodeV20, fields, accept_of_wf wf]
  case nopV =>
    cases word; decide
  all_goals cases word

/-- The forms of the M map. -/
theorem decodeM_encode {i : Instr} {w : Nat} (wf : i.wf = true) (word : encode i = some (.m, w)) :
    decodeM w = some i := by
  cases i
  case tmm g x y | tmmt g x y | tlx g x y | tlxT g x y | tlxX g x y | tlxTx g x y | tla g x y | tlaT g x y |
      tproj g x y | tlplE g x y | tlplA g x y | tlplEa g x y =>
    obtain ⟨hg, hx, hy⟩ := of_decide_eq_true wf
    obtain ⟨major, sel, hg, hx, hy, low⟩ := layout_gxy (Prod.mk.inj (Option.some.inj word)).2 hg hx hy (by decide)
    simp [decodeM, decodeM1, decodeM2, decodeM3, decodeM4, decodeM5, decodeM6, major, sel, hg, hx, hy, low, accept_of_wf wf]
  case tzero m =>
    obtain ⟨bounds, sum⟩ := bounds_and_word wf word
    have fields : w / 67108864 = 7 ∧ fld w 4 22 = 0 ∧ fld w 0 4 = m := by
      unfold fld; omega
    simp [decodeM, decodeM7, fields, accept_of_wf wf]
  case tldacc f x y u =>
    obtain ⟨bounds, sum⟩ := bounds_and_word wf word
    have fields : w / 67108864 = 8 ∧ fld w 2 6 = 0 ∧ fld w 18 4 = 0 ∧ fld w 22 4 = f ∧ fld w 13 5 = x ∧ fld w 8 5 = y ∧
        fld w 0 2 = u := by
      unfold fld; omega
    simp [decodeM, decodeM8, fields, accept_of_wf wf]
  case tstacc f x y u =>
    obtain ⟨bounds, sum⟩ := bounds_and_word wf word
    have fields : w / 67108864 = 9 ∧ fld w 2 6 = 0 ∧ fld w 18 4 = 0 ∧ fld w 22 4 = f ∧ fld w 13 5 = x ∧ fld w 8 5 = y ∧
        fld w 0 2 = u := by
      unfold fld; omega
    simp [decodeM, decodeM9, fields, accept_of_wf wf]
  case tstaccG f x y u =>
    obtain ⟨bounds, sum⟩ := bounds_and_word wf word
    have fields : w / 67108864 = 9 ∧ fld w 2 6 = 1 ∧ fld w 18 4 = 0 ∧ fld w 22 4 = f ∧ fld w 13 5 = x ∧ fld w 8 5 = y ∧
        fld w 0 2 = u := by
      unfold fld; omega
    simp [decodeM, decodeM9, fields, accept_of_wf wf]
  case tscale x y m =>
    obtain ⟨bounds, sum⟩ := bounds_and_word wf word
    have fields : w / 67108864 = 10 ∧ fld w 4 4 = 0 ∧ fld w 18 8 = 0 ∧ fld w 13 5 = x ∧ fld w 8 5 = y ∧ fld w 0 4 = m := by
      unfold fld; omega
    simp [decodeM, decodeM10, fields, accept_of_wf wf]
  case nopM | twait =>
    cases word; decide
  all_goals cases word

/-- The forms of the C map. -/
theorem decodeC_encode {i : Instr} {w : Nat} (wf : i.wf = true) (word : encode i = some (.c, w)) :
    decodeC w = some i := by
  cases i
  case cpy c g x y f =>
    obtain ⟨bounds, sum⟩ := bounds_and_word wf word
    have fields : w / 67108864 = 1 ∧ fld w 6 2 = 0 ∧ fld w 23 3 = c ∧ fld w 18 5 = g ∧ fld w 13 5 = x ∧ fld w 8 5 = y ∧
        fld w 0 6 = f := by
      unfold fld; omega
    simp [decodeC, decodeC1, fields, accept_of_wf wf]
  case cpym c g x y m f =>
    obtain ⟨bounds, sum⟩ := bounds_and_word wf word
    have fields : w / 67108864 = 2 ∧ fld w 3 1 = 0 ∧ fld w 6 2 = 0 ∧ fld w 23 3 = c ∧ fld w 18 5 = g ∧ fld w 13 5 = x ∧
        fld w 8 5 = y ∧ fld w 4 2 = m ∧ fld w 0 3 = f := by
      unfold fld; omega
    simp [decodeC, decodeC2, fields, accept_of_wf wf]
  case rdx c g x y m f =>
    obtain ⟨bounds, sum⟩ := bounds_and_word wf word
    have fields : w / 67108864 = 3 ∧ fld w 3 1 = 0 ∧ fld w 6 2 = 0 ∧ fld w 23 3 = c ∧ fld w 18 5 = g ∧ fld w 13 5 = x ∧
        fld w 8 5 = y ∧ fld w 4 2 = m ∧ fld w 0 3 = f := by
      unfold fld; omega
    simp [decodeC, decodeC3, fields, accept_of_wf wf]
  case drain c =>
    obtain ⟨bounds, sum⟩ := bounds_and_word wf word
    have fields : w / 67108864 = 4 ∧ fld w 0 23 = 0 ∧ fld w 23 3 = c := by
      unfold fld; omega
    simp [decodeC, decodeC4, fields, accept_of_wf wf]
  case qpush k x y =>
    obtain ⟨bounds, sum⟩ := bounds_and_word wf word
    have fields : w / 67108864 = 5 ∧ fld w 0 8 = 0 ∧ fld w 18 5 = 0 ∧ fld w 23 3 = k ∧ fld w 13 5 = x ∧ fld w 8 5 = y := by
      unfold fld; omega
    simp [decodeC, decodeC5, fields, accept_of_wf wf]
  case stash c g x y =>
    obtain ⟨bounds, sum⟩ := bounds_and_word wf word
    have fields : w / 67108864 = 6 ∧ fld w 0 8 = 0 ∧ fld w 23 3 = c ∧ fld w 18 5 = g ∧ fld w 13 5 = x ∧ fld w 8 5 = y := by
      unfold fld; omega
    simp [decodeC, decodeC6, fields, accept_of_wf wf]
  case unstash c g x y f =>
    obtain ⟨bounds, sum⟩ := bounds_and_word wf word
    have fields : w / 67108864 = 7 ∧ fld w 3 5 = 0 ∧ fld w 23 3 = c ∧ fld w 18 5 = g ∧ fld w 13 5 = x ∧ fld w 8 5 = y ∧
        fld w 0 3 = f := by
      unfold fld; omega
    simp [decodeC, decodeC7, fields, accept_of_wf wf]
  case sdrop c y =>
    obtain ⟨bounds, sum⟩ := bounds_and_word wf word
    have fields : w / 67108864 = 8 ∧ fld w 0 8 = 0 ∧ fld w 13 10 = 0 ∧ fld w 23 3 = c ∧ fld w 8 5 = y := by
      unfold fld; omega
    simp [decodeC, decodeC8, fields, accept_of_wf wf]
  case chsend c g x y =>
    obtain ⟨bounds, sum⟩ := bounds_and_word wf word
    have fields : w / 67108864 = 9 ∧ fld w 0 8 = 0 ∧ fld w 23 3 = c ∧ fld w 18 5 = g ∧ fld w 13 5 = x ∧ fld w 8 5 = y := by
      unfold fld; omega
    simp [decodeC, decodeC9, fields, accept_of_wf wf]
  case chack c y =>
    obtain ⟨bounds, sum⟩ := bounds_and_word wf word
    have fields : w / 67108864 = 10 ∧ fld w 0 8 = 0 ∧ fld w 13 10 = 0 ∧ fld w 23 3 = c ∧ fld w 8 5 = y := by
      unfold fld; omega
    simp [decodeC, decodeC10, fields, accept_of_wf wf]
  case glean c g x y =>
    obtain ⟨bounds, sum⟩ := bounds_and_word wf word
    have fields : w / 67108864 = 11 ∧ fld w 0 8 = 0 ∧ fld w 23 3 = c ∧ fld w 18 5 = g ∧ fld w 13 5 = x ∧ fld w 8 5 = y := by
      unfold fld; omega
    simp [decodeC, decodeC11, fields, accept_of_wf wf]
  case nopC =>
    cases word; decide
  all_goals cases word

/-- The forms of the X map. -/
theorem decodeX_encode {i : Instr} {w : Nat} (wf : i.wf = true) (word : encode i = some (.x, w)) :
    decodeX w = some i := by
  cases i
  case jr a | jrl a | mpush a | mpushRaw a | fmtw a =>
    have ha := of_decide_eq_true wf
    obtain ⟨major, sel, ha, low⟩ := layout_xa (Prod.mk.inj (Option.some.inj word)).2 ha (by decide)
    simp [decodeX, decodeX3, decodeX5, decodeX9, major, sel, ha, low, accept_of_wf wf]
  case br c a o =>
    obtain ⟨bounds, sum⟩ := bounds_and_word wf word
    have fields : w / 67108864 = 1 ∧ fld w 22 4 = c ∧ fld w 17 5 = a ∧ fld w 0 17 = o := by
      unfold fld; omega
    simp [decodeX, decodeX1, fields, accept_of_wf wf]
  case call o =>
    obtain ⟨bounds, sum⟩ := bounds_and_word wf word
    have fields : w / 67108864 = 2 ∧ fld w 17 9 = 0 ∧ fld w 0 17 = o := by
      unfold fld; omega
    simp [decodeX, decodeX2, fields, accept_of_wf wf]
  case loopEnter a o =>
    obtain ⟨bounds, sum⟩ := bounds_and_word wf word
    have fields : w / 67108864 = 4 ∧ fld w 22 4 = 1 ∧ fld w 17 5 = a ∧ fld w 0 17 = o := by
      unfold fld; omega
    simp [decodeX, decodeX4, fields, accept_of_wf wf]
  case loop a o =>
    obtain ⟨bounds, sum⟩ := bounds_and_word wf word
    have fields : w / 67108864 = 4 ∧ fld w 22 4 = 0 ∧ fld w 17 5 = a ∧ fld w 0 17 = o := by
      unfold fld; omega
    simp [decodeX, decodeX4, fields, accept_of_wf wf]
  case mpop n =>
    obtain ⟨bounds, sum⟩ := bounds_and_word wf word
    have fields : w / 67108864 = 7 ∧ fld w 0 22 = 0 ∧ fld w 22 4 = n := by
      unfold fld; omega
    simp [decodeX, decodeX7, fields, accept_of_wf wf]
  case bnone o =>
    obtain ⟨bounds, sum⟩ := bounds_and_word wf word
    have fields : w / 67108864 = 8 ∧ fld w 17 9 = 0 ∧ fld w 0 17 = o := by
      unfold fld; omega
    simp [decodeX, decodeX8, fields, accept_of_wf wf]
  case fmtwVty v =>
    obtain ⟨bounds, sum⟩ := bounds_and_word wf word
    have fields : w / 67108864 = 9 ∧ fld w 4 22 = 262144 ∧ fld w 0 4 = v ∧ fld w 22 4 = 1 := by
      unfold fld; omega
    simp [decodeX, decodeX9, fields, accept_of_wf wf]
  case fmtwMab b a =>
    obtain ⟨bounds, sum⟩ := bounds_and_word wf word
    have fields : w / 67108864 = 9 ∧ fld w 12 14 = 2048 ∧ fld w 6 6 = b ∧ fld w 0 6 = a ∧ fld w 22 4 = 2 ∧
        fld w 4 22 ≠ 262144 := by
      unfold fld; omega
    simp [decodeX, decodeX9, fields, accept_of_wf wf]
  case fmtwRnd i s r =>
    obtain ⟨bounds, sum⟩ := bounds_and_word wf word
    have fields : w / 67108864 = 9 ∧ fld w 7 19 = 98304 ∧ fld w 4 3 = i ∧ fld w 3 1 = s ∧ fld w 0 3 = r ∧
        fld w 22 4 = 3 ∧ fld w 4 22 ≠ 262144 ∧ fld w 12 14 = 3072 := by
      unfold fld; omega
    simp [decodeX, decodeX9, fields, accept_of_wf wf]
  case trap c a k =>
    obtain ⟨bounds, sum⟩ := bounds_and_word wf word
    have fields : w / 67108864 = 10 ∧ fld w 22 4 = c ∧ fld w 17 5 = a ∧ fld w 0 17 = k := by
      unfold fld; omega
    simp [decodeX, decodeX10, fields, accept_of_wf wf]
  case sysc k =>
    obtain ⟨bounds, sum⟩ := bounds_and_word wf word
    have fields : w / 67108864 = 11 ∧ fld w 17 9 = 0 ∧ fld w 0 17 = k := by
      unfold fld; omega
    simp [decodeX, decodeX11, fields, accept_of_wf wf]
  case ebrk k =>
    obtain ⟨bounds, sum⟩ := bounds_and_word wf word
    have fields : w / 67108864 = 12 ∧ fld w 17 9 = 0 ∧ fld w 0 17 = k := by
      unfold fld; omega
    simp [decodeX, decodeX12, fields, accept_of_wf wf]
  case halt k =>
    obtain ⟨bounds, sum⟩ := bounds_and_word wf word
    have fields : w / 67108864 = 14 ∧ fld w 17 9 = 0 ∧ fld w 0 17 = k := by
      unfold fld; omega
    simp [decodeX, decodeX14, fields, accept_of_wf wf]
  case nopX | minv | fmtwBlk00 | fmtwBlk01 | fmtwBlk10 | fmtwBlk11 | yield =>
    cases word; decide
  all_goals cases word

end Sys2Proof.Proofs


/-! PROOFS. A word that decodes is the word of what it decodes to, and no bit of it is ignored (R60 to R66). -/

namespace Sys2Proof.Proofs

/-- The map's decoder reads nothing from w but a well-formed form whose word w is. -/
def ReadsOnly (sm : SlotMap) (w : Nat) (o : Option Instr) : Prop := ∀ i, o = some i → i.wf = true ∧ encode i = some (sm, w)

section

variable {sm : SlotMap} {w : Nat}

theorem readsOnly_none : ReadsOnly sm w none := fun _ h => nomatch h

theorem readsOnly_accept {i : Instr} {v : Nat} (e : encode i = some (sm, v)) (h : v = w) : ReadsOnly sm w (accept i) := by
  intro j hj
  unfold accept at hj
  split at hj
  · next wf => cases hj; exact ⟨wf, h ▸ e⟩
  · nomatch hj

theorem readsOnly_ite {c : Prop} [Decidable c] {a b : Option Instr} (h : c → ReadsOnly sm w a) (g : ReadsOnly sm w b) :
    ReadsOnly sm w (if c then a else b) := by
  split
  · next hc => exact h hc
  · exact g

theorem readsOnly_zero {i : Instr} (wf : i.wf = true) (e : encode i = some (sm, 0)) :
    ReadsOnly sm w (if w = 0 then some i else none) :=
  readsOnly_ite (fun h _ g => Option.some.inj g ▸ ⟨wf, h ▸ e⟩) readsOnly_none

theorem decodeS_readsOnly : ReadsOnly .s w (decodeS w) := by
  have word : w = w / 2 ^ 26 * 67108864 + fld w 0 26 := by unfold fld; omega
  have cut21 := fld_cut w 21 5 26
  have cut16 := fld_cut w 16 5 21
  unfold decodeS
  split
  case h_1 => exact readsOnly_zero rfl rfl
  case h_2 major | h_4 major | h_37 major | h_38 major | h_39 major | h_40 major | h_41 major | h_45 major =>
    have cut11 := fld_cut w 11 5 16
    simp only [decodeS1, decodeS3, decodeS36, decodeS37, decodeS38, decodeS39, decodeS40, decodeS44]
    repeat refine readsOnly_ite (fun _ => readsOnly_accept rfl (by omega)) ?_
    exact readsOnly_none
  case h_3 major | h_28 major | h_35 major | h_36 major | h_44 major | h_46 major =>
    simp only [decodeS2, decodeS27, decodeS34, decodeS35, decodeS43, decodeS45]
    repeat refine readsOnly_ite (fun _ => readsOnly_accept rfl (by omega)) ?_
    exact readsOnly_none
  case h_5 major =>
    have cut11 := fld_cut w 11 5 16
    have cut3 := fld_cut w 3 8 11
    unfold decodeS4
    repeat refine readsOnly_ite (fun _ => readsOnly_accept rfl (by omega)) ?_
    exact readsOnly_none
  case h_6 major | h_7 major | h_8 major | h_9 major | h_12 major | h_13 major | h_14 major =>
    simp only [decodeS5, decodeS6, decodeS7, decodeS8, decodeS11, decodeS12, decodeS13]
    exact readsOnly_accept rfl (by omega)
  case h_10 major | h_33 major =>
    have cut6 := fld_cut w 6 10 16
    simp only [decodeS9, decodeS32]
    repeat refine readsOnly_ite (fun _ => readsOnly_accept rfl (by omega)) ?_
    exact readsOnly_none
  case h_11 major | h_21 major | h_22 major =>
    have cut13 := fld_cut w 13 3 16
    simp only [decodeS10, decodeS20, decodeS21]
    exact readsOnly_accept rfl (by omega)
  case h_15 major | h_16 major =>
    have cut12 := fld_cut w 12 4 16
    have cut6 := fld_cut w 6 6 12
    simp only [decodeS14, decodeS15]
    repeat refine readsOnly_ite (fun _ => readsOnly_accept rfl (by omega)) ?_
    exact readsOnly_none
  case h_17 major | h_42 major =>
    have cut12 := fld_cut w 12 9 21
    simp only [decodeS16, decodeS41]
    repeat refine readsOnly_ite (fun _ => readsOnly_accept rfl (by omega)) ?_
    exact readsOnly_none
  case h_18 major =>
    have cut12 := fld_cut w 12 4 16
    unfold decodeS17
    repeat refine readsOnly_ite (fun _ => readsOnly_accept rfl (by omega)) ?_
    exact readsOnly_none
  case h_19 major =>
    have cut8 := fld_cut w 8 8 16
    have cut7 := fld_cut w 7 1 8
    unfold decodeS18
    repeat refine readsOnly_ite (fun _ => readsOnly_accept rfl (by omega)) ?_
    exact readsOnly_none
  case h_20 major =>
    have cut8 := fld_cut w 8 13 21
    have cut7 := fld_cut w 7 1 8
    unfold decodeS19
    repeat refine readsOnly_ite (fun _ => readsOnly_accept rfl (by omega)) ?_
    exact readsOnly_none
  case h_23 major =>
    have cut14 := fld_cut w 14 7 21
    unfold decodeS22
    repeat refine readsOnly_ite (fun _ => readsOnly_accept rfl (by omega)) ?_
    exact readsOnly_none
  case h_24 major =>
    have cut15 := fld_cut w 15 1 16
    have cut12 := fld_cut w 12 3 15
    have cut11 := fld_cut w 11 1 12
    unfold decodeS23
    repeat refine readsOnly_ite (fun _ => readsOnly_accept rfl (by omega)) ?_
    exact readsOnly_none
  case h_25 major | h_26 major =>
    have cut11 := fld_cut w 11 5 16
    have cut10 := fld_cut w 10 1 11
    have cut7 := fld_cut w 7 3 10
    have cut5 := fld_cut w 5 2 7
    have cut4 := fld_cut w 4 1 5
    simp only [decodeS24, decodeS25]
    repeat refine readsOnly_ite (fun _ => readsOnly_accept rfl (by omega)) ?_
    exact readsOnly_none
  case h_27 major =>
    have cut3 := fld_cut w 3 18 21
    unfold decodeS26
    repeat refine readsOnly_ite (fun _ => readsOnly_accept rfl (by omega)) ?_
    exact readsOnly_none
  case h_29 major =>
    have cut3 := fld_cut w 3 13 16
    unfold decodeS28
    repeat refine readsOnly_ite (fun _ => readsOnly_accept rfl (by omega)) ?_
    exact readsOnly_none
  case h_30 major =>
    have cut11 := fld_cut w 11 5 16
    have cut8 := fld_cut w 8 3 11
    have cut4 := fld_cut w 4 4 8
    unfold decodeS29
    repeat refine readsOnly_ite (fun _ => readsOnly_accept rfl (by omega)) ?_
    exact readsOnly_none
  case h_31 major =>
    have cut8 := fld_cut w 8 8 16
    have cut4 := fld_cut w 4 4 8
    unfold decodeS30
    repeat refine readsOnly_ite (fun _ => readsOnly_accept rfl (by omega)) ?_
    exact readsOnly_none
  case h_32 major =>
    have cut2 := fld_cut w 2 14 16
    unfold decodeS31
    repeat refine readsOnly_ite (fun _ => readsOnly_accept rfl (by omega)) ?_
    exact readsOnly_none
  case h_34 major =>
    have cut6 := fld_cut w 6 20 26
    have cut5 := fld_cut w 5 1 6
    have cut2 := fld_cut w 2 3 5
    unfold decodeS33
    repeat refine readsOnly_ite (fun _ => readsOnly_accept rfl (by omega)) ?_
    exact readsOnly_none
  case h_43 major =>
    have cut6 := fld_cut w 6 20 26
    unfold decodeS42
    repeat refine readsOnly_ite (fun _ => readsOnly_accept rfl (by omega)) ?_
    exact readsOnly_none
  all_goals exact readsOnly_none

theorem decodeV_readsOnly : ReadsOnly .v w (decodeV w) := by
  have word : w = w / 2 ^ 26 * 67108864 + fld w 0 26 := by unfold fld; omega
  have cut21 := fld_cut w 21 5 26
  have cut16 := fld_cut w 16 5 21
  unfold decodeV
  split
  case h_1 => exact readsOnly_zero rfl rfl
  case h_2 major | h_4 major | h_21 major =>
    have cut11 := fld_cut w 11 5 16
    simp only [decodeV1, decodeV3, decodeV20]
    repeat refine readsOnly_ite (fun _ => readsOnly_accept rfl (by omega)) ?_
    exact readsOnly_none
  case h_3 major | h_6 major | h_9 major | h_19 major =>
    have cut11 := fld_cut w 11 5 16
    have cut6 := fld_cut w 6 5 11
    simp only [decodeV2, decodeV5, decodeV8, decodeV18]
    repeat refine readsOnly_ite (fun _ => readsOnly_accept rfl (by omega)) ?_
    exact readsOnly_none
  case h_5 major =>
    have cut11 := fld_cut w 11 5 16
    have cut3 := fld_cut w 3 8 11
    unfold decodeV4
    repeat refine readsOnly_ite (fun _ => readsOnly_accept rfl (by omega)) ?_
    exact readsOnly_none
  case h_7 major =>
    have cut11 := fld_cut w 11 5 16
    have cut6_10 := fld_cut w 6 10 16
    have cut6_5 := fld_cut w 6 5 11
    have cut4 := fld_cut w 4 2 6
    unfold decodeV6
    repeat refine readsOnly_ite (fun _ => readsOnly_accept rfl (by omega)) ?_
    exact readsOnly_none
  case h_8 major | h_11 major | h_12 major | h_13 major =>
    simp only [decodeV7, decodeV10, decodeV11, decodeV12]
    repeat refine readsOnly_ite (fun _ => readsOnly_accept rfl (by omega)) ?_
    exact readsOnly_none
  case h_10 major =>
    have cut11 := fld_cut w 11 5 16
    have cut6_10 := fld_cut w 6 10 16
    have cut6_5 := fld_cut w 6 5 11
    unfold decodeV9
    repeat refine readsOnly_ite (fun _ => readsOnly_accept rfl (by omega)) ?_
    exact readsOnly_none
  case h_14 major =>
    have cut20 := fld_cut w 20 1 21
    unfold decodeV13
    repeat refine readsOnly_ite (fun _ => readsOnly_accept rfl (by omega)) ?_
    exact readsOnly_none
  case h_15 major =>
    have cut6 := fld_cut w 6 10 16
    unfold decodeV14
    repeat refine readsOnly_ite (fun _ => readsOnly_accept rfl (by omega)) ?_
    exact readsOnly_none
  case h_16 major =>
    have cut11 := fld_cut w 11 5 16
    have cut4 := fld_cut w 4 7 11
    have cut2 := fld_cut w 2 2 4
    unfold decodeV15
    repeat refine readsOnly_ite (fun _ => readsOnly_accept rfl (by omega)) ?_
    exact readsOnly_none
  case h_17 major =>
    have cut2 := fld_cut w 2 14 16
    unfold decodeV16
    repeat refine readsOnly_ite (fun _ => readsOnly_accept rfl (by omega)) ?_
    exact readsOnly_none
  case h_18 major =>
    have cut11 := fld_cut w 11 5 16
    have cut6 := fld_cut w 6 5 11
    have cut2 := fld_cut w 2 4 6
    unfold decodeV17
    repeat refine readsOnly_ite (fun _ => readsOnly_accept rfl (by omega)) ?_
    exact readsOnly_none
  case h_20 major =>
    have cut3 := fld_cut w 3 18 21
    unfold decodeV19
    repeat refine readsOnly_ite (fun _ => readsOnly_accept rfl (by omega)) ?_
    exact readsOnly_none
  all_goals exact readsOnly_none

theorem decodeM_readsOnly : ReadsOnly .m w (decodeM w) := by
  have word : w = w / 2 ^ 26 * 67108864 + fld w 0 26 := by unfold fld; omega
  unfold decodeM
  split
  case h_1 => exact readsOnly_zero rfl rfl
  case h_2 major | h_3 major | h_4 major | h_5 major | h_6 major | h_7 major =>
    have cut22 := fld_cut w 22 4 26
    have cut18 := fld_cut w 18 4 22
    have cut13 := fld_cut w 13 5 18
    have cut8 := fld_cut w 8 5 13
    simp only [decodeM1, decodeM2, decodeM3, decodeM4, decodeM5, decodeM6]
    repeat refine readsOnly_ite (fun _ => readsOnly_accept rfl (by omega)) ?_
    exact readsOnly_none
  case h_8 major =>
    have cut4 := fld_cut w 4 22 26
    unfold decodeM7
    repeat refine readsOnly_ite (fun _ => readsOnly_accept rfl (by omega)) ?_
    exact readsOnly_none
  case h_9 major | h_10 major =>
    have cut22 := fld_cut w 22 4 26
    have cut18 := fld_cut w 18 4 22
    have cut13 := fld_cut w 13 5 18
    have cut8 := fld_cut w 8 5 13
    have cut2 := fld_cut w 2 6 8
    simp only [decodeM8, decodeM9]
    repeat refine readsOnly_ite (fun _ => readsOnly_accept rfl (by omega)) ?_
    exact readsOnly_none
  case h_11 major =>
    have cut18 := fld_cut w 18 8 26
    have cut13 := fld_cut w 13 5 18
    have cut8 := fld_cut w 8 5 13
    have cut4 := fld_cut w 4 4 8
    unfold decodeM10
    repeat refine readsOnly_ite (fun _ => readsOnly_accept rfl (by omega)) ?_
    exact readsOnly_none
  case h_12 major =>
    unfold decodeM11
    repeat refine readsOnly_ite (fun _ => readsOnly_accept rfl (by omega)) ?_
    exact readsOnly_none
  all_goals exact readsOnly_none

theorem decodeC_readsOnly : ReadsOnly .c w (decodeC w) := by
  have word : w = w / 2 ^ 26 * 67108864 + fld w 0 26 := by unfold fld; omega
  unfold decodeC
  split
  case h_1 => exact readsOnly_zero rfl rfl
  case h_2 major =>
    have cut23 := fld_cut w 23 3 26
    have cut18 := fld_cut w 18 5 23
    have cut13 := fld_cut w 13 5 18
    have cut8 := fld_cut w 8 5 13
    have cut6 := fld_cut w 6 2 8
    unfold decodeC1
    repeat refine readsOnly_ite (fun _ => readsOnly_accept rfl (by omega)) ?_
    exact readsOnly_none
  case h_3 major | h_4 major =>
    have cut23 := fld_cut w 23 3 26
    have cut18 := fld_cut w 18 5 23
    have cut13 := fld_cut w 13 5 18
    have cut8 := fld_cut w 8 5 13
    have cut6 := fld_cut w 6 2 8
    have cut4 := fld_cut w 4 2 6
    have cut3 := fld_cut w 3 1 4
    simp only [decodeC2, decodeC3]
    repeat refine readsOnly_ite (fun _ => readsOnly_accept rfl (by omega)) ?_
    exact readsOnly_none
  case h_5 major =>
    have cut23 := fld_cut w 23 3 26
    unfold decodeC4
    repeat refine readsOnly_ite (fun _ => readsOnly_accept rfl (by omega)) ?_
    exact readsOnly_none
  case h_6 major | h_7 major | h_10 major | h_12 major =>
    have cut23 := fld_cut w 23 3 26
    have cut18 := fld_cut w 18 5 23
    have cut13 := fld_cut w 13 5 18
    have cut8 := fld_cut w 8 5 13
    simp only [decodeC5, decodeC6, decodeC9, decodeC11]
    repeat refine readsOnly_ite (fun _ => readsOnly_accept rfl (by omega)) ?_
    exact readsOnly_none
  case h_8 major =>
    have cut23 := fld_cut w 23 3 26
    have cut18 := fld_cut w 18 5 23
    have cut13 := fld_cut w 13 5 18
    have cut8 := fld_cut w 8 5 13
    have cut3 := fld_cut w 3 5 8
    unfold decodeC7
    repeat refine readsOnly_ite (fun _ => readsOnly_accept rfl (by omega)) ?_
    exact readsOnly_none
  case h_9 major | h_11 major =>
    have cut23 := fld_cut w 23 3 26
    have cut13 := fld_cut w 13 10 23
    have cut8 := fld_cut w 8 5 13
    simp only [decodeC8, decodeC10]
    repeat refine readsOnly_ite (fun _ => readsOnly_accept rfl (by omega)) ?_
    exact readsOnly_none
  all_goals exact readsOnly_none

theorem decodeX_readsOnly : ReadsOnly .x w (decodeX w) := by
  have word : w = w / 2 ^ 26 * 67108864 + fld w 0 26 := by unfold fld; omega
  unfold decodeX
  split
  case h_1 => exact readsOnly_zero rfl rfl
  case h_2 major | h_11 major =>
    have cut22 := fld_cut w 22 4 26
    have cut17 := fld_cut w 17 5 22
    simp only [decodeX1, decodeX10]
    exact readsOnly_accept rfl (by omega)
  case h_3 major | h_9 major | h_12 major | h_13 major | h_15 major =>
    have cut17 := fld_cut w 17 9 26
    simp only [decodeX2, decodeX8, decodeX11, decodeX12, decodeX14]
    repeat refine readsOnly_ite (fun _ => readsOnly_accept rfl (by omega)) ?_
    exact readsOnly_none
  case h_4 major | h_5 major | h_6 major =>
    have cut22 := fld_cut w 22 4 26
    have cut17 := fld_cut w 17 5 22
    simp only [decodeX3, decodeX4, decodeX5]
    repeat refine readsOnly_ite (fun _ => readsOnly_accept rfl (by omega)) ?_
    exact readsOnly_none
  case h_7 major | h_14 major =>
    simp only [decodeX6, decodeX13]
    repeat refine readsOnly_ite (fun _ => readsOnly_accept rfl (by omega)) ?_
    exact readsOnly_none
  case h_8 major =>
    have cut22 := fld_cut w 22 4 26
    unfold decodeX7
    repeat refine readsOnly_ite (fun _ => readsOnly_accept rfl (by omega)) ?_
    exact readsOnly_none
  case h_10 major =>
    have cut22 := fld_cut w 22 4 26
    have cut17 := fld_cut w 17 5 22
    have cut12 := fld_cut w 12 14 26
    have cut7 := fld_cut w 7 19 26
    have cut6 := fld_cut w 6 6 12
    have cut4_22 := fld_cut w 4 22 26
    have cut4_3 := fld_cut w 4 3 7
    have cut3 := fld_cut w 3 1 4
    unfold decodeX9
    repeat refine readsOnly_ite (fun _ => readsOnly_accept rfl (by omega)) ?_
    exact readsOnly_none
  all_goals exact readsOnly_none

end

end Sys2Proof.Proofs


/-! PROOFS. The obligations on the encoding. -/

namespace Sys2Proof.Proofs

/-- The maps assign no major opcode from 46 on (R67). -/
theorem decodeSlot_of_reserved {w : Nat} (sm : SlotMap) (h : 46 ≤ w / 2 ^ 26) : decodeSlot sm w = none := by
  obtain ⟨j, hj⟩ := Nat.exists_eq_add_of_le' h
  cases sm <;> simp only [decodeSlot, decodeS, decodeV, decodeM, decodeC, decodeX, hj]

theorem lt_of_decodeSlot {sm : SlotMap} {w : Nat} {i : Instr} (h : decodeSlot sm w = some i) : w < 2 ^ 32 := by
  by_contra hw
  rw [decodeSlot_of_reserved sm (by omega)] at h
  nomatch h

theorem decodeSlot_encode {i : Instr} {sm : SlotMap} {w : Nat} (wf : i.wf = true) (word : encode i = some (sm, w)) :
    decodeSlot sm w = some i := by
  cases sm with
  | s =>
    rcases Nat.lt_or_ge i.ctorIdx 59 with compute | h
    · exact decodeS_encode_compute compute wf word
    · rcases Nat.lt_or_ge i.ctorIdx 87 with g | scheduling
      · exact decodeS_encode_memory ⟨h, g⟩ wf word
      · exact decodeS_encode_scheduling scheduling wf word
  | v => exact decodeV_encode wf word
  | m => exact decodeM_encode wf word
  | c => exact decodeC_encode wf word
  | x => exact decodeX_encode wf word

theorem decodeSlot_readsOnly (sm : SlotMap) (w : Nat) : ReadsOnly sm w (decodeSlot sm w) := by
  cases sm with
  | s => exact decodeS_readsOnly
  | v => exact decodeV_readsOnly
  | m => exact decodeM_readsOnly
  | c => exact decodeC_readsOnly
  | x => exact decodeX_readsOnly

/-- Settles O59, map by map: the layouts of the forms give the one direction, the cuts of a word the other. -/
theorem encodingAndDecodingAgree : Obligations.EncodingAndDecodingAgree :=
  ⟨fun _ _ _ wf word => have h := decodeSlot_encode wf word; ⟨lt_of_decodeSlot h, h⟩,
    fun sm w i _ h => decodeSlot_readsOnly sm w i h⟩

theorem decodeSlot_of_major_zero {w : Nat} (sm : SlotMap) (h : w < 2 ^ 26) (h0 : w ≠ 0) : decodeSlot sm w = none := by
  have major : w / 67108864 = 0 := by omega
  cases sm <;> simp [decodeSlot, decodeS, decodeV, decodeM, decodeC, decodeX, major, h0]

/-- Settles O60: the words one by one, and the major opcodes 0 and 63 for every word. -/
theorem sampleWordsDecode : Obligations.SampleWordsDecode := by
  have zero {w : Nat} (sm : SlotMap) := decodeSlot_of_major_zero (w := w) sm
  have last {w : Nat} (sm : SlotMap) (h : 63 * 2 ^ 26 ≤ w) : decodeSlot sm w = none := decodeSlot_of_reserved sm (by omega)
  refine ⟨by decide, by decide, by decide, by decide, by decide, by decide, by decide, by decide, by decide, by decide, by decide,
    by decide, by decide, by decide, by decide,
    fun w h h0 => ⟨zero _ h h0, zero _ h h0, zero _ h h0, zero _ h h0, zero _ h h0⟩,
    fun w h _ => ⟨last _ h, last _ h, last _ h, last _ h, last _ h⟩, by decide, by decide, by decide, by decide⟩

end Sys2Proof.Proofs

/-! PROOFS. What a landing writes (R76, R91, R100, R134), and the forms that ask for a trap, halt or yield (R129 to R131). -/

namespace Sys2Proof.Proofs

open Sys2Proof.Machine Sys2Proof.Safety Sys2Proof.Laws

theorem sameBankBut_land_s (b : Bank) (k m : Nat) (w : Word) : SameBankBut k b (b.land (.s k) (.word w m)) := by
  refine ⟨fun j hj => ?_, ?_⟩
  · rw [sr_land_s, if_neg fun h => hj h.1]
  · unfold Bank.land
    by_cases hk : k = 0 <;> simp [hk]

/-- The landed register itself: s0 discards (R91). -/
theorem sr_land_s_same (b : Bank) (k m : Nat) (w : Word) : (b.land (.s k) (.word w m)).sr k = if k = 0 then 0 else w := by
  rw [sr_land_s]
  by_cases hk : k = 0
  · subst hk; simp
  · simp [hk]

theorem vr_land_v (b : Bank) (k m : Nat) (en x : VReg) (j : Nat) :
    (b.land (.v k) (.vec en x m)).vr j = if j = k then (b.vr k &&& ~~~en) ||| (x &&& en) else b.vr j := tget_tset ..

/-- A merge takes the enabled bits of the new value and keeps the others (R134). -/
theorem getLsbD_merge (y x en : VReg) {i : Nat} (hi : i < 2048) :
    ((y &&& ~~~en) ||| (x &&& en)).getLsbD i = if en.getLsbD i then x.getLsbD i else y.getLsbD i := by
  rw [BitVec.getLsbD_or, BitVec.getLsbD_and, BitVec.getLsbD_and, BitVec.getLsbD_not]
  cases en.getLsbD i <;> simp [hi]

/-- A narrow control register keeps bit 0 of what is written (R100). -/
theorem toNat_and_one (w : Word) : (w &&& 1).toNat = w.toNat % 2 := by
  simp [BitVec.toNat_and, Nat.and_one_is_mod]

/-- Outside the queue control words, a landing in a control register writes one entry of the control registers. -/
theorem land_cr {n : Nat} (hn : ¬(0x40 ≤ n ∧ n < 0x48)) (b : Bank) (w : Word) (m : Nat) :
    b.land (.cr n) (.word w m) =
      { b with
        cr := tset b.cr n (if 0x007 ≤ n ∧ n ≤ 0x009 then w &&& 1 else w)
        marks := setMark b.marks (3 * 4096 + n) m } := if_neg hn

theorem land_qc {n : Nat} (hn : 0x40 ≤ n ∧ n < 0x48) (b : Bank) (w : Word) (m : Nat) :
    b.land (.cr n) (.word w m) =
      { b with
        qc := tset b.qc (n - 0x40) w
        present := tset b.present (n - 0x40) (presentFrom w)
        marks := setMark b.marks (3 * 4096 + n) m } := if_pos hn

/-- Settles O29: each destination writes one entry of one table. -/
theorem landingWritesItsRegisterOnly : Obligations.LandingWritesItsRegisterOnly := by
  intro b k m w
  refine ⟨⟨sameBankBut_land_s b k m w, sr_land_s_same b k m w⟩, fun en x => ⟨fun i hi => ?_, fun j hj => ?_, rfl⟩,
    fun _ _ _ => rfl, ⟨tget_tset_same .., fun j hj => tget_tset_other _ _ _ hj, rfl⟩,
    ⟨tget_tset_same .., fun j hj => tget_tset_other _ _ _ hj, rfl⟩, fun hk => ?_, fun h1 h2 => ?_⟩
  · rw [vr_land_v, if_pos rfl, getLsbD_merge _ _ _ hi]
  · rw [vr_land_v, if_neg hj]
  · rw [land_cr hk]
    refine ⟨?_, fun j hj => tget_tset_other _ _ _ hj, rfl⟩
    simp only [tget_tset_same]
    split
    · exact toNat_and_one w
    · rfl
  · rw [land_qc ⟨h1, h2⟩]
    exact ⟨tget_tset_same .., fun j hj => tget_tset_other _ _ _ hj, rfl⟩

/-! ### Requested traps, halt and yield -/

theorem untouched_trap {s : State} (h : untouched s = true) : s.bun.trap = none := by
  simp only [untouched, Bool.and_eq_true, Option.isNone_iff_eq_none] at h
  exact h.1

/-- A form that leaves its state collects nothing. -/
theorem collects_nil {i : Instr} {s : State} (h : exec i s = .next s) : Collects i s [] := by
  unfold Collects
  rw [h, List.append_nil]

/-- The conditions of R121, each on the value of the register. -/
def CondHolds (c : Nat) (x : Word) : Prop :=
  match c with
  | 0 => True
  | 1 => x.toNat = 0
  | 2 => x.toNat ≠ 0
  | 3 => x.toInt < 0
  | 4 => 0 ≤ x.toInt
  | 5 => 0 < x.toInt
  | _ => x.toInt ≤ 0

theorem branchCond_iff (c : Nat) (x : Word) : branchCond c x = true ↔ CondHolds c x := by
  match c with
  | 0 => exact ⟨fun _ => trivial, fun _ => rfl⟩
  | 1 => exact beq_iff_eq.trans BitVec.toNat_eq
  | 2 => exact bne_iff_ne.trans (not_congr BitVec.toNat_eq)
  | 3 => exact BitVec.slt_iff_toInt_lt
  | 4 => exact Bool.not_eq_true' _ ▸ Bool.not_eq_true _ ▸ (not_congr BitVec.slt_iff_toInt_lt).trans not_lt
  | 5 => exact BitVec.slt_iff_toInt_lt
  | _ + 6 => exact BitVec.sle_iff_toInt_le

/-- The form `trap` asks for its trap where its condition holds, and is empty where it does not (R129). -/
theorem exec_trap (c a n : Nat) (s : State) :
    exec (.trap c a n) s = .next (if branchCond c (s.loopCount a) then s.trap 0x13 n else s) := by
  change Host.Outcome.next (s.unless _ _ _ id) = _
  cases branchCond c (s.loopCount a) <;> rfl

/-- yield is empty where the strand may not leave (R130, R193, R202). -/
theorem exec_yield (s : State) : exec .yield s = .next (if s.me.pinned then s else s.emit .yield) := rfl

theorem pinned_iff (x : Ctx) :
    x.pinned = true ↔ x.handler = true ∨ x.region.opened = true ∨ (x.phase.opened = true ∧ x.phase.mask ≠ 0) := by
  unfold Ctx.pinned
  rw [Bool.or_eq_true, Bool.or_eq_true, Bool.and_eq_true, bne_iff_ne, or_assoc]

/-- Settles O27. -/
theorem requestedTrapsHaltAndYield : Obligations.RequestedTrapsHaltAndYield := by
  intro s c a n
  refine ⟨fun hu => ⟨fun hc => ?_, ?_, ?_⟩, fun hc => collects_nil ?_, rfl, fun hh hr hp => ?_, fun hp => collects_nil ?_⟩
  · rw [Traps, exec_trap, if_pos ((branchCond_iff c _).2 hc), trap_of_none _ _ (untouched_trap hu)]
  · exact congrArg Host.Outcome.next (trap_of_none _ _ (untouched_trap hu))
  · exact congrArg Host.Outcome.next (trap_of_none _ _ (untouched_trap hu))
  · rw [exec_trap, if_neg fun h => hc ((branchCond_iff c _).1 h)]
  · have hnot : ¬ s.me.pinned = true := by
      rw [pinned_iff, hh, hr]
      rintro (h | h | ⟨ho, hm⟩)
      · cases h
      · cases h
      · rcases hp with hp | hp
        · rw [hp] at ho; cases ho
        · exact hm hp
    rw [Collects, exec_yield, if_neg hnot]
    rfl
  · rw [exec_yield, if_pos ((pinned_iff _).2 hp)]

end Sys2Proof.Proofs

/-! PROOFS. Loads and stores, from their gate and their address to the commit, a trap or a wait (R84, R239 to R247). -/

namespace Sys2Proof.Proofs

open Sys2Proof.Machine Sys2Proof.Safety Sys2Proof.Laws

/-! ### The gate and the place -/

theorem memGate_open {s : State} (h : gateOpen s = true) (go : State → State) : s.memGate go = go s := if_pos h

theorem spillGate_open {s : State} (h : gateOpen s = true) (go : State → State) : s.spillGate go = go s := by
  unfold State.spillGate
  split
  · exact memGate_open h go
  · rfl

theorem access_miss (s : State) (sp va : Nat) (k : Nat → Nat → Bool → State) :
    s.access (.miss sp va) k = { s with bun := { s.bun with miss := s.bun.miss ++ [(sp, va)] } } := rfl

/-- The aperture lies below 2^56. -/
theorem lt_of_isAperture {ea : Nat} (h : isAperture ea = true) : ea < 2 ^ 56 := by
  rw [isAperture, beq_iff_eq, Nat.shiftRight_eq_div_pow] at h
  omega

theorem locate_high {s : State} {ea n align : Nat} {r w : Bool} (h : 2 ^ 56 ≤ ea) :
    s.locate ea n align r w = .fault 0x03 (ea % 2 ^ 56) := if_pos h

/-- In the aperture, alignment is looked at before bounds (R84). -/
theorem locate_aperture {s : State} {ea n align : Nat} {r w : Bool} (h : isAperture ea = true) :
    s.locate ea n align r w =
      if ea % align ≠ 0 then .fault 0x05 ea
      else if (s.allot s.bun.core s.me.crew).2 < ea % 2 ^ 40 + n then .fault 0x06 (ea % 2 ^ 40)
      else .at_ ((s.allot s.bun.core s.me.crew).1 + ea % 2 ^ 40) 0 false := by
  rw [State.locate, if_neg (not_le.2 (lt_of_isAperture h)), if_pos h]
  rfl

theorem locate_untranslated {s : State} {ea n align : Nat} {r w : Bool} (hea : ea < 2 ^ 56) (ha : isAperture ea = false)
    (ht : tlbFind (s.core s.bun.core).tlb s.me.space ea = none) : s.locate ea n align r w = .miss s.me.space ea := by
  have hl : s.lookup s.bun.core s.me.space ea r w false = .miss s.me.space ea := by
    rw [State.lookup, ht]
  rw [State.locate, if_neg (not_le.2 hea), if_neg (by simp [ha]), hl]

/-! ### A form that goes to memory

Every load and store is an access behind the gate: what it does is what its address comes to. -/

/-- The form passes the gate and goes on with the access of n bytes at ea. -/
def GoesTo (i : Instr) (s : State) (ea n : Nat) (r w : Bool) (k : Nat → Nat → Bool → State) : Prop :=
  exec i s = .next (s.access (s.locate ea n n r w) k)

section

variable {i : Instr} {s : State} {ea n : Nat} {r w : Bool} {k : Nat → Nat → Bool → State}

theorem GoesTo.collects {es : List Eff} {pa key : Nat} {g : Bool} (h : GoesTo i s ea n r w k)
    (hl : s.locate ea n n r w = .at_ pa key g) (hk : k pa key g = { s with bun := { s.bun with effs := s.bun.effs ++ es } }) :
    Collects i s es := by
  rw [Collects, h, hl, access_at, hk]

theorem GoesTo.traps {c d : Nat} (h : GoesTo i s ea n r w k) (hu : untouched s = true)
    (hl : s.locate ea n n r w = .fault c d) : Traps i s c d := by
  rw [Traps, h, hl, access_fault, trap_of_none _ _ (untouched_trap hu)]

theorem GoesTo.waits (h : GoesTo i s ea n r w k) (hl : s.locate ea n n r w = .miss s.me.space ea) :
    exec i s = .next { s with bun := { s.bun with miss := s.bun.miss ++ [(s.me.space, ea)] } } := by
  rw [h, hl, access_miss]

/-- What the form does where its address cannot be used (R84, R239). -/
theorem GoesTo.unusable (h : GoesTo i s ea n r w k) (hu : untouched s = true) :
    (2 ^ 56 ≤ ea → Traps i s 0x03 (ea % 2 ^ 56)) ∧
    (isAperture ea = true → ea % n ≠ 0 → Traps i s 0x05 ea) ∧
    (isAperture ea = true → ea % n = 0 → (s.allot s.bun.core s.me.crew).2 < ea % 2 ^ 40 + n → Traps i s 0x06 (ea % 2 ^ 40)) ∧
    (ea < 2 ^ 56 → isAperture ea = false → tlbFind (s.core s.bun.core).tlb s.me.space ea = none →
      exec i s = .next { s with bun := { s.bun with miss := s.bun.miss ++ [(s.me.space, ea)] } }) := by
  refine ⟨fun hea => h.traps hu (locate_high hea), fun ha hm => h.traps hu ?_, fun ha hm hb => h.traps hu ?_,
    fun hea ha ht => h.waits (locate_untranslated hea ha ht)⟩
  · rw [locate_aperture ha, if_pos hm]
  · rw [locate_aperture ha, if_neg (not_not.2 hm), if_pos hb]

end

theorem goesTo_ld {s : State} (h : gateOpen s = true) (d a t o : Nat) :
    GoesTo (.ld d a t o) s (s.ea a 13 o) (typeBytes t) true false fun pa key g =>
      s.emit (if g then .loadGlobal d t pa (s.ea a 13 o) key none else .loadPad d t pa) :=
  congrArg Host.Outcome.next (memGate_open h _)

theorem goesTo_st {s : State} (h : gateOpen s = true) (d a t o : Nat) :
    GoesTo (.st d a t o) s (s.shadowed s.me.space (s.ea a 13 o)) (typeBytes t) false true fun pa key g =>
      s.emit (.store (typeBytes t) pa (s.shadowed s.me.space (s.ea a 13 o)) key (s.rs d) g) :=
  congrArg Host.Outcome.next (memGate_open h _)

theorem goesTo_ldAcq {s : State} (h : gateOpen s = true) (d a sc z o : Nat) :
    GoesTo (.ldAcq d a sc z o) s (s.ea a 11 o) (4 + 4 * z) true false fun pa key g =>
      if g then s.emit (.loadGlobal d (4 + 2 * z) pa (s.ea a 11 o) key (some sc))
      else (s.emit (.loadPad d (4 + 2 * z) pa)).emit (.acquirePad sc) :=
  congrArg Host.Outcome.next (memGate_open h _)

theorem goesTo_stRel {s : State} (h : gateOpen s = true) (d a sc z o : Nat) :
    GoesTo (.stRel d a sc z o) s (s.shadowed s.me.space (s.ea a 11 o)) (4 + 4 * z) false true fun pa key g =>
      s.emit (.storeRel sc (4 + 4 * z) pa (s.shadowed s.me.space (s.ea a 11 o)) key (s.rs d) g) :=
  congrArg Host.Outcome.next (memGate_open h _)

theorem emit_emit (s : State) (e f : Eff) :
    (s.emit e).emit f = { s with bun := { s.bun with effs := s.bun.effs ++ [e, f] } } := by
  simp [State.emit]

/-! ### Mirage windows -/

theorem shadowed_aperture {ea : Nat} (h : isAperture ea = true) (s : State) (space : Nat) : s.shadowed space ea = ea := if_pos h

theorem shadowed_bare {s : State} {space : Nat} (h : s.mirages space = []) (ea : Nat) : s.shadowed space ea = ea := by
  rw [State.shadowed, h]
  exact ite_self ea

theorem shadowed_window {s : State} {space v b n ea : Nat} (h : s.mirages space = [(v, b, n)]) (ha : isAperture ea = false) :
    s.shadowed space ea = if v ≤ ea ∧ ea < v + n then b + (ea - v) else ea := by
  rw [State.shadowed, if_neg (by simp [ha]), h, hiddenAddress, List.find?_singleton]
  by_cases hv : v ≤ ea ∧ ea < v + n <;> simp [hv]

/-- Settles O7. -/
theorem loadsAndStoresReachTheCommitOrTrap : Obligations.LoadsAndStoresReachTheCommitOrTrap := by
  refine ⟨?_, ?_, ?_⟩
  · intro s d a t o sc z pa key g hg
    refine ⟨fun hl => (goesTo_ld hg d a t o).collects hl rfl, fun hl => (goesTo_st hg d a t o).collects hl rfl,
      congrArg Host.Outcome.next (spillGate_open hg _), congrArg Host.Outcome.next (spillGate_open hg _),
      fun hl => (goesTo_ldAcq hg d a sc z o).collects hl ?_, fun hl => (goesTo_stRel hg d a sc z o).collects hl rfl⟩
    cases g
    · exact emit_emit s _ _
    · rfl
  · intro s d a t o hg hu n i ea hi
    rcases hi with ⟨rfl, rfl⟩ | ⟨rfl, rfl⟩
    · exact (goesTo_ld hg d a t o).unusable hu
    · exact (goesTo_st hg d a t o).unusable hu
  · intro s space ea v h n
    exact ⟨fun ha => shadowed_aperture ha s space, fun hm => shadowed_bare hm ea, shadowed_window⟩

end Sys2Proof.Proofs

/-! PROOFS. Where a strand goes on after a commit, what a held bundle leaves, and when a committed result lands (R75 to R78,
R121 to R124, R304). -/

namespace Sys2Proof.Proofs

open Sys2Proof.Machine Sys2Proof.Safety Sys2Proof.Laws

/-! ### Where the strand goes on -/

/-- Where the bundle in hand goes on, and after how many cycles more than one (R77, R121, R123). -/
def nextBundle (s : State) : Nat × Nat :=
  match transferOf s.bun.effs with
  | some (a, true) => (a, hdrStall s.header)
  | some (a, false) => (a, max (hdrStall s.header) 2)
  | none => ((s.bun.pc + 32) % 2 ^ 64, hdrStall s.header)

theorem no_handlerReturn {es : List Eff} (h : ∀ a, Eff.handlerReturn a ∉ es) :
    (es.findSome? fun e => match e with | .handlerReturn a => some a | _ => none) = none := by
  rw [List.findSome?_eq_none_iff]
  intro e he
  split
  · exact absurd he (h _)
  · rfl

theorem goOn_eq {s : State} (h : ∀ a, Eff.handlerReturn a ∉ s.bun.effs) :
    s.goOn s.bun.effs = s.modMe fun x =>
      { x with pc := (nextBundle s).1, nextAt := s.bun.t + 1 + (nextBundle s).2 + s.bun.extra } := by
  unfold State.goOn nextBundle
  dsimp only
  split
  · next e => exact absurd ((no_handlerReturn h).symm.trans e) (by simp)
  · rfl

theorem nextBundle_congr {s t : State} (h : t.bun = s.bun) : nextBundle t = nextBundle s := by
  unfold nextBundle State.header; rw [h]

theorem sameCtxs_clearBundle (s : State) : SameCtxs s s.clearBundle := fun _ => rfl

theorem sameCtxs_dropFaults (s : State) (c : Nat) : SameCtxs s (s.dropFaults c) := by
  unfold State.dropFaults
  dsimp only
  split
  · exact sameCtxs_modCore fun _ => rfl
  · split
    · exact sameCtxs_modCore fun _ => rfl
    · exact .refl s

theorem dropFaults_bun (s : State) (c : Nat) : (s.dropFaults c).bun = s.bun := by
  unfold State.dropFaults
  dsimp only
  split
  · rfl
  · split <;> rfl

/-- A bundle that pops nothing and transfers as its effects say: what its effects leave, and where the strand is then. -/
theorem ends_goingOn {s u : State} (ready : readyToCommit s = true) (pop : hdrPop s.header = 0) (hb : s.bun.effs.any rollsBack = false)
    (hh : ∀ a, Eff.handlerReturn a ∉ s.bun.effs) (hu : performed (given s [s.bun.core]) = u) (hbun : u.bun = s.bun) :
    ∃ t, Ends s t ∧ SameButIssue u t ∧ t.bun = .none ∧ (issuer s t).pc = (nextBundle s).1 ∧
      (issuer s t).nextAt = s.bun.t + 1 + (nextBundle s).2 + s.bun.extra := by
  have hend : (given s [s.bun.core]).commitBundle = (u.spinTrack s.bun.effs).goOn s.bun.effs := by
    rw [commitBundle_eq (s := given s [s.bun.core]) hb, hu, State.header, hbun, ← State.header, pop, applyPops_zero]
    rfl
  have hgo : (u.spinTrack s.bun.effs).goOn s.bun.effs = (u.spinTrack s.bun.effs).modMe fun x =>
      { x with pc := (nextBundle s).1, nextAt := s.bun.t + 1 + (nextBundle s).2 + s.bun.extra } := by
    have e : (u.spinTrack s.bun.effs).bun = s.bun := hbun
    have g := goOn_eq (s := u.spinTrack s.bun.effs) (by rw [e]; exact hh)
    rw [nextBundle_congr e, e] at g
    exact g
  have hx : issuer s (((given s [s.bun.core]).commitBundle.clearBundle).dropFaults s.bun.core) =
      { issuer s (u.spinTrack s.bun.effs) with
        pc := (nextBundle s).1, nextAt := s.bun.t + 1 + (nextBundle s).2 + s.bun.extra } := by
    rw [issuer, (sameCtxs_dropFaults _ _).ctx, (sameCtxs_clearBundle _).ctx, hend, hgo, State.modMe,
      show (u.spinTrack s.bun.effs).bun = s.bun from hbun, modCtx_ctx_same]
    rfl
  refine ⟨_, ends_commitBundle ready, ?_, dropFaults_bun .., by rw [hx], by rw [hx]⟩
  rw [hend]
  exact (((sameButIssue_spinTrack ..).trans (sameButIssue_goOn _ hh)).trans (sameButIssue_clearBundle _)).trans
    (sameButIssue_dropFaults ..)

/-! ### Bundles of one result or one transfer -/

/-- Where the effects of the bundle in hand begin, nothing but its account has moved. -/
theorem sameButIssue_committing (s : State) (ops : List Nat) : SameButIssue s (committingFrom (given s ops)) :=
  (sameButIssue_given s ops).trans (sameButIssue_committingFrom _)

theorem performed_loopCount {s : State} {a target : Nat} {w : Word} (h : s.bun.effs = [.loopCount a w, .transfer target true]) :
    performed s = (committingFrom s).schedule 2 (.s a) (.word w 0) true := by
  simp [performed, h, Eff.reads, State.applyEff]

theorem performed_land {s : State} {lat d : Nat} {w : Word} (h : s.bun.effs = [.land lat (.s d) (.word w 0)]) :
    performed s = (committingFrom s).schedule lat (.s d) (.word w 0) false := by
  simp [performed, h, Eff.reads, State.applyEff]

theorem performed_transfer {s : State} {a : Nat} {b : Bool} (h : s.bun.effs = [.transfer a b]) : performed s = committingFrom s := by
  simp [performed, h, Eff.reads, State.applyEff]

theorem performed_nil {s : State} (h : s.bun.effs = []) : performed s = committingFrom s := by
  simp [performed, h]

theorem nextBundle_transfer {s : State} {a : Nat} (h : s.bun.effs = [.transfer a false]) :
    nextBundle s = (a, max (hdrStall s.header) 2) := by rw [nextBundle, h]; rfl

theorem nextBundle_loop {s : State} {a target : Nat} {w : Word} (h : s.bun.effs = [.loopCount a w, .transfer target true]) :
    nextBundle s = (target, hdrStall s.header) := by rw [nextBundle, h]; rfl

theorem nextBundle_land {s : State} {lat d : Nat} {w : Word} (h : s.bun.effs = [.land lat (.s d) (.word w 0)]) :
    nextBundle s = ((s.bun.pc + 32) % 2 ^ 64, hdrStall s.header) := by rw [nextBundle, h]; rfl

theorem nextBundle_nil {s : State} (h : s.bun.effs = []) :
    nextBundle s = ((s.bun.pc + 32) % 2 ^ 64, hdrStall s.header) := by rw [nextBundle, h]; rfl

/-- The first part of O31, for the effects of one transfer: where the strand is, and that memory and bank are as they were. -/
theorem goes_of_performed {s u : State} {pc stall : Nat} (ready : readyToCommit s = true) (pop : hdrPop s.header = 0)
    (hb : s.bun.effs.any rollsBack = false) (hh : ∀ a, Eff.handlerReturn a ∉ s.bun.effs)
    (hu : performed (given s [s.bun.core]) = u) (hbun : u.bun = s.bun) (hm : u.mem = s.mem) (hbank : issuerBank s u = issuerBank s s)
    (hn : nextBundle s = (pc, stall)) :
    ∃ t, Answers .bundleCommit [s.bun.core] s t ∧ (issuer s t).pc = pc ∧ (issuer s t).nextAt = s.bun.t + 1 + stall + s.bun.extra ∧
      t.mem = s.mem ∧ issuerBank s t = issuerBank s s := by
  obtain ⟨t, ht, hs, -, hpc, hat⟩ := ends_goingOn ready pop hb hh hu hbun
  rw [hn] at hpc hat
  exact ⟨t, ht, hpc, hat, hs.mem.trans hm, (hs.bankOf _ _).trans hbank⟩

/-! ### A bundle that is held -/

/-- A context beside the list of the counters that have counted its bundle. -/
def ctxUncounted (x : Ctx) : Ctx := { x with stalled := [] }

/-- t differs from s at most in what counts stalls: counters, a cluster's rqst, and the list of those that have counted. -/
structure SameButStalls (s t : State) : Prop where
  bun : t.bun = s.bun
  mem : t.mem = s.mem
  core : ∀ n, coreBeside (t.core n) = coreBeside (s.core n)
  ctx : ∀ n j, ctxUncounted (t.ctx n j) = ctxUncounted (s.ctx n j)

namespace SameButStalls

variable {s t u : State}

theorem refl (s : State) : SameButStalls s s := ⟨rfl, rfl, fun _ => rfl, fun _ _ => rfl⟩

theorem trans (h : SameButStalls s t) (g : SameButStalls t u) : SameButStalls s u :=
  ⟨g.bun.trans h.bun, g.mem.trans h.mem, fun n => (g.core n).trans (h.core n), fun n j => (g.ctx n j).trans (h.ctx n j)⟩

theorem onCtx {α : Type} (h : SameButStalls s t) (p : Ctx → α) (hp : ∀ x, p (ctxUncounted x) = p x) (n j : Nat) :
    p (t.ctx n j) = p (s.ctx n j) := by
  rw [← hp (t.ctx n j), h.ctx, hp]

theorem bankOf (h : SameButStalls s t) (n j : Nat) : t.bankOf n j = s.bankOf n j :=
  bankOf_congr (h.onCtx Ctx.bank (fun _ => rfl) n j) (congrArg Core.banks (h.core n) : (coreBeside _).banks = (coreBeside _).banks)

end SameButStalls

theorem sameButStalls_modCore {s : State} {c : Nat} {f : Core → Core} (hf : ∀ k, coreBeside (f k) = coreBeside k)
    (hx : ∀ k, (f k).ctxs = k.ctxs) : SameButStalls s (s.modCore c f) :=
  ⟨rfl, rfl, (sameButIssue_modCore hf hx).core, fun n j => by rw [(sameCtxs_modCore hx).ctx]⟩

theorem sameButStalls_bumpCounter (s : State) (c n by_ : Nat) : SameButStalls s (s.bumpCounter c n by_) := by
  unfold State.bumpCounter
  split
  · exact .refl s
  · exact sameButStalls_modCore (fun _ => rfl) fun _ => rfl

theorem sameButStalls_bumpRqst (s : State) (cl : Nat) : SameButStalls s (s.bumpRqst cl) := by
  unfold State.bumpRqst
  exact SameButStalls.trans (t := s.modCluster cl _) ⟨rfl, rfl, fun _ => rfl, fun _ _ => rfl⟩
    (sameButStalls_modCore (fun _ => rfl) fun _ => rfl)

theorem sameButStalls_perf (s : State) (c j evt n : Nat) : SameButStalls s (s.perf c j evt n) := by
  unfold State.perf
  exact foldl_keeps (SameButStalls s) _ (fun u _ h => h.trans (sameButStalls_bumpCounter u ..)) _ _ (.refl s)

theorem sameButStalls_listed (s : State) (n : Nat) : SameButStalls s (s.modMe fun x => { x with stalled := n :: x.stalled }) := by
  refine ⟨rfl, rfl, fun c => modCtx_core_field coreBeside (fun _ _ => rfl) .., fun c k => ?_⟩
  rw [State.modMe, modCtx_ctx]
  split
  · next e => rw [e.1, e.2]; rfl
  · rfl

theorem sameButStalls_countStall (s : State) (n : Nat) : SameButStalls s (s.countStall n) := by
  unfold State.countStall
  dsimp only
  split
  · exact .refl s
  · split
    · exact (sameButStalls_bumpRqst s _).trans (sameButStalls_listed _ n)
    · exact (sameButStalls_bumpCounter s ..).trans (sameButStalls_listed _ n)

/-- The performance events of a held bundle (R430). -/
def heldEvents (s : State) (h : Hold) : State :=
  let u := match h.why with
    | 20 => s.perf s.bun.core s.bun.ctx 4 1
    | 3 => s.perf s.bun.core s.bun.ctx 5 1
    | 4 => s.perf s.bun.core s.bun.ctx 5 1
    | 6 => s.perf s.bun.core s.bun.ctx 5 1
    | 7 => s.perf s.bun.core s.bun.ctx 8 1
    | _ => s
  match h.park with | .bar .. => u.perf s.bun.core s.bun.ctx 16 1 | _ => u

/-- A property that every performance event keeps, a held bundle's events keep. -/
theorem heldEvents_keeps {P : State → Prop} (hP : ∀ u c j e n, P u → P (u.perf c j e n)) {s : State} (h : Hold) (hs : P s) :
    P (heldEvents s h) := by
  unfold heldEvents
  dsimp only
  split <;> split <;> simp only [hP, hs]

/-- The stalls of a held bundle, counted. -/
def heldCounted (s : State) (h : Hold) : State := (h.counter :: h.also).foldl State.countStall s

theorem sameButStalls_heldCounted (s : State) (h : Hold) : SameButStalls s (heldCounted s h) :=
  foldl_keeps (SameButStalls s) _ (fun u _ g => g.trans (sameButStalls_countStall u _)) _ _ (.refl s)

theorem sameButStalls_held (s : State) (h : Hold) : SameButStalls s (heldEvents (heldCounted s h) h) :=
  heldEvents_keeps (P := SameButStalls s) (fun u _ _ _ _ g => g.trans (sameButStalls_perf u ..)) h (sameButStalls_heldCounted s h)

theorem holdBundle_eq (s : State) (h : Hold) :
    s.holdBundle h =
      ((heldEvents (heldCounted s h) h).modMe fun x => { x with nextAt := s.bun.t + 1, wait := h.park }).clearBundle := by
  have e : (heldCounted s h).bun = s.bun := (sameButStalls_heldCounted s h).bun
  unfold State.holdBundle heldEvents
  rw [e]
  rfl

theorem ends_holdBundle {s : State} {h : Hold} (hw : s.bun.words ≠ []) (hp : s.pending = []) (hh : s.bun.hold = some h) :
    Ends s ((given s [s.bun.core]).holdBundle h) := by
  show execBundleCommit (given s [s.bun.core]) = _
  unfold execBundleCommit
  rw [if_neg (by simp [given, hw, hp, State.op]), finishBundle_hold (s := given s [s.bun.core]) hh]

theorem holdBundle_ctx (s : State) (h : Hold) :
    issuer s (s.holdBundle h) =
      { issuer s (heldEvents (heldCounted s h) h) with nextAt := s.bun.t + 1, wait := h.park } := by
  rw [holdBundle_eq, issuer, (sameCtxs_clearBundle _).ctx, State.modMe, (sameButStalls_held s h).bun, modCtx_ctx_same]
  rfl

theorem holdBundle_core {α : Type} (p : Core → α) (hp : ∀ k l, p { k with ctxs := l } = p k) (s : State) (h : Hold) (n : Nat) :
    p ((s.holdBundle h).core n) = p ((heldEvents (heldCounted s h) h).core n) := by
  rw [holdBundle_eq]
  exact modCtx_core_field p hp (heldEvents (heldCounted s h) h) _ _ n fun x => { x with nextAt := s.bun.t + 1, wait := h.park }

theorem holdBundle_bankOf (s : State) (h : Hold) : issuerBank s (s.holdBundle h) = issuerBank s s := by
  refine (bankOf_congr ?_ (holdBundle_core Core.banks (fun _ _ => rfl) s h _)).trans ((sameButStalls_held s h).bankOf _ _)
  exact (congrArg Ctx.bank (holdBundle_ctx s h) :)

theorem bumpCounter_counters (s : State) (c n by_ : Nat) (h : by_ ≠ 0) (m : Nat) :
    tget 0 ((s.bumpCounter c n by_).core c).counters m =
      if m = n then tget (tget 0 (s.core c).counters n) (s.core c).counterNew n + wd by_ else tget 0 (s.core c).counters m := by
  rw [State.bumpCounter, if_neg h, modCore_core, if_pos rfl, tget_tset]

/-- The performance counters are none of those below 0x030 (R427, R429). -/
theorem perf_counters (s : State) (c j evt by_ : Nat) {m : Nat} (hm : m < 0x030) :
    tget 0 ((s.perf c j evt by_).core c).counters m = tget 0 (s.core c).counters m := by
  have step : ∀ (u : State) i, tget 0 (u.core c).counters m = tget 0 (s.core c).counters m →
      tget 0 ((State.bumpCounter u c (0x030 + i) by_).core c).counters m = tget 0 (s.core c).counters m := by
    intro u i hu
    by_cases h0 : by_ = 0
    · rw [State.bumpCounter, if_pos h0, hu]
    · rw [bumpCounter_counters _ _ _ _ h0, if_neg (by omega), hu]
  unfold State.perf
  exact foldl_keeps (fun u : State => tget 0 (u.core c).counters m = tget 0 (s.core c).counters m) _ step _ _ rfl

/-- Counting one stall: its counter counts, unless it has counted this bundle already (R304). -/
theorem countStall_counts {s : State} {n : Nat} (h0 : 0 < n) (hq : n ≠ 0x020) :
    n ∈ (issuer s (s.countStall n)).stalled ∧
      tget 0 ((s.countStall n).core s.bun.core).counters n =
        if n ∈ (issuer s s).stalled then tget 0 (s.core s.bun.core).counters n
        else tget (tget 0 (s.core s.bun.core).counters n) (s.core s.bun.core).counterNew n + 1 := by
  have hmem : s.me.stalled.contains n = true ↔ n ∈ (issuer s s).stalled := List.contains_iff_mem
  unfold State.countStall
  by_cases h : n ∈ (issuer s s).stalled
  · rw [if_pos (.inr (hmem.2 h)), if_pos h]
    exact ⟨h, rfl⟩
  · rw [if_neg (by rintro (e | e); exacts [by omega, h (hmem.1 e)]), if_neg h]
    simp only [if_neg hq]
    refine ⟨?_, ?_⟩
    · rw [issuer, State.modMe, bumpCounter_bun, modCtx_ctx_same]
      exact List.mem_cons_self
    · rw [State.modMe, bumpCounter_bun,
        modCtx_core_field (fun k => tget 0 k.counters n) (fun _ _ => rfl), bumpCounter_counters _ _ _ _ one_ne_zero, if_pos rfl]
      rfl

/-- Of a hold by one resource: its stall counter counts, and no performance event counts there. -/
theorem heldCounter {s : State} {h : Hold} (ha : h.also = []) (h0 : 0 < h.counter) (hm : h.counter < 0x030) (hq : h.counter ≠ 0x020) :
    h.counter ∈ (issuer s (s.holdBundle h)).stalled ∧
      tget 0 ((s.holdBundle h).core s.bun.core).counters h.counter =
        if h.counter ∈ (issuer s s).stalled then tget 0 (s.core s.bun.core).counters h.counter
        else tget (tget 0 (s.core s.bun.core).counters h.counter) (s.core s.bun.core).counterNew h.counter + 1 := by
  have one : heldCounted s h = s.countStall h.counter := by rw [heldCounted, ha]; rfl
  have hb : (s.countStall h.counter).bun = s.bun := (sameButStalls_countStall s _).bun
  obtain ⟨hl, hc⟩ := countStall_counts (s := s) h0 hq
  have hctx : issuer s (heldEvents (s.countStall h.counter) h) = issuer s (s.countStall h.counter) :=
    (heldEvents_keeps (P := SameCtxs (s.countStall h.counter)) (fun u _ _ _ _ g => g.trans (sameCtxs_perf u _ _ _ _)) h (.refl _)).ctx ..
  rw [holdBundle_ctx, holdBundle_core (fun k => tget 0 k.counters h.counter) (fun _ _ => rfl), one, hctx, ← hc]
  refine ⟨hl, ?_⟩
  unfold heldEvents
  rw [hb]
  dsimp only
  split <;> split <;> simp only [perf_counters _ _ _ _ _ hm]

/-- What a hold leaves, beside its counter (R78, R304). -/
theorem holdBundle_leaves (s : State) (h : Hold) :
    let t := s.holdBundle h
    (issuer s t).nextAt = s.bun.t + 1 ∧ (issuer s t).wait = h.park ∧ (issuer s t).pc = (issuer s s).pc ∧
      issuerBank s t = issuerBank s s ∧ (issuer s t).land = (issuer s s).land ∧ t.mem = s.mem ∧ t.bun = .none := by
  have hx := holdBundle_ctx s h
  have hheld := sameButStalls_held s h
  refine ⟨by rw [hx], by rw [hx], ?_, holdBundle_bankOf s h, ?_, ?_, ?_⟩
  · rw [hx]; exact hheld.onCtx Ctx.pc (fun _ => rfl) _ _
  · rw [hx]; exact hheld.onCtx Ctx.land (fun _ => rfl) _ _
  · rw [holdBundle_eq]; exact hheld.mem
  · rw [holdBundle_eq]; rfl

/-- Settles O31. -/
theorem bundlesGoOnTransferOrTryAgain : Obligations.BundlesGoOnTransferOrTryAgain := by
  refine ⟨fun s a n ready pop => ⟨fun he => ?_, fun k he => ?_, fun he => ?_⟩, fun s h hw hp hh => ?_⟩
  · have hs := sameButIssue_committing s [s.bun.core]
    exact goes_of_performed ready pop (by rw [he]; rfl) (by simp [he]) (performed_transfer (s := given s _) he)
      (committingFrom_bun _) hs.mem (hs.bankOf _ _) (nextBundle_transfer he)
  · have hs := sameButIssue_committing s [s.bun.core]
    exact goes_of_performed ready pop (by rw [he]; rfl) (by simp [he]) (performed_loopCount (s := given s _) he)
      ((schedule_bun ..).trans (committingFrom_bun _)) ((schedule_mem ..).trans hs.mem)
      ((schedule_bankOf ..).trans (hs.bankOf _ _)) (nextBundle_loop he)
  · have hs := sameButIssue_committing s [s.bun.core]
    exact goes_of_performed ready pop (by rw [he]; rfl) (by simp [he]) (performed_nil (s := given s _) he)
      (committingFrom_bun _) hs.mem (hs.bankOf _ _) (nextBundle_nil he)
  · obtain ⟨hat, hwait, hpc, hbank, hland, hmem, hbun⟩ := holdBundle_leaves (given s [s.bun.core]) h
    exact ⟨_, ends_holdBundle hw hp hh, hat, hwait, hpc, hbank, hland, hmem, hbun,
      fun ha h0 hm hq => heldCounter (s := given s [s.bun.core]) ha h0 hm hq⟩

/-! ### A committed result lands at its cycle -/

/-- The landing of a scalar result of the bundle in hand, a loop's count or another. -/
def scalarLanding (s : State) (seq lat d : Nat) (w : Word) (loop : Bool) : Landing :=
  ⟨s.bun.t + lat, seq, .s d, .word w 0, loop, s.bun.mirror.contains (.s d)⟩

theorem schedule_issuer_land {s : State} (h : (issuer s s).land = []) (lat d : Nat) (w : Word) (loop : Bool) :
    (issuer s (s.schedule lat (.s d) (.word w 0) loop)).land = [scalarLanding s (issuer s s).seq lat d w loop] := by
  rw [issuer, State.schedule, State.modMe, modCtx_ctx_same, show (s.ctx s.bun.core s.bun.ctx).land = [] from h]
  rfl

/-- What a strand has once its bundle's one scalar result is committed: its landing alone, in a bank as it was. -/
structure HasLanding (s t : State) (l : Landing) : Prop where
  land : (issuer s t).land = [l]
  some : (issuer s t).bank.isSome = true
  closed : (issuer s t).phase.opened = false
  bank : issuerBank s t = issuerBank s s
  mem : t.mem = s.mem

/-- A bundle whose effects come to one scalar result commits it. -/
theorem ends_scalarLanding {s : State} {lat d : Nat} {w : Word} {loop : Bool} (ready : readyToCommit s = true)
    (pop : hdrPop s.header = 0) (hb : s.bun.effs.any rollsBack = false) (hh : ∀ a, Eff.handlerReturn a ∉ s.bun.effs)
    (hu : performed (given s [s.bun.core]) = (committingFrom (given s [s.bun.core])).schedule lat (.s d) (.word w 0) loop)
    (hl : (issuer s s).land = []) (hp : (issuer s s).phase.opened = false) (hs : (issuer s s).bank.isSome = true) :
    ∃ t seq, Ends s t ∧ (issuer s t).pc = (nextBundle s).1 ∧ (issuer s t).nextAt = s.bun.t + 1 + (nextBundle s).2 + s.bun.extra ∧
      t.bun = .none ∧ HasLanding s t (scalarLanding s seq lat d w loop) := by
  have hfrom := sameButIssue_committing s [s.bun.core]
  generalize hv : committingFrom (given s [s.bun.core]) = v at hu hfrom
  have hvb : v.bun = s.bun := by rw [← hv]; exact committingFrom_bun _
  obtain ⟨t, ht, same, hbun, hpc, hat⟩ := ends_goingOn ready pop hb hh hu ((schedule_bun ..).trans hvb)
  have hland : (issuer v (v.schedule lat (.s d) (.word w 0) loop)).land = [scalarLanding v (issuer v v).seq lat d w loop] := by
    refine schedule_issuer_land ?_ ..
    rw [issuer, hvb]
    exact (hfrom.onCtx Ctx.land (fun _ => rfl) _ _).trans hl
  have keep : ∀ {α : Type} (p : Ctx → α), (∀ x, p (ctxBeside x) = p x) → (∀ x l, p { x with land := l } = p x) →
      p (issuer s t) = p (issuer s s) := by
    intro α p h1 h2
    rw [issuer, same.onCtx p h1, State.schedule, State.modMe, hvb, modCtx_ctx_same, h2, hfrom.onCtx p h1]
    rfl
  refine ⟨t, (issuer v v).seq, ht, hpc, hat, hbun, ?_, ?_, ?_, ?_, ?_⟩
  · rw [issuer, hvb] at hland
    rw [issuer, same.onCtx Ctx.land fun _ => rfl, hland, scalarLanding, scalarLanding, hvb]
  · rw [keep Ctx.bank (fun _ => rfl) fun _ _ => rfl, hs]
  · rw [keep Ctx.phase (fun _ => rfl) fun _ _ => rfl, hp]
  · exact (same.bankOf _ _).trans ((schedule_bankOf ..).trans (hfrom.bankOf _ _))
  · exact same.mem.trans ((schedule_mem ..).trans hfrom.mem)

namespace HasLanding

variable {s t : State} {seq lat d n : Nat} {w : Word} {loop : Bool}

/-- Before its cycle the result is not there. -/
theorem early (h : HasLanding s t (scalarLanding s seq lat d w loop)) (hn : n < s.bun.t + lat) :
    t.landUntil s.bun.core s.bun.ctx n = t := by
  refine landUntil_early fun l hl => ?_
  rw [show (t.ctx s.bun.core s.bun.ctx).land = _ from h.land, List.mem_singleton] at hl
  rw [hl]
  exact hn

/-- From its cycle on the register has it. -/
theorem late (h : HasLanding s t (scalarLanding s seq lat d w loop)) (hn : s.bun.t + lat ≤ n) :
    let u := t.landUntil s.bun.core s.bun.ctx n
    issuerBank s u = (issuerBank s s).land (.s d) (.word w 0) ∧ u.mem = s.mem := by
  have hl : (t.ctx s.bun.core s.bun.ctx).land = [scalarLanding s seq lat d w loop] := h.land
  obtain ⟨hbank, hmem⟩ := landUntil_late (s := t) (c := s.bun.core) (j := s.bun.ctx) (m := n)
    (by rw [hl]; simpa [scalarLanding] using hn) h.some h.closed
  refine ⟨?_, hmem.trans h.mem⟩
  rw [issuerBank, hbank, hl, show t.bankOf s.bun.core s.bun.ctx = issuerBank s s from h.bank]
  rfl

end HasLanding

/-- Outside a phase, what is due is no longer in flight after it has landed. -/
theorem landUntil_land {s : State} {c j n : Nat} (hp : (s.ctx c j).phase.opened = false) :
    ((s.landUntil c j n).ctx c j).land = (s.ctx c j).land.filter fun l => !decide (l.due ≤ n) := by
  unfold State.landUntil
  simp only [hp, Bool.false_and, Bool.false_eq_true, if_false]
  split
  · next e =>
    symm
    rw [List.filter_eq_self]
    intro l hl
    rw [List.isEmpty_iff, List.filter_eq_nil_iff] at e
    simpa using e l hl
  · let s1 := s.modCtx c j fun x => { x with land := x.land.filter fun l => !decide (l.due ≤ n) }
    show ((State.modBank s1 c j _).ctx c j).land = _
    rw [(sameCtxs_modBank s1 c j _).ctx, modCtx_ctx_same]

/-- A loop's count in flight is what the bundle finds in its register (R124). -/
theorem loopCount_inFlight {s : State} {seq a lat : Nat} {w : Word} (h : s.me.land = [scalarLanding s seq lat a w true]) :
    s.loopCount a = w := by
  simp [State.loopCount, h, scalarLanding]

theorem loopCount_landed {s : State} (h : s.me.land = []) (a : Nat) : s.loopCount a = s.rs a := by
  simp [State.loopCount, h]

/-- Of two results in one register in one cycle the younger stays (R76). -/
theorem younger_stays {s : State} {c j n k : Nat} {a b : Landing} {v w : Word} (hs : (s.ctx c j).bank.isSome = true) (hk : k ≠ 0)
    (hl : (s.ctx c j).land = [a, b]) (hab : a.due = b.due) (hn : a.due ≤ n) (ha : a.dest = .s k) (hb : b.dest = .s k)
    (hv : a.val = .word v 0) (hw : b.val = .word w 0) (hp : (s.ctx c j).phase.opened = false) :
    ((s.landUntil c j n).bankOf c j).sr k = w ∧ ((s.landUntil c j n).ctx c j).land = [] := by
  have due : ∀ l ∈ (s.ctx c j).land, l.due ≤ n := by
    intro l m
    rw [hl] at m
    rcases List.mem_pair.mp m with rfl | rfl
    · exact hn
    · exact hab ▸ hn
  constructor
  · rw [(landUntil_late due hs hp).1, hl, List.foldl_cons, List.foldl_cons, List.foldl_nil, hb, hw, sr_land_s_same, if_neg hk]
  · rw [landUntil_land hp, List.filter_eq_nil_iff]
    intro l m
    simpa using due l m

/-- Settles O30. -/
theorem committedResultLandsAtItsCycle : Obligations.CommittedResultLandsAtItsCycle := by
  refine ⟨fun s d lat w ready pop he hl hp hs => ?_, fun s c j n k a b v w hs hk hl hab hn ha hb hv hw hp => ?_,
    fun s a target w ready pop he hl hp hs => ?_⟩
  · obtain ⟨t, seq, ht, hpc, hat, hbun, has⟩ := ends_scalarLanding ready pop (by rw [he]; rfl) (by simp [he])
      (performed_land (s := given s _) he) hl hp hs
    rw [nextBundle_land he] at hpc hat
    refine ⟨t, ht, hpc, hat, has.mem, hbun, fun n hn => ?_, fun n hn => ?_⟩
    · rw [has.early hn, has.bank]
    · obtain ⟨hbank, hmem⟩ := has.late hn
      exact ⟨hbank ▸ sameBankBut_land_s .., hbank ▸ sr_land_s_same .., hmem⟩
  · obtain ⟨hsr, hland⟩ := younger_stays hs hk hl hab hn ha hb hv hw hp
    exact ⟨hsr, hland, fun x l h => insertLanding_last h⟩
  · obtain ⟨t, seq, ht, -, -, -, has⟩ := ends_scalarLanding ready pop (by rw [he]; rfl) (by simp [he])
      (performed_loopCount (s := given s _) he) hl hp hs
    refine ⟨t, ht, fun n => ⟨fun hn => ?_, fun hn => ?_⟩⟩
    · rw [has.early hn]
      exact ⟨loopCount_inFlight (s := { t with bun := s.bun }) has.land, has.bank⟩
    · obtain ⟨hbank, -⟩ := has.late hn
      refine ⟨hbank ▸ sr_land_s_same .., loopCount_landed (s := { t.landUntil s.bun.core s.bun.ctx n with bun := s.bun }) ?_ a,
        hbank ▸ sameBankBut_land_s ..⟩
      refine (landUntil_land has.closed).trans ?_
      rw [show (t.ctx s.bun.core s.bun.ctx).land = _ from has.land]
      simpa [scalarLanding] using hn

end Sys2Proof.Proofs

/-! PROOFS. Trap entry (R84, R190 to R192). -/

namespace Sys2Proof.Proofs

open Sys2Proof.Machine Sys2Proof.Safety Sys2Proof.Laws

/-! ### A bundle that traps ends with its trap -/

theorem unremoved {b : Bundle} (hd : b.dropLf = none) (hc : b.clearCh = none) : { b with dropLf := none, clearCh := none } = b := by
  obtain ⟨⟩ := b
  cases hd
  cases hc
  rfl

/-- Whichever way its trap was found (R84), a bundle that removes nothing takes it. -/
theorem ends_trapBundle {s : State} {tr : Trap} (h : trapping s tr) (hd : s.bun.dropLf = none) (hc : s.bun.clearCh = none) :
    Ends s (((given s [s.bun.core]).trapBundle tr).dropFaults s.bun.core) := by
  obtain ⟨hw, hp, hh, found⟩ := h
  show execBundleCommit (given s [s.bun.core]) = _
  unfold execBundleCommit
  rw [if_neg (by simp [given, hw, hp, State.op])]
  rcases found with ⟨hi, hm, ht⟩ | hi
  · rw [finishBundle_trap (s := given s [s.bun.core]) hh ((illegalTrap_given s _).trans hi) hm ht]
    rfl
  · rw [finishBundle_illegal (s := given s [s.bun.core]) hh ((illegalTrap_given s _).trans hi),
      unremoved (b := (given s [s.bun.core]).bun) hd hc]
    rfl

/-- A context whose bundle traps, before the trap is taken. -/
def trapTold (tr : Trap) (x : Ctx) : Ctx :=
  { x with owed := if x.owed.head? = some tr then x.owed.drop 1 else x.owed, stalled := [], noSafe := false }

theorem trapBundle_eq {s : State} (tr : Trap) (hw : s.bun.words ≠ []) (hd : s.bun.dropLf = none) (hc : s.bun.clearCh = none) :
    s.trapBundle tr = ((s.countIssue.modMe (trapTold tr)).takeTrap tr s.bun.pc s.bun.t).clearBundle := by
  have he : s.bun.words.isEmpty = false := by simpa using hw
  unfold State.trapBundle
  simp only [hd, hc, he, Bool.false_eq_true, if_false]
  rfl

/-! ### The handler is entered -/

/-- A bank as trap entry leaves it. -/
def bankTrapped (tr : Trap) (pc : Nat) (b : Bank) : Bank :=
  { b.keepRegs frameAt frameRegs with
    cr := tset (tset (tset b.cr 0 (wd tr.cause)) 2 (wd (tr.detail * 256 + tr.word))) 1 (wd pc) }

/-- A context as trap entry at cycle t leaves it. -/
def ctxTrapped (pc t : Nat) (x : Ctx) : Ctx :=
  { x with
    handler := true, trapT := t, pc := pc, nextAt := t + 20, land := x.land.filter (·.commits)
    loads := x.loads.map fun l => { l with held := true }
    snap := (x.land.filter (!·.commits)).map fun l => { l with due := l.due - t } }

/-- A core as trap entry leaves it: its sequencer stands still. -/
def seqrFrozen (k : Core) : Core := { k with seqr := { k.seqr with frozen := true } }

/-- A state as trap entry at cycle t leaves it, with the handler at an address. -/
def trapEntered (s : State) (tr : Trap) (pc handler t : Nat) : State :=
  ((s.modBank s.bun.core s.bun.ctx (bankTrapped tr pc)).modCtx s.bun.core s.bun.ctx (ctxTrapped handler t)).modCore s.bun.core seqrFrozen

/-- Outside a handler, with one to go to and nothing due, trap entry is the entry alone. -/
theorem takeTrap_enters {s : State} {tr : Trap} {pc t : Nat} (hh : s.me.handler = false) (hv : s.cr 0x003 ≠ 0)
    (hl : ∀ l ∈ s.me.land, t < l.due) : s.takeTrap tr pc t = trapEntered s tr pc (s.cr 0x003).toNat t := by
  have e : s.landUntil s.bun.core s.bun.ctx t = s := landUntil_early hl
  unfold State.takeTrap
  simp only [e, hh, hv, Bool.false_eq_true, if_false]
  rfl

section

variable (s : State) (tr : Trap) (pc handler t : Nat)

theorem trapEntered_ctx :
    (trapEntered s tr pc handler t).ctx s.bun.core s.bun.ctx = ctxTrapped handler t (s.ctx s.bun.core s.bun.ctx) := by
  have frozen : SameCtxs ((s.modBank s.bun.core s.bun.ctx (bankTrapped tr pc)).modCtx s.bun.core s.bun.ctx (ctxTrapped handler t))
      (trapEntered s tr pc handler t) := sameCtxs_modCore fun _ => rfl
  have bank : SameCtxs s (s.modBank s.bun.core s.bun.ctx (bankTrapped tr pc)) := sameCtxs_modBank _ _ _ _
  rw [frozen.ctx, modCtx_ctx_same, bank.ctx]

theorem trapEntered_mem : (trapEntered s tr pc handler t).mem = s.mem :=
  modBank_mem s s.bun.core s.bun.ctx (bankTrapped tr pc)

theorem trapEntered_frozen : ((trapEntered s tr pc handler t).core s.bun.core).seqr.frozen = true := by
  rw [trapEntered, modCore_core, if_pos rfl]
  rfl

theorem trapEntered_bankOf (h : (s.ctx s.bun.core s.bun.ctx).bank.isSome = true) :
    (trapEntered s tr pc handler t).bankOf s.bun.core s.bun.ctx = bankTrapped tr pc (s.bankOf s.bun.core s.bun.ctx) := by
  have same : (trapEntered s tr pc handler t).bankOf s.bun.core s.bun.ctx =
      (s.modBank s.bun.core s.bun.ctx (bankTrapped tr pc)).bankOf s.bun.core s.bun.ctx := by
    refine bankOf_congr ?_ ?_
    · rw [trapEntered_ctx, SameCtxs.ctx (sameCtxs_modBank s _ _ _)]
      rfl
    · rw [trapEntered, modCore_core, if_pos rfl]
      exact modCtx_core_field Core.banks (fun _ _ => rfl) ..
  rw [same, modBank_bankOf _ h]

end

/-! ### The frame -/

/-- A run of entries written from a place on. -/
theorem tget_foldl_tset {α : Type} (d : α) (f : Nat → α) (o n : Nat) (l : List Nat) (t : Tab α) :
    tget d (l.foldl (fun t k => tset t (o + k) (f k)) t) n = if o ≤ n ∧ n - o ∈ l then f (n - o) else tget d t n := by
  induction l generalizing t with
  | nil => simp
  | cons k l ih =>
    rw [List.foldl_cons, ih, tget_tset]
    by_cases hk : n = o + k
    · subst hk; simp
    · have : o ≤ n → n - o ≠ k := by omega
      by_cases ho : o ≤ n
      · simp [ho, hk, this ho]
      · simp [ho, hk]

theorem bankTrapped_spill (tr : Trap) (pc : Nat) (b : Bank) (n : Nat) :
    tget 0 (bankTrapped tr pc b).spill n = if 0x3F00 / 8 ≤ n ∧ n < 0x3F00 / 8 + 32 then b.sr (n - 0x3F00 / 8) else tget 0 b.spill n := by
  have h : n - frameAt / 8 ∈ frameRegs ↔ n - 0x3F00 / 8 < 32 := List.mem_range
  simp only [bankTrapped, Bank.keepRegs, tget_foldl_tset, h]
  refine if_congr ?_ rfl rfl
  simp only [frameAt]
  omega

theorem bankTrapped_cr (tr : Trap) (pc : Nat) (b : Bank) :
    tget 0 (bankTrapped tr pc b).cr 0x000 = wd tr.cause ∧ tget 0 (bankTrapped tr pc b).cr 0x001 = wd pc ∧
      tget 0 (bankTrapped tr pc b).cr 0x002 = wd (tr.detail * 256 + tr.word) ∧
      ∀ n, 2 < n → tget 0 (bankTrapped tr pc b).cr n = tget 0 b.cr n := by
  refine ⟨?_, ?_, ?_, fun n hn => ?_⟩ <;> simp only [bankTrapped, tget_tset]
  · rfl
  · rfl
  · rfl
  · rw [if_neg (by omega), if_neg (by omega), if_neg (by omega)]

theorem bankTrapped_rest (tr : Trap) (pc : Nat) (b : Bank) :
    let b' := bankTrapped tr pc b
    b'.s = b.s ∧ b'.v = b.v ∧ b'.mask = b.mask ∧ b'.fmt = b.fmt ∧ b'.mg = b.mg ∧ b'.cg = b.cg ∧ b'.qc = b.qc := by
  simp only [bankTrapped, Bank.keepRegs, and_self]

/-! ### What the bundle's end leaves -/

/-- The state in which the trap of the bundle in hand is taken. -/
def trapFrom (s : State) (tr : Trap) : State := s.countIssue.modMe (trapTold tr)

theorem trapFrom_bun (s : State) (tr : Trap) : (trapFrom s tr).bun = s.bun := countIssue_bun s

theorem trapFrom_issuer {α : Type} (p : Ctx → α) (h1 : ∀ x, p (ctxBeside x) = p x) (tr : Trap) (h2 : ∀ x, p (trapTold tr x) = p x)
    (s : State) : p (issuer s (trapFrom s tr)) = p (issuer s s) := by
  rw [issuer, trapFrom, State.modMe, countIssue_bun, modCtx_ctx_same, h2, (sameButIssue_countIssue s).onCtx p h1]
  rfl

theorem trapFrom_bankOf (s : State) (tr : Trap) : issuerBank s (trapFrom s tr) = issuerBank s s := by
  refine (modCtx_bankOf ?_ _ _).trans ((sameButIssue_countIssue s).bankOf _ _)
  rfl

theorem trapFrom_mem (s : State) (tr : Trap) : (trapFrom s tr).mem = s.mem := (sameButIssue_countIssue s).mem

/-- A bundle whose trap enters the handler. -/
theorem trapBundle_enters {s : State} {tr : Trap} (hw : s.bun.words ≠ []) (hd : s.bun.dropLf = none) (hc : s.bun.clearCh = none)
    (hh : (issuer s s).handler = false) (hv : tget 0 (issuerBank s s).cr 0x003 ≠ 0) (hl : ∀ l ∈ (issuer s s).land, s.bun.t < l.due) :
    s.trapBundle tr =
      (trapEntered (trapFrom s tr) tr s.bun.pc (tget 0 (issuerBank s s).cr 0x003).toNat s.bun.t).clearBundle := by
  have hme : (trapFrom s tr).me = issuer s (trapFrom s tr) := by rw [State.me, trapFrom_bun]; rfl
  have hcr : (trapFrom s tr).cr 0x003 = tget 0 (issuerBank s s).cr 0x003 := by
    rw [← trapFrom_bankOf s tr, State.cr, State.mb, trapFrom_bun]; rfl
  rw [trapBundle_eq tr hw hd hc]
  show ((trapFrom s tr).takeTrap tr s.bun.pc s.bun.t).clearBundle = _
  rw [takeTrap_enters, hcr]
  · rw [hme, trapFrom_issuer Ctx.handler (fun _ => rfl) tr (fun _ => rfl), hh]
  · rw [hcr]; exact hv
  · rw [hme, trapFrom_issuer Ctx.land (fun _ => rfl) tr (fun _ => rfl)]; exact hl

/-- What such a bundle leaves. -/
theorem trapBundle_leaves {s : State} {tr : Trap} (hw : s.bun.words ≠ []) (hd : s.bun.dropLf = none) (hc : s.bun.clearCh = none)
    (hh : (issuer s s).handler = false) (hb : (issuer s s).bank.isSome = true) (hv : tget 0 (issuerBank s s).cr 0x003 ≠ 0)
    (hl : ∀ l ∈ (issuer s s).land, s.bun.t < l.due) :
    let t := (s.trapBundle tr).dropFaults s.bun.core
    issuer s t = ctxTrapped (tget 0 (issuerBank s s).cr 0x003).toNat s.bun.t (issuer s (trapFrom s tr)) ∧
      issuerBank s t = bankTrapped tr s.bun.pc (issuerBank s s) ∧ t.mem = s.mem ∧ (t.core s.bun.core).seqr.frozen = true := by
  have hbun := trapFrom_bun s tr
  have hbank := trapFrom_bankOf s tr
  have hmem := trapFrom_mem s tr
  have hsome : ((trapFrom s tr).ctx s.bun.core s.bun.ctx).bank.isSome = true := by
    rw [show ((trapFrom s tr).ctx s.bun.core s.bun.ctx).bank = _ from trapFrom_issuer Ctx.bank (fun _ => rfl) tr (fun _ => rfl) s, hb]
  rw [trapBundle_enters hw hd hc hh hv hl]
  generalize trapFrom s tr = v at *
  generalize (tget 0 (issuerBank s s).cr 0x003).toNat = h
  have ends := (sameButIssue_clearBundle (trapEntered v tr s.bun.pc h s.bun.t)).trans (sameButIssue_dropFaults _ s.bun.core)
  rw [← hbun] at hsome
  refine ⟨?_, ?_, ends.mem.trans ((trapEntered_mem ..).trans hmem), ?_⟩
  · rw [issuer, (sameCtxs_dropFaults _ _).ctx, (sameCtxs_clearBundle _).ctx, ← hbun, trapEntered_ctx, issuer, hbun]
  · refine (ends.bankOf _ _).trans (Eq.trans ?_ (congrArg _ hbank))
    rw [issuerBank, ← hbun, trapEntered_bankOf _ _ _ _ _ hsome]
  · refine (ends.onCore (fun k => k.seqr.frozen) (fun _ => rfl) _).trans ?_
    rw [← hbun]
    exact trapEntered_frozen ..

/-- A bundle that traps outside a handler enters it, with the results in flight that its strand had. -/
theorem ends_trapEntered {s : State} {tr : Trap} (h : trapping s tr) (hd : s.bun.dropLf = none) (hc : s.bun.clearCh = none)
    (hh : (issuer s s).handler = false) (hb : (issuer s s).bank.isSome = true) (hv : tget 0 (issuerBank s s).cr 0x003 ≠ 0)
    (hl : ∀ l ∈ (issuer s s).land, s.bun.t < l.due) :
    ∃ t x, Ends s t ∧ x.land = (issuer s s).land ∧
      issuer s t = ctxTrapped (tget 0 (issuerBank s s).cr 0x003).toNat s.bun.t x ∧
      issuerBank s t = bankTrapped tr s.bun.pc (issuerBank s s) ∧ t.mem = s.mem ∧ (t.core s.bun.core).seqr.frozen = true := by
  obtain ⟨hx, rest⟩ := trapBundle_leaves (s := given s [s.bun.core]) (tr := tr) h.1 hd hc hh hb hv hl
  exact ⟨_, _, ends_trapBundle h hd hc, trapFrom_issuer Ctx.land (fun _ => rfl) tr (fun _ => rfl) (given s [s.bun.core]), hx, rest⟩

/-- Settles O35. -/
theorem trapEntrySavesAndEntersTheHandler : Obligations.TrapEntrySavesAndEntersTheHandler := by
  intro s tr h hd hc hh hb hv hl
  obtain ⟨t, x, ht, hland, hx, hbank, hm, hf⟩ := ends_trapEntered h hd hc hh hb hv hl
  obtain ⟨h0, h1, h2, hn⟩ := bankTrapped_cr tr s.bun.pc (issuerBank s s)
  obtain ⟨hs, hvr, hmask, hfmt, hmg, hcg, hqc⟩ := bankTrapped_rest tr s.bun.pc (issuerBank s s)
  refine ⟨t, ht, ?_⟩
  dsimp only
  rw [hx, hbank, ← hland]
  refine ⟨rfl, rfl, rfl, rfl, rfl, rfl, fun l hl => ?_, h0, h1, h2, hn, fun k hk => ?_, fun k hk => ?_,
    hs, hvr, hmask, hfmt, hmg, hcg, hqc, hm, hf⟩
  · obtain ⟨l', -, rfl⟩ := List.mem_map.mp hl
    rfl
  · rw [bankTrapped_spill, if_pos (by omega), Nat.add_sub_cancel_left]
  · rw [bankTrapped_spill, if_neg (by omega)]

end Sys2Proof.Proofs

/-! PROOFS. Frame of the operations that slot forms share: each changes the bundle in hand alone (R73). -/

namespace Sys2Proof.Proofs

open Sys2Proof.Machine Sys2Proof.Safety Sys2Proof.Laws

/-! ### Gates and checks -/

theorem onlyBundle_ite (s : State) (c : Prop) [Decidable c] {t u : State} (ht : OnlyBundle s t) (hu : OnlyBundle s u) :
    OnlyBundle s (if c then t else u) := by
  split
  · exact ht
  · exact hu

theorem onlyBundle_spillGate (s : State) {go : State → State} (h : OnlyBundle s (go s)) : OnlyBundle s (s.spillGate go) :=
  onlyBundle_ite s _ (onlyBundle_memGate s h) h

theorem onlyBundle_relGate (s : State) {go : State → State} (h : OnlyBundle s (go s)) : OnlyBundle s (s.relGate go) :=
  onlyBundle_ite s _ (onlyBundle_waitFor s _ _) h

theorem onlyBundle_crewGate (s : State) {go : State → State} (h : OnlyBundle s (go s)) : OnlyBundle s (s.crewGate go) :=
  onlyBundle_ite s _ (onlyBundle_waitFor s _ _) (onlyBundle_unless s _ _ _ h)

/-- No room: the strict trap or the lenient hold (R304). -/
theorem onlyBundle_noRoom (s : State) (d n w : Nat) : OnlyBundle s (if s.cr 0x007 = 0 then s.trap 0x07 d else s.waitFor w n) :=
  onlyBundle_ite s _ (onlyBundle_trap s _ _) (onlyBundle_waitFor s _ _)

theorem onlyBundle_readyRoom (s : State) (n : Nat) {go : State → State} (h : OnlyBundle s (go s)) : OnlyBundle s (s.readyRoom n go) :=
  onlyBundle_ite s _ h (onlyBundle_noRoom s _ _ _)

theorem onlyBundle_emit2 (s : State) (e f : Eff) : OnlyBundle s ((s.emit e).emit f) := ⟨_, s.free, rfl⟩

/-- A trap beside which the bundle notes what its report removes (R339, R352, R356). -/
theorem onlyBundle_noted {s t : State} (c : Prop) [Decidable c] (b : Bundle) (h : OnlyBundle s t) :
    OnlyBundle s (if c then { t with bun := b } else t) :=
  onlyBundle_ite s c (h.trans ⟨b, t.free, rfl⟩) h

/-! ### Links, queues, accumulators, vector accesses -/

theorem onlyBundle_readLf (s : State) (d k : Nat) : OnlyBundle s (s.readLf d k) := by
  refine onlyBundle_unless s _ _ _ ?_
  split
  · exact onlyBundle_waitFor s _ _
  · refine onlyBundle_ite s _ ?_ (onlyBundle_emit2 s _ _)
    have noted := onlyBundle_noted (s.bun.trap.isNone = true) { s.bun with dropLf := some k } (OnlyBundle.refl s)
    exact onlyBundle_ite s _ (noted.trans (onlyBundle_trap _ _ _)) (noted.trans (onlyBundle_trap _ _ _))

theorem onlyBundle_writeLf (s : State) (k : Nat) (w : Word) : OnlyBundle s (s.writeLf k w) :=
  onlyBundle_unless s _ _ _ <| onlyBundle_unless s _ _ _ <| onlyBundle_unless s _ _ _ <|
    onlyBundle_ite s _ (onlyBundle_waitFor s _ _) (onlyBundle_emit s _)

theorem onlyBundle_writeQc (s : State) (k : Nat) (w : Word) : OnlyBundle s (s.writeQc k w) := by
  unfold State.writeQc
  exact onlyBundle_unless s _ _ _ <| onlyBundle_unless s _ _ _ <| onlyBundle_unless s _ _ _ (onlyBundle_emit s _)

theorem onlyBundle_accAccess (s : State) (u b : Nat) (pair : Bool) {go : Nat → State → State} (h : ∀ row, OnlyBundle s (go row s)) :
    OnlyBundle s (s.accAccess u b pair go) :=
  onlyBundle_ite s _ (onlyBundle_waitFor s _ _) <| onlyBundle_ite s _ (onlyBundle_trap s _ _) <|
    onlyBundle_ite s _ (onlyBundle_trap s _ _) <| onlyBundle_ite s _ (onlyBundle_trap s _ _) (h _)

theorem onlyBundle_vaccess (s : State) (a mode : Nat) {go : List Nat → State} (h : ∀ l, OnlyBundle s (go l)) :
    OnlyBundle s (s.vaccess a mode go) :=
  onlyBundle_ite s _ (onlyBundle_trap s _ _) <| onlyBundle_ite s _ (onlyBundle_trap s _ _) <|
    onlyBundle_ite s _ (onlyBundle_trap s _ _) (h _)

theorem onlyBundle_gather (s : State) (a b : Nat) {go : List Nat → List Nat → State} (h : ∀ l o, OnlyBundle s (go l o)) :
    OnlyBundle s (s.gather a b go) := by
  unfold State.gather
  dsimp only
  split
  · exact onlyBundle_trap s _ _
  · exact onlyBundle_trap s _ _
  · exact onlyBundle_trap s _ _
  · exact h _ _

theorem onlyBundle_slowEmit (s : State) (k : Nat) (e : Eff) : OnlyBundle s ((s.slow k).emit e) := ⟨_, s.free, rfl⟩

theorem onlyBundle_reserve64 {s t : State} (h : OnlyBundle s t) : OnlyBundle s (s.reserve64 t) := h.trans (onlyBundle_reserve t _ _)

/-! ### Matrix words and copies -/

theorem onlyBundle_drawNat (s : State) : OnlyBundle s s.drawNat.2 := ⟨s.bun, _, rfl⟩

/-- A matrix word that passes its checks reserves its random numbers and may draw a free value. -/
theorem onlyBundle_mtCheck (s : State) (i : Instr) (frozen chained : Bool) {go : MtWord → State → State}
    (h : ∀ w t, OnlyBundle t (go w t)) : OnlyBundle s (s.mtCheck i frozen chained go) := by
  unfold State.mtCheck
  dsimp only
  split
  · exact onlyBundle_trap s _ _
  · refine onlyBundle_ite s _ ⟨_, s.free, rfl⟩ ?_
    split
    · exact onlyBundle_trap s _ _
    · exact onlyBundle_trap s _ _
    · refine onlyBundle_ite s _ (onlyBundle_trap s _ _) ?_
      split
      · exact onlyBundle_trap s _ _
      · refine onlyBundle_ite s _ (onlyBundle_trap s _ _) ?_
        split
        · exact onlyBundle_trap s _ _
        · refine onlyBundle_ite s _ (onlyBundle_trap s _ _) (OnlyBundle.trans ?_ (h _ _))
          have reserved (n f k : Nat) : OnlyBundle s (if n = 0 then s else s.reserve f k) :=
            onlyBundle_ite s _ (.refl s) (onlyBundle_reserve s _ _)
          split
          · exact (reserved _ _ _).trans (onlyBundle_drawNat _)
          · exact reserved _ _ _

theorem onlyBundle_copyRoom2 (s : State) (i : Instr) (g y : Nat) {fin : State → State} (h : OnlyBundle s (fin s)) :
    OnlyBundle s (s.copyRoom2 i g y fin) :=
  onlyBundle_ite s _ (onlyBundle_qRoom s _ h) <| onlyBundle_ite s _ (onlyBundle_creditRoom s _ _ h) h

theorem onlyBundle_copyRoom (s : State) (i : Instr) (ch g y : Nat) {fin : State → State} (h : OnlyBundle s (fin s)) :
    OnlyBundle s (s.copyRoom i ch g y fin) :=
  onlyBundle_ite s _ (onlyBundle_copyRoom2 s i g y h) <| onlyBundle_ite s _ (onlyBundle_trap s _ _)
    ((onlyBundle_waitFor s _ _).trans (onlyBundle_copyRoom2 _ i g y (.refl _)))

/-! ### Answers -/

/-- The answer is a next state in which nothing but the bundle in hand has changed. -/
def Stays (s : State) (a : Answer) : Prop := ∃ t, a = .next t ∧ OnlyBundle s t

theorem stays_next {s t : State} (h : OnlyBundle s t) : Stays s (.next t) := ⟨t, rfl, h⟩

theorem stays_ite {s : State} (c : Prop) [Decidable c] {a b : Answer} (ha : Stays s a) (hb : Stays s b) :
    Stays s (if c then a else b) := by
  split
  · exact ha
  · exact hb

section

variable (s : State)

theorem stays_result (d lat : Nat) (w : Word) : Stays s (.next (s.result d lat w)) := stays_next (onlyBundle_result s d lat w)

theorem stays_emit (e : Eff) : Stays s (.next (s.emit e)) := stays_next (onlyBundle_emit s e)

theorem stays_nop : Stays s (.next s) := stays_next (.refl s)

theorem stays_atomic (op d a : Nat) (x e : Word) (sc o z : Nat) : Stays s (s.atomic op d a x e sc o z) :=
  stays_next <| onlyBundle_memGate s <| onlyBundle_access s _ fun _ _ _ => onlyBundle_emit s _

theorem stays_xform (i : Instr) (d : Nat) (a : Option Nat) (b : Nat) (good : Bool) (n m k l r : Nat) :
    Stays s (s.xform i d a b good n m k l r) :=
  stays_next <| onlyBundle_memGate s <|
    onlyBundle_unless s _ _ _ <| onlyBundle_unless s _ _ _ <| onlyBundle_unless s _ _ _ <| onlyBundle_unless s _ _ _ <|
    onlyBundle_unless s _ _ _ <| onlyBundle_unless s _ _ _ <| onlyBundle_unless s _ _ _ <| onlyBundle_unless s _ _ _ <|
    (onlyBundle_ite s _ (.refl s) (onlyBundle_reserve s _ _)).trans (onlyBundle_emit _ _)

theorem stays_wvIssue (i : Instr) (a tag : Nat) (isNew : Bool) {go : State → (State → State) → State}
    (h : ∀ k : State → State, OnlyBundle s (k s) → OnlyBundle s (go s k)) : Stays s (s.wvIssue i a tag isNew go) :=
  stays_next <| onlyBundle_unless s _ _ _ <| h _ (onlyBundle_emit s _)

theorem stays_barrier (a : Nat) (reads bad : Bool) {go : Nat → Nat → State → State} (h : ∀ pa w, OnlyBundle s (go pa w s)) :
    Stays s (s.barrier a reads bad go) := by
  have checked (go' : State → State) (h' : OnlyBundle s (go' s)) : OnlyBundle s (if reads then s.relGate go' else go' s) :=
    onlyBundle_ite s _ (onlyBundle_relGate s h') h'
  exact stays_next <| checked _ <| onlyBundle_unless s _ _ _ <| onlyBundle_access s _ fun _ _ _ => h _ _

theorem stays_mwait (i : Instr) (a b n : Nat) : Stays s (s.mwait i a b n) :=
  stays_next <| onlyBundle_relGate s <| onlyBundle_access s _ fun _ _ _ => onlyBundle_emit s _

theorem stays_phaseCommitAt (sc : Nat) : Stays s (s.phaseCommitAt sc) :=
  stays_next <| onlyBundle_memGate s <| onlyBundle_unless s _ _ _ <| onlyBundle_ite s _ (onlyBundle_waitFor s _ _) <|
    onlyBundle_unless s _ _ _ <| onlyBundle_unless s _ _ _ (onlyBundle_emit s _)

theorem stays_mtIssue (i : Instr) : Stays s (s.mtIssue i) :=
  stays_next <| onlyBundle_ite s _ (onlyBundle_waitFor s _ _) (onlyBundle_mtCheck s i _ _ fun _ t => onlyBundle_emit t _)

theorem stays_copyIssue (i : Instr) (ch g x y : Nat) : Stays s (s.copyIssue i ch g x y) := by
  have begun (t : State) (bad : Bool) (e : Eff) :
      OnlyBundle t (t.unless bad 0x17 0 fun s => s.copyRoom i ch g y fun s => s.emit e) :=
    onlyBundle_unless t _ _ _ <| onlyBundle_copyRoom t i ch g y (onlyBundle_emit t _)
  refine stays_next <| onlyBundle_memGate s <| onlyBundle_checks s _ <| onlyBundle_ite s _ ?_ ?_
  · split
    · exact onlyBundle_trap s _ _
    · exact onlyBundle_ite s _ (begun s _ _) (onlyBundle_mtCheck s _ _ _ fun m t => begun t _ _)
  · exact begun s _ _

theorem stays_wordIssue (i : Instr) (ch y : Nat) : Stays s (s.wordIssue i ch y) :=
  stays_next <| onlyBundle_checks s _ <| onlyBundle_trackRoom s _ (onlyBundle_emit s _)

/-! ### Vector forms -/

theorem stays_vfm (d a b c : Nat) (np nc : Bool) : Stays s (s.vfm d a b c np nc) :=
  stays_next <| onlyBundle_types s _ <| onlyBundle_reserve64 <| onlyBundle_vmap3 s _ _ _ _ _ _

theorem stays_vresult (d lat w : Nat) (l : List Nat) : Stays s (.next (s.vresult d lat w l)) := stays_emit s _

theorem stays_vresultAll (d lat w : Nat) (l : List Nat) : Stays s (.next (s.vresultAll d lat w l)) := stays_emit s _

theorem stays_vapprox (d a fn : Nat) : Stays s (s.vapprox d a fn) :=
  stays_next <| onlyBundle_types s _ <|
    onlyBundle_ite s _ (onlyBundle_vmap1 s _ _ _ _) (onlyBundle_reserve64 (onlyBundle_vmap1 s _ _ _ _))

theorem stays_vred (d a kind : Nat) : Stays s (s.vred d a kind) :=
  stays_next <| onlyBundle_types s _ <| onlyBundle_vresultAll s _ _ _ _

theorem stays_vscan (d a kind : Nat) (excl : Bool) : Stays s (s.vscan d a kind excl) :=
  stays_next <| onlyBundle_types s _ <| onlyBundle_vresult s _ _ _ _

theorem stays_fmtwBlk (blk acf : Nat) : Stays s (.next (s.fmtwBlk blk acf)) := stays_emit s _

theorem stays_pushMask (lat : Nat) (m : Word) : Stays s (.next (s.pushMask lat m)) := stays_next (onlyBundle_pushMask s lat m)

theorem stays_branch (taken : Bool) (target : Nat) : Stays s (.next (s.branch taken target)) :=
  stays_next (onlyBundle_branch s taken target)

theorem stays_trap (c d : Nat) : Stays s (.next (s.trap c d)) := stays_next (onlyBundle_trap s c d)

end

end Sys2Proof.Proofs

/-! PROOFS. Every slot form changes the bundle in hand alone, map by map (R73). -/

namespace Sys2Proof.Proofs

open Sys2Proof.Machine Sys2Proof.Safety Sys2Proof.Laws

/-! ### Forms of the scalar map, one by one -/

section

variable (s : State)

theorem stays_execXformSplit (d a b f : Nat) : Stays s (execXformSplit d a b f s) := by
  unfold execXformSplit
  exact stays_xform s _ _ _ _ _ _ _ _ _ _

theorem stays_execXformMerge (d a b f : Nat) : Stays s (execXformMerge d a b f s) := by
  unfold execXformMerge
  exact stays_xform s _ _ _ _ _ _ _ _ _ _

theorem stays_execXformConv (d a b f g : Nat) : Stays s (execXformConv d a b f g s) := by
  unfold execXformConv
  exact stays_xform s _ _ _ _ _ _ _ _ _ _

theorem stays_execXformZero (d b : Nat) : Stays s (execXformZero d b s) := by
  unfold execXformZero
  exact stays_xform s _ _ _ _ _ _ _ _ _ _

theorem stays_execXformBpack (d a b : Nat) : Stays s (execXformBpack d a b s) := by
  unfold execXformBpack
  exact stays_xform s _ _ _ _ _ _ _ _ _ _

theorem stays_execXformBunpack (d a b : Nat) : Stays s (execXformBunpack d a b s) := by
  unfold execXformBunpack
  exact stays_xform s _ _ _ _ _ _ _ _ _ _

theorem stays_execPhaseStart (a n m : Nat) : Stays s (execPhaseStart a n m s) := by
  refine stays_next <| onlyBundle_memGate s <| onlyBundle_unless s _ _ _ ?_
  dsimp only
  split
  · exact onlyBundle_trap s _ _
  · exact onlyBundle_trap s _ _
  · exact onlyBundle_unless s _ _ _ <| onlyBundle_access s _ fun _ _ _ => onlyBundle_emit s _

theorem stays_execCrewJoin (d a : Nat) : Stays s (execCrewJoin d a s) := by
  refine stays_next <| onlyBundle_crewGate s ?_
  dsimp only
  split
  · exact onlyBundle_result s _ _ _
  · exact onlyBundle_ite s _ (onlyBundle_result s _ _ _) <| onlyBundle_ite s _ (onlyBundle_result s _ _ _) <|
      onlyBundle_ite s _ (onlyBundle_result s _ _ _) (onlyBundle_emit2 s _ _)

theorem stays_execWvpin (d a : Nat) : Stays s (execWvpin d a s) := stays_wvIssue s _ _ _ _ fun _ hk => hk

theorem stays_execWvpinT (d a b : Nat) : Stays s (execWvpinT d a b s) := stays_wvIssue s _ _ _ _ fun _ hk => hk

theorem stays_execWvget (d a : Nat) : Stays s (execWvget d a s) := stays_wvIssue s _ _ _ _ fun _ hk => hk

theorem stays_execWvgetT (d a b : Nat) : Stays s (execWvgetT d a b s) := stays_wvIssue s _ _ _ _ fun _ hk => hk

theorem stays_execWvrel (d a : Nat) : Stays s (execWvrel d a s) := stays_wvIssue s _ _ _ _ fun _ hk => hk

theorem stays_execWvrelT (d a b : Nat) : Stays s (execWvrelT d a b s) := stays_wvIssue s _ _ _ _ fun _ hk => hk

theorem stays_execWvnewStage (d a : Nat) : Stays s (execWvnewStage d a s) :=
  stays_wvIssue s _ _ _ _ fun _ hk => onlyBundle_ite s _ hk (onlyBundle_noRoom s _ _ _)

theorem stays_execWvnewPub (a : Nat) : Stays s (execWvnewPub a s) := stays_wvIssue s _ _ _ _ fun _ hk => onlyBundle_relGate s hk

theorem stays_execBarInit (a b : Nat) : Stays s (execBarInit a b s) := stays_barrier s _ _ _ fun _ _ => onlyBundle_emit s _

theorem stays_execBarExpect (a b : Nat) : Stays s (execBarExpect a b s) :=
  stays_barrier s _ _ _ fun _ _ => onlyBundle_unless s _ _ _ (onlyBundle_emit s _)

theorem stays_execBarArrive (d a b : Nat) : Stays s (execBarArrive d a b s) :=
  stays_barrier s _ _ _ fun _ _ => onlyBundle_unless s _ _ _ (onlyBundle_emit s _)

theorem stays_execBarWait (d a b : Nat) : Stays s (execBarWait d a b s) :=
  stays_barrier s _ _ _ fun _ _ => onlyBundle_ite s _ (onlyBundle_trap s _ _) <|
    onlyBundle_ite s _ (onlyBundle_emit s _) (onlyBundle_parkFor s _)

theorem stays_execBarTest (d a b : Nat) : Stays s (execBarTest d a b s) := stays_barrier s _ _ _ fun _ _ => onlyBundle_emit s _

end

/-! ### Every form, by its map -/

/-- A form of the scalar map. -/
theorem stays_s {i : Instr} {w : Nat} (h : encode i = some (.s, w)) (s : State) : Stays s (exec i s) := by
  cases i
  case add | sub | and | or | xor | andn | shl | shr | sar | ror | minI64 | minN64 | maxI64 | maxN64 | addsI64 | addsN64 | subsI64
      | subsN64 | mul | mulhI64 | mulhN64 | divI64 | divN64 | remI64 | remN64 | cmp =>
    exact stays_result s _ _ _
  case clz | ctz | popc | neg | not | abs | sx8 | sx16 | sx32 | zx8 | zx16 | zx32 | brev | bswap | addi | andi | ori | xori | shli | shri
      | sari | rori | cmpi | movk | lea | bextN64 | bextI64 | bins =>
    exact stays_result s _ _ _
  case movi | gget | crewInfo | rdcnt => exact stays_result s _ _ _
  case gset => exact stays_emit s _
  case nopS => exact stays_nop s
  case crd =>
    exact stays_ite _ (stays_ite _ (stays_next (onlyBundle_waitFor s _ _)) (stays_emit s _))
      (stays_ite _ (stays_next (onlyBundle_readLf s _ _)) (stays_result s _ _ _))
  case cwr =>
    exact stays_ite _ (stays_next (onlyBundle_writeQc s _ _)) (stays_ite _ (stays_next (onlyBundle_writeLf s _ _)) (stays_emit s _))
  case ld | st | stRel =>
    exact stays_next <| onlyBundle_memGate s <| onlyBundle_access s _ fun _ _ _ => onlyBundle_emit s _
  case ldAcq =>
    exact stays_next <| onlyBundle_memGate s <| onlyBundle_access s _ fun _ _ _ =>
      onlyBundle_ite s _ (onlyBundle_emit s _) (onlyBundle_emit2 s _ _)
  case ldx | stx => exact stays_next <| onlyBundle_spillGate s (onlyBundle_emit s _)
  case amoAdd | amoAnd | amoOr | amoXor | amoMinI | amoMaxI | amoMinN | amoMaxN | amoSwap | amoFadd | cas =>
    exact stays_atomic s _ _ _ _ _ _ _ _
  case fence => exact stays_next <| onlyBundle_memGate s (onlyBundle_emit s _)
  case fwait | phaseAbort => exact stays_next <| onlyBundle_memGate s <| onlyBundle_unless s _ _ _ (onlyBundle_emit s _)
  case publish =>
    exact stays_next <| onlyBundle_memGate s <| onlyBundle_unless s _ _ _ <| onlyBundle_unless s _ _ _ (onlyBundle_emit s _)
  case xformSplit => exact stays_execXformSplit s _ _ _ _
  case xformMerge => exact stays_execXformMerge s _ _ _ _
  case xformConv => exact stays_execXformConv s _ _ _ _ _
  case xformZero => exact stays_execXformZero s _ _
  case xformBpack => exact stays_execXformBpack s _ _ _
  case xformBunpack => exact stays_execXformBunpack s _ _ _
  case phaseStart => exact stays_execPhaseStart s _ _ _
  case phaseCommitCore | phaseCommitClu | phaseCommitDev | phaseCommitSys | phaseCommitRcv => exact stays_phaseCommitAt s _
  case ckseal =>
    exact stays_next <| onlyBundle_memGate s <| onlyBundle_ite s _ (onlyBundle_trap s _ _) <|
      onlyBundle_access s _ fun _ _ _ => onlyBundle_emit s _
  case spawn =>
    exact stays_next <| onlyBundle_relGate s <| onlyBundle_unless s _ _ _ <| onlyBundle_access s _ fun _ _ _ =>
      onlyBundle_readyRoom s _ (onlyBundle_emit s _)
  case suspend => exact stays_next <| onlyBundle_unless s _ _ _ <| onlyBundle_readyRoom s _ (onlyBundle_emit s _)
  case crewJoin => exact stays_execCrewJoin s _ _
  case crewLeave => exact stays_next <| onlyBundle_crewGate s (onlyBundle_emit s _)
  case wvpin => exact stays_execWvpin s _ _
  case wvpinT => exact stays_execWvpinT s _ _ _
  case wvget => exact stays_execWvget s _ _
  case wvgetT => exact stays_execWvgetT s _ _ _
  case wvrel => exact stays_execWvrel s _ _
  case wvrelT => exact stays_execWvrelT s _ _ _
  case wvnewStage => exact stays_execWvnewStage s _ _
  case wvnewPub => exact stays_execWvnewPub s _
  case arrive => exact stays_next <| onlyBundle_relGate s <| onlyBundle_unless s _ _ _ (onlyBundle_emit s _)
  case gtrig =>
    exact stays_next <| onlyBundle_relGate s <| onlyBundle_unless s _ _ _ <| onlyBundle_unless s _ _ _ (onlyBundle_emit s _)
  case mwaitN32 | mwaitN64 => exact stays_mwait s _ _ _ _
  case barInit => exact stays_execBarInit s _ _
  case barExpect => exact stays_execBarExpect s _ _
  case barArrive => exact stays_execBarArrive s _ _ _
  case barWait => exact stays_execBarWait s _ _ _
  case barTest => exact stays_execBarTest s _ _ _
  case rbeg | dormArm | dormDisarm | exit => exact stays_next <| onlyBundle_unless s _ _ _ (onlyBundle_emit s _)
  case dormCount => exact stays_next <| onlyBundle_unless s _ _ _ (onlyBundle_result s _ _ _)
  case chkt => exact stays_next <| onlyBundle_unless s _ _ _ (.refl s)
  case rcom =>
    exact stays_next <| onlyBundle_ite s _ (onlyBundle_trap s _ _) <| onlyBundle_ite s _ (onlyBundle_trap s _ _) <|
      onlyBundle_ite s _ (onlyBundle_waitFor s _ _) <| onlyBundle_ite s _ (onlyBundle_emit s _) <|
      onlyBundle_ite s _ (onlyBundle_emit s _) (onlyBundle_noted _ _ (onlyBundle_trap s _ _))
  all_goals cases h

/-- A form of the vector map. -/
theorem stays_v {i : Instr} {w : Nat} (h : encode i = some (.v, w)) (s : State) : Stays s (exec i s) := by
  cases i
  case vfadd | vfsub | vfmul | vfmin | vfmax =>
    exact stays_next <| onlyBundle_types s _ <| onlyBundle_reserve64 <| onlyBundle_vmap2 s _ _ _ _ _
  case vfma | vfms | vnfma | vnfms => exact stays_vfm s _ _ _ _ _ _
  case viadd | visub | vimul | vimulh | vshl | vshr | vsar | vimin | vimax | viadds | visubs =>
    exact stays_next <| onlyBundle_types s _ <| onlyBundle_vmap2 s _ _ _ _ _
  case vand | vor | vxor | vandn => exact stays_emit s _
  case vsel | vsels => exact stays_vresult s _ _ _ _
  case vfabs | vfneg => exact stays_next <| onlyBundle_types s _ <| onlyBundle_vmap1 s _ _ _ _
  case vrcp | vrsqrt | vexp2 | vexp | vlog2 | vtanh | vsigm => exact stays_vapprox s _ _ _
  case vperm | vperm2 | vzipl | vziph | vunze | vunzo | vrot | vshd | vcat => exact stays_vresult s _ _ _ _
  case vredadd | vredmin | vredmax => exact stays_vred s _ _ _
  case vredand | vredor | vredxor => exact stays_vresultAll s _ _ _ _
  case vscanadd | vscanmin | vscanmax | vscanxadd | vscanxmin | vscanxmax => exact stays_vscan s _ _ _ _
  case vfsgn | vcmp => exact stays_next <| onlyBundle_types s _ <| onlyBundle_vmap2 s _ _ _ _ _
  case viabs | vineg => exact stays_next <| onlyBundle_types s _ <| onlyBundle_vmap1 s _ _ _ _
  case vsqrt => exact stays_next <| onlyBundle_types s _ <| onlyBundle_reserve64 <| onlyBundle_vmap1 s _ _ _ _
  case vcmpm => exact stays_next <| onlyBundle_types s _ <| onlyBundle_pushMask s _ _
  case vcvt =>
    exact stays_next <| onlyBundle_unless s _ _ _ <| onlyBundle_ite s _ (onlyBundle_reserve64 (onlyBundle_emit s _)) (onlyBundle_emit s _)
  case vcvtTote => exact stays_next <| onlyBundle_reserve64 <| onlyBundle_vresultAll s _ _ _ _
  case vcvtFrte => exact stays_next <| onlyBundle_reserve64 <| onlyBundle_vresult s _ _ _ _
  case vcomp | vm2v => exact stays_vresultAll s _ _ _ _
  case vexpd | vmovi | vmovih => exact stays_vresult s _ _ _ _
  case vnzm => exact stays_pushMask s _ _
  case vext | vexts | vext64 => exact stays_result s _ _ _
  case vaccr | vaccw | vaccrF64 => exact stays_next <| onlyBundle_accAccess s _ _ _ fun _ => onlyBundle_emit s _
  case vaccwF64 => exact stays_next <| onlyBundle_accAccess s _ _ _ fun _ => onlyBundle_emit2 s _ _
  case vld | vst => exact stays_next <| onlyBundle_memGate s <| onlyBundle_vaccess s _ _ fun _ => onlyBundle_emit s _
  case vgat | vscat => exact stays_next <| onlyBundle_memGate s <| onlyBundle_gather s _ _ fun _ _ => onlyBundle_slowEmit s _ _
  case vqh => exact stays_ite _ (stays_next (onlyBundle_waitFor s _ _)) (stays_emit s _)
  case vchk a b =>
    show Stays s (execVchk a b s)
    unfold execVchk
    dsimp only
    split
    · exact stays_trap s _ _
    · exact stays_nop s
  case nopV => exact stays_nop s
  all_goals cases h

/-- A form of the matrix map. -/
theorem stays_m {i : Instr} {w : Nat} (h : encode i = some (.m, w)) (s : State) : Stays s (exec i s) := by
  cases i
  case tmm | tmmt | tlx | tlxT | tlxX | tlxTx | tla | tlaT | tproj | tlplE | tlplA | tlplEa | tzero | tldacc | tstacc | tstaccG | tscale =>
    exact stays_mtIssue s _
  case twait =>
    exact stays_next <| onlyBundle_ite s _ (onlyBundle_trap s _ _) <| onlyBundle_ite s _ (onlyBundle_waitFor s _ _) <|
      onlyBundle_unless s _ _ _ (onlyBundle_emit s _)
  case nopM => exact stays_nop s
  all_goals cases h

/-- A form of the copy map. -/
theorem stays_c {i : Instr} {w : Nat} (h : encode i = some (.c, w)) (s : State) : Stays s (exec i s) := by
  cases i
  case cpy | cpym | rdx | stash | unstash | chsend | glean => exact stays_copyIssue s _ _ _ _ _
  case sdrop | chack => exact stays_wordIssue s _ _ _
  case drain =>
    refine stays_next <| onlyBundle_ite s _ (onlyBundle_parkFor s _) ?_
    split
    · exact onlyBundle_noted _ _ (onlyBundle_trap s _ _)
    · exact onlyBundle_emit s _
  case qpush =>
    exact stays_next <| onlyBundle_unless s _ _ _ <| onlyBundle_unless s _ _ _ <| onlyBundle_qRoom s _ (onlyBundle_emit s _)
  case nopC => exact stays_nop s
  all_goals cases h

/-- A form of the control map. -/
theorem stays_x {i : Instr} {w : Nat} (h : encode i = some (.x, w)) (s : State) : Stays s (exec i s) := by
  cases i
  case br | loopEnter | bnone => exact stays_branch s _ _
  case call => exact stays_next (onlyBundle_emit2 s _ _)
  case jr => exact stays_next (onlyBundle_jump s _)
  case jrl => exact stays_next ((onlyBundle_jump s _).trans (onlyBundle_result _ _ _ _))
  case loop => exact stays_ite _ (stays_next (onlyBundle_emit2 s _ _)) (stays_emit s _)
  case mpush | mpushRaw => exact stays_pushMask s _ _
  case mpop | minv | fmtwVty | fmtwMab | fmtwRnd | halt => exact stays_emit s _
  case fmtw => exact stays_next <| onlyBundle_unless s _ _ _ (onlyBundle_emit s _)
  case fmtwBlk00 | fmtwBlk01 | fmtwBlk10 | fmtwBlk11 => exact stays_fmtwBlk s _ _
  case trap => exact stays_next <| onlyBundle_unless s _ _ _ (.refl s)
  case sysc | ebrk => exact stays_trap s _ _
  case yield => exact stays_next <| onlyBundle_ite s _ (.refl s) (onlyBundle_emit s _)
  case nopX => exact stays_nop s
  all_goals cases h

/-- R73: a slot form has a next state, and only the bundle in hand is another there. -/
theorem stays_of_encode {i : Instr} {sm : SlotMap} {w : Nat} (h : encode i = some (sm, w)) (s : State) : Stays s (exec i s) :=
  match sm with
  | .s => stays_s h s
  | .v => stays_v h s
  | .m => stays_m h s
  | .c => stays_c h s
  | .x => stays_x h s

theorem sameButBundle_of_onlyBundle {s t : State} (h : OnlyBundle s t) : SameButBundle s t := by
  obtain ⟨b, n, rfl⟩ := h
  rfl

/-- Settles O28. -/
theorem slotFormsChangeOnlyTheBundle : Obligations.SlotFormsChangeOnlyTheBundle := by
  intro i s t hi he
  obtain ⟨⟨sm, w⟩, hw⟩ := Option.isSome_iff_exists.mp hi
  obtain ⟨u, hu, same⟩ := stays_of_encode hw s
  obtain rfl : u = t := Host.Outcome.next.inj (hu.symm.trans he)
  exact sameButBundle_of_onlyBundle same

end Sys2Proof.Proofs

/-! PROOFS. Landing events and issues (R73, R75, R77, R84). -/

namespace Sys2Proof.Proofs

open Sys2Proof.Machine Sys2Proof.Safety Sys2Proof.Laws

/-! ### What a consumption leaves of the results in flight -/

/-- t has the cycle and the memory of s, and of the context's results in flight at most those of s. -/
structure Discards (c j : Nat) (s t : State) : Prop where
  clk : t.clk = s.clk
  mem : t.mem = s.mem
  land : ∀ y ∈ (t.ctx c j).land, y ∈ (s.ctx c j).land

theorem Discards.trans {c j : Nat} {s t u : State} (h : Discards c j s t) (g : Discards c j t u) : Discards c j s u :=
  ⟨g.clk.trans h.clk, g.mem.trans h.mem, fun y hy => h.land y (g.land y hy)⟩

theorem discards_of_sameCtxs {c j : Nat} {s t : State} (hc : t.clk = s.clk) (hm : t.mem = s.mem) (h : SameCtxs s t) : Discards c j s t :=
  ⟨hc, hm, fun y hy => by rwa [h.ctx] at hy⟩

theorem discards_modCtx {c j : Nat} (s : State) {f : Ctx → Ctx} (hf : ∀ x, ∀ y ∈ (f x).land, y ∈ x.land) :
    Discards c j s (s.modCtx c j f) :=
  ⟨rfl, rfl, fun y hy => by rw [modCtx_ctx_same] at hy; exact hf _ y hy⟩

theorem dropSequencer_clk (s : State) (c : Nat) : (s.dropSequencer c).clk = s.clk := by
  unfold State.dropSequencer State.countBusy
  split
  · exact (sameButIssue_perf s _ _ _ _).onState State.clk fun _ => rfl
  · rfl

theorem discards_dropSequencer (s : State) (c j : Nat) : Discards c j s (s.dropSequencer c) :=
  discards_of_sameCtxs (dropSequencer_clk s c) (dropSequencer_mem s c) (sameCtxs_dropSequencer s c)

theorem discards_startKill (s : State) (c j code : Nat) : Discards c j s (s.startKill c j code) := by
  unfold State.startKill
  dsimp only
  have drops : Discards c j s ((s.dropCarried c (s.ctx c j).uid true).dropFlips (s.ctx c j).uid) :=
    discards_of_sameCtxs rfl rfl fun _ => rfl
  have killed := drops.trans (discards_modCtx _ (f := fun x =>
    { x with wait := .kill code, after := .none, land := [], snap := [], loads := [], rel := none, relBefore := [], arrives := [], owed := []
             phase := .closed, region := .closed, handler := false }) fun _ _ hy => nomatch hy)
  split
  · exact killed.trans (discards_dropSequencer _ c j)
  · exact killed

theorem discards_consume (s : State) (c j : Nat) : Discards c j s (s.consume c j) := by
  cases hk : (s.ctx c j).wait.killing
  case true =>
    rw [show s.consume c j = s by unfold State.consume; simp only [hk, if_true]]
    exact ⟨rfl, rfl, fun _ hy => hy⟩
  case false =>
    cases hh : (s.ctx c j).handler
    case true =>
      rw [show s.consume c j = s.startKill c j 0x41 by
        unfold State.consume; simp only [hk, hh, Bool.false_eq_true, if_false, if_true]]
      exact discards_startKill s c j _
    case false =>
      have drops : Discards c j s (consumeDrops s c j) := by
        refine discards_of_sameCtxs ?_ consumeDrops_mem (sameCtxs_consumeDrops s c j)
        unfold consumeDrops
        dsimp only
        split <;> rfl
      have rolled := drops.trans (discards_modCtx _ (f := rolledBack) fun _ _ hy => (List.mem_filter.mp hy).1)
      rw [consume_eq hk hh]
      split
      · exact rolled.trans (discards_dropSequencer _ c j)
      · exact rolled

/-! ### A landing event -/

/-- The state in which what is due at n has landed, before its poison is consumed. -/
def dueLanded (s : State) (c j n : Nat) : State :=
  let now := (s.ctx c j).land.filter fun l => decide (l.due ≤ n)
  let s' := (s.modCtx c j fun x => { x with land := x.land.filter fun l => !decide (l.due ≤ n) }).modBank c j
    fun b => now.foldl (fun b l => b.land l.dest l.val) b
  { s' with copies := (now.filterMap (·.dest.queue)).foldl (fun t q => t.map fun p => (p.1, p.2.forget c (s.ctx c j).uid q)) s'.copies }

theorem landUntil_eq (s : State) (c j n : Nat) :
    s.landUntil c j n = s ∧ (∀ l ∈ (s.ctx c j).land, n < l.due) ∨
      s.landUntil c j n = dueLanded s c j n ∨ s.landUntil c j n = (dueLanded s c j n).consume c j := by
  unfold State.landUntil dueLanded
  dsimp only
  split
  · next e =>
    rw [List.isEmpty_iff, List.filter_eq_nil_iff] at e
    exact .inl ⟨rfl, fun l hl => by simpa using e l hl⟩
  · split
    · exact .inr (.inr rfl)
    · exact .inr (.inl rfl)

theorem dueLanded_rest (s : State) (c j n : Nat) :
    (dueLanded s c j n).clk = s.clk ∧ (dueLanded s c j n).mem = s.mem ∧ ∀ l ∈ ((dueLanded s c j n).ctx c j).land, n < l.due := by
  let s1 := s.modCtx c j fun x => { x with land := x.land.filter fun l => !decide (l.due ≤ n) }
  refine ⟨(modBank_clk s1 c j _).trans rfl, (modBank_mem s1 c j _).trans rfl, fun l hl => ?_⟩
  replace hl : l ∈ ((State.modBank s1 c j fun b =>
    ((s.ctx c j).land.filter fun l => decide (l.due ≤ n)).foldl (fun b l => b.land l.dest l.val) b).ctx c j).land := hl
  rw [(sameCtxs_modBank s1 c j _).ctx, modCtx_ctx_same] at hl
  simpa using (List.mem_filter.mp hl).2

/-- What is due lands, and no result stays that was due (R75). -/
theorem landUntil_rest (s : State) (c j n : Nat) :
    (s.landUntil c j n).clk = s.clk ∧ (s.landUntil c j n).mem = s.mem ∧ ∀ l ∈ ((s.landUntil c j n).ctx c j).land, n < l.due := by
  obtain ⟨hclk, hmem, hland⟩ := dueLanded_rest s c j n
  rcases landUntil_eq s c j n with ⟨e, early⟩ | e | e
  · rw [e]; exact ⟨rfl, rfl, early⟩
  · rw [e]; exact ⟨hclk, hmem, hland⟩
  · have less := discards_consume (dueLanded s c j n) c j
    rw [e]
    exact ⟨less.clk.trans hclk, less.mem.trans hmem, fun l hl => hland l (less.land l hl)⟩

/-- Where no decision point comes between, time passes as it is. -/
theorem timeTo_of_idle {s : State} (h : s.owesCycle = false) (t : Nat) : s.timeTo t = s.passTo t := by
  unfold State.timeTo
  cases t - s.clk with
  | zero => rfl
  | succ n => rw [State.cyclesTo, h]; rfl

/-- A landing event: time passes to its cycle, what is due lands, and f marks where the two units of a mirrored operation disagree. -/
theorem exec_resultLanding {s : State} {c j : Nat} {l : Landing} {r : List Landing} (hj : (s.core c).running = some j)
    (hl : (s.ctx c j).land = l :: r) (hw : (s.ctx c j).wait ≠ .trans) :
    ∃ f, exec .resultLanding (given s [c]) = .next ((((given s [c]).timeTo l.due).landUntil c j l.due).modBank c j f) := by
  have hj' : ((given s [c]).core c).running = some j := hj
  have hl' : ((given s [c]).ctx c j).land = l :: r := hl
  have hw' : ((given s [c]).ctx c j).wait ≠ .trans := hw
  show ∃ f, execResultLanding (given s [c]) = _
  unfold execResultLanding
  simp only [given_op, List.getD_cons_zero, hj', hl', hw', if_false]
  exact ⟨_, rfl⟩

theorem resultLanding_takesEffect {s : State} {c j : Nat} {l : Landing} {r : List Landing} (hj : (s.core c).running = some j)
    (hl : (s.ctx c j).land = l :: r) (hw : (s.ctx c j).wait ≠ .trans) (ho : s.owesCycle = false) :
    ∃ t, Answers .resultLanding [c] s t ∧ t.clk = max s.clk l.due ∧ (∀ y, y ∈ (t.ctx c j).land → l.due < y.due) ∧ t.mem = s.mem := by
  obtain ⟨f, hf⟩ := exec_resultLanding hj hl hw
  rw [timeTo_of_idle (s := given s [c]) ho] at hf
  obtain ⟨hclk, hmem, hland⟩ := landUntil_rest ((given s [c]).passTo l.due) c j l.due
  refine ⟨_, hf, ?_, fun y hy => hland y ?_, ?_⟩
  · rw [modBank_clk, hclk, passTo_clk]; rfl
  · rwa [(sameCtxs_modBank _ c j f).ctx] at hy
  · rw [modBank_mem, hmem, passTo_mem]; rfl

/-! ### An issue -/

/-- The slots of a bundle that run. -/
def decodedSlots (ws : List Nat) : List (Nat × Instr) := (slotsOf ws).filterMap fun p => p.2.map fun i => (p.1, i)

/-- The next bundle of context j of core c issues at cycle t, in state u: v fetches its words ws, which leaves v'; v1 has them, and
they are legal, held by nothing, and without a trap that the strand owes. -/
structure Issues (s : State) (c j : Nat) (ws : List Nat) (t : Nat) (u v v' v1 : State) : Prop where
  cycle : max s.clk (max (s.ctx c j).nextAt (s.core c).busyTill) = t
  state : (((s.timeTo t).landUntil c j t).modCore c (·.accSettle t)).seqAdvance c t = u
  fetching : { u with bun := { Bundle.none with core := c, ctx := j, pc := (u.ctx c j).pc, t := t } } = v
  access : v.fetchAccess c (u.ctx c j).space (u.ctx c j).pc = v'
  fetched : { v' with bun := { v'.bun with words := ws, mirror := mirrorWrites ws } } = v1
  running : (s.core c).running = some j
  can : s.canIssue c = true
  awake : (u.ctx c j).wait = .none
  goes : u.safeNext c j = false
  words : v.fetch c (u.ctx c j).space (u.ctx c j).pc = .words ws
  legal : bundleBad ws (decodedSlots ws) = none
  free : v1.interlock (decodedSlots ws) = none
  unscored : v1.cr 0x008 = 0
  owesNone : v1.me.owed = []

theorem sameButLines_fetchAccess (s : State) (c space pc : Nat) : SameButLines s (s.fetchAccess c space pc) := by
  unfold State.fetchAccess
  split
  · exact (sameButLines_downAccess s _).trans (sameButLines_l2Fills _ _ _ _)
  · rfl

section

variable {s u v v' v1 : State} {c j t : Nat} {ws : List Nat}

theorem Issues.bun (h : Issues s c j ws t u v v' v1) : v1.bun = { v.bun with words := ws, mirror := mirrorWrites ws } := by
  rw [← h.fetched, ← h.access]
  dsimp only
  rw [(sameButLines_fetchAccess v c _ _).on State.bun fun _ => rfl]

theorem Issues.effs (h : Issues s c j ws t u v v' v1) : v1.bun.effs = [] := by rw [h.bun, ← h.fetching]; rfl

theorem Issues.trap (h : Issues s c j ws t u v v' v1) : v1.bun.trap = none := by rw [h.bun, ← h.fetching]; rfl

theorem Issues.cycle_bun (h : Issues s c j ws t u v v' v1) : v1.bun.t = t := by rw [h.bun, ← h.fetching]

theorem Issues.clk (h : Issues s c j ws t u v v' v1) : v1.clk = u.clk := by
  rw [← h.fetched, ← h.access, ← h.fetching]
  exact (sameButLines_fetchAccess _ _ _ _).on State.clk fun _ => rfl

theorem Issues.mem (h : Issues s c j ws t u v v' v1) : v1.mem = u.mem := by
  rw [← h.fetched, ← h.access, ← h.fetching]
  exact (sameButLines_fetchAccess _ _ _ _).on State.mem fun _ => rfl

/-- A bundle that nothing is wrong with and nothing holds waits with its slots. -/
theorem prepare_eq (hv : { s with bun := { s.bun with words := ws, mirror := mirrorWrites ws } } = v)
    (legal : bundleBad ws (decodedSlots ws) = none) (free : v.interlock (decodedSlots ws) = none) (cr : v.cr 0x008 = 0)
    (owed : v.me.owed = []) (trap : v.bun.trap = none) : s.prepare ws = { v with pending := decodedSlots ws } := by
  have board : v.scoreboard (decodedSlots ws) = (none, v) := by
    unfold State.scoreboard
    simp only [cr, if_true]
  have bun : { v.bun with trap := none } = v.bun := by rw [← trap]
  have owes : v.me.owed.head? = none := by rw [owed]; rfl
  unfold decodedSlots at legal free board
  unfold State.prepare decodedSlots
  dsimp only
  rw [hv]
  simp only [legal, free, board, owes, bun]

theorem Issues.prepares (h : Issues s c j ws t u v v' v1) : s.issue c j = { v1 with pending := decodedSlots ws } := by
  have prepared := prepare_eq h.fetched h.legal h.free h.unscored h.owesNone h.trap
  unfold State.issue
  simp only [h.cycle, h.state, h.fetching, h.access, h.awake, h.goes, h.words, prepared, bne_self_eq_false, Bool.false_eq_true, if_false]

/-- R73, R77, R84: an issue ends with the bundle fetched and its slots waiting. -/
theorem exec_bundleIssue (h : Issues s c j ws t u v v' v1) (hop : s.op 0 = c) :
    exec .bundleIssue s = .next { v1 with pending := decodedSlots ws } := by
  show execBundleIssue s = _
  unfold execBundleIssue
  simp only [hop, h.running, h.can, if_true, h.prepares]

end

/-- Settles O42. -/
theorem issueAndLandingEventsTakeEffect : Obligations.IssueAndLandingEventsTakeEffect := by
  refine ⟨?_, fun s c j l r hj hl hw ho => resultLanding_takesEffect hj hl hw ho⟩
  intro s c j ws s0 t0 u v v' v1 is running can awake goes words legal free cr owed
  have h : Issues s0 c j ws t0 u v v' v1 := ⟨rfl, rfl, rfl, rfl, rfl, running, can, awake, goes, words, legal, free, cr, owed⟩
  have bun := congrArg Bundle.words h.bun
  clear_value u v v' v1
  exact ⟨{ v1 with pending := decodedSlots ws }, exec_bundleIssue h rfl, bun, h.cycle_bun, h.trap, h.effs, rfl, h.clk, h.mem⟩

end Sys2Proof.Proofs

/-! PROOFS. A step runs the decoded instruction (R57, R60, R73, R84). -/

namespace Sys2Proof.Proofs

open Sys2Proof.Machine Sys2Proof.Safety Sys2Proof.Laws

/-! ### The slots of a bundle of one word beside nops -/

/-- The nop of a bundle word's map, which the word 0 encodes. -/
def nopOf (n : Nat) : Instr :=
  match slotMap n with
  | .s => .nopS
  | .v => .nopV
  | .m => .nopM
  | .c => .nopC
  | .x => .nopX

theorem decodeSlot_zero (sm : SlotMap) :
    decodeSlot sm 0 = some (match sm with | .s => .nopS | .v => .nopV | .m => .nopM | .c => .nopC | .x => .nopX) := by
  cases sm <;> rfl

theorem decodeSlot_nopOf (n : Nat) : decodeSlot (slotMap n) 0 = some (nopOf n) := decodeSlot_zero _

/-- Word k of a bundle is w, and its other slots hold nops. -/
def oneWord (h k w : Nat) : List Nat := (h :: List.replicate 7 0).set k w

theorem nth_oneWord {h k w n : Nat} (hn : 1 ≤ n) (hk : k ≤ 7) : nth 0 (oneWord h k w) n = if n = k then w else 0 := by
  have len : (h :: List.replicate 7 0).length = 8 := rfl
  unfold nth oneWord
  rw [List.getD_eq_getElem?_getD, List.getElem?_set]
  by_cases e : k = n
  · rw [if_pos e, if_pos (by omega), if_pos e.symm]
    rfl
  · rw [if_neg e, if_neg (Ne.symm e)]
    obtain ⟨m, rfl⟩ : ∃ m, n = m + 1 := ⟨n - 1, by omega⟩
    rw [List.getElem?_cons_succ, List.getElem?_replicate]
    split <;> rfl

/-- One word mirrors none (R71). -/
theorem mirrored_oneWord {h k w n : Nat} (hn : 1 ≤ n) (hk : k ≤ 7) : mirrored (oneWord h k w) n = false := by
  by_contra hm
  simp only [mirrored, Bool.not_eq_false, Bool.and_eq_true, Bool.or_eq_true, bne_iff_ne, beq_iff_eq] at hm
  obtain ⟨⟨⟨-, two⟩, some⟩, same⟩ := hm
  rw [nth_oneWord (by omega) hk] at some
  rw [nth_oneWord hn hk, nth_oneWord (by omega) hk] at same
  have hk1 : n - 1 = k := by
    by_contra e
    rw [if_neg e] at some
    exact some rfl
  rw [if_neg (show n ≠ k by omega), if_pos hk1] at same
  rw [if_pos hk1] at some
  exact some same.symm

/-- What a bundle word's slot runs there. -/
def slotForm (k : Nat) (i : Instr) (n : Nat) : Nat × Instr := (n, if n = k then i else nopOf n)

theorem one_le_of_slot : ∀ n ∈ [1, 2, 3, 4, 5, 6, 7], 1 ≤ n := by decide

theorem slotsOf_oneWord {h k w : Nat} (hk : k ≤ 7) :
    slotsOf (oneWord h k w) = [1, 2, 3, 4, 5, 6, 7].map fun n => (n, decodeSlot (slotMap n) (nth 0 (oneWord h k w) n)) := by
  have all : [1, 2, 3, 4, 5, 6, 7].filter (fun n => !mirrored (oneWord h k w) n) = [1, 2, 3, 4, 5, 6, 7] := by
    rw [List.filter_eq_self]
    intro n hn
    rw [mirrored_oneWord (one_le_of_slot n hn) hk]
    rfl
  unfold slotsOf
  rw [all]

theorem decodedSlots_oneWord {h k w : Nat} {i : Instr} (hk : k ≤ 7) (hi : decodeSlot (slotMap k) w = some i) :
    decodedSlots (oneWord h k w) = [1, 2, 3, 4, 5, 6, 7].map (slotForm k i) := by
  have form (n : Nat) (hn : 1 ≤ n) : decodeSlot (slotMap n) (nth 0 (oneWord h k w) n) = some (slotForm k i n).2 := by
    rw [nth_oneWord hn hk]
    unfold slotForm
    by_cases e : n = k
    · rw [if_pos e, if_pos e, e, hi]
    · rw [if_neg e, if_neg e, decodeSlot_nopOf]
  unfold decodedSlots
  rw [slotsOf_oneWord hk, List.filterMap_map, ← List.filterMap_eq_map]
  refine List.filterMap_congr fun n hn => ?_
  rw [Function.comp_apply, form n (one_le_of_slot n hn)]
  rfl

/-! ### Nops -/

theorem readMarks_nopOf (s : State) (n : Nat) : State.readMarks s (nopOf n) = s := by
  unfold nopOf
  split <;> rfl

theorem exec_nopOf (s : State) (n : Nat) : exec (nopOf n) s = .next s := by
  unfold nopOf
  split <;> rfl

/-- A state whose slot in hand is n, the slots after it waiting. -/
def atSlot (s : State) (n : Nat) (l : List (Nat × Instr)) : State := { s with bun := { s.bun with slot := n }, pending := l }

theorem runSlots_nop (s : State) (n : Nat) (l : List (Nat × Instr)) : runSlots ((n, nopOf n) :: l) s = runSlots l (atSlot s n l) :=
  runSlots_cons ((congrArg (exec (nopOf n)) (readMarks_nopOf (atSlot s n l) n)).trans (exec_nopOf _ n))

/-- Nops before a slot leave nothing of themselves when it runs. -/
theorem runSlots_nops (ns : List Nat) (k : Nat) (i : Instr) (l : List (Nat × Instr)) (s : State) :
    runSlots (ns.map (fun n => (n, nopOf n)) ++ (k, i) :: l) s = runSlots ((k, i) :: l) s := by
  induction ns generalizing s with
  | nil => rfl
  | cons n ns ih =>
    rw [List.map_cons, List.cons_append, runSlots_nop, ih]
    rfl

/-- Nops at a bundle's end leave the last slot in hand, and none waiting. -/
theorem runSlots_nops_end (ns : List Nat) (n : Nat) (s : State) :
    runSlots ((ns ++ [n]).map fun n => (n, nopOf n)) s = .next (atSlot s n []) := by
  rw [List.map_append, List.map_singleton, runSlots_nops, runSlots_nop]
  rfl

/-! ### What a slot leaves of its place -/

/-- The same slot is in hand, and the same slots wait. -/
def SamePlace (s t : State) : Prop := t.bun.slot = s.bun.slot ∧ t.pending = s.pending

theorem samePlace_refl (s : State) : SamePlace s s := ⟨rfl, rfl⟩

theorem SamePlace.trans {s t u : State} (h : SamePlace s t) (g : SamePlace t u) : SamePlace s u :=
  ⟨g.1.trans h.1, g.2.trans h.2⟩

theorem samePlace_emit (s : State) (e : Eff) : SamePlace s (s.emit e) := ⟨rfl, rfl⟩

theorem samePlace_trap (s : State) (c d : Nat) : SamePlace s (s.trap c d) := by
  unfold State.trap
  split <;> exact ⟨rfl, rfl⟩

theorem samePlace_waitFor (s : State) (w c : Nat) : SamePlace s (s.waitFor w c) := by
  unfold State.waitFor
  split <;> exact ⟨rfl, rfl⟩

theorem samePlace_ite (s : State) (c : Prop) [Decidable c] {t u : State} (ht : SamePlace s t) (hu : SamePlace s u) :
    SamePlace s (if c then t else u) := by
  split
  · exact ht
  · exact hu

theorem samePlace_unless (s : State) (bad : Bool) (c d : Nat) {k : State → State} (h : SamePlace s (k s)) :
    SamePlace s (s.unless bad c d k) := samePlace_ite s _ (samePlace_trap s c d) h

theorem samePlace_branch (s : State) (b : Bool) (t : Nat) : SamePlace s (s.branch b t) :=
  samePlace_ite s _ (samePlace_emit s _) (samePlace_refl s)

theorem samePlace_pushMask (s : State) (lat : Nat) (w : Word) : SamePlace s (s.pushMask lat w) :=
  samePlace_unless s _ _ _ (samePlace_emit s _)

theorem samePlace_jump (s : State) (t : Word) : SamePlace s (s.jump t) :=
  samePlace_ite s _ (samePlace_ite s _ (samePlace_emit s _) (samePlace_waitFor s _ _)) (samePlace_emit s _)

/-- Reading an operand's marks may trap, after drawing a value. -/
theorem samePlace_readMarks (s : State) (i : Instr) : SamePlace s (State.readMarks s i) := by
  refine foldl_keeps (SamePlace s) _ (fun u d h => h.trans ?_) _ _ (samePlace_refl s)
  dsimp only
  split
  · refine samePlace_ite u _ (samePlace_refl u) ?_
    split
    · exact samePlace_trap u _ _
    · exact SamePlace.trans (t := u.drawWord.2) ⟨rfl, rfl⟩ (samePlace_trap _ _ _)
  · exact samePlace_refl u

/-- The answer is a next state at the same place. -/
def StaysAtPlace (s : State) (a : Answer) : Prop := ∃ t, a = .next t ∧ SamePlace s t

theorem staysAtPlace_next {s t : State} (h : SamePlace s t) : StaysAtPlace s (.next t) := ⟨t, rfl, h⟩

/-- A form of the control map, which runs in a bundle's last slot. -/
theorem staysAtPlace_x {i : Instr} {w : Nat} (h : encode i = some (.x, w)) (s : State) : StaysAtPlace s (exec i s) := by
  cases i
  case br | loopEnter | bnone => exact staysAtPlace_next (samePlace_branch s _ _)
  case call => exact staysAtPlace_next ⟨rfl, rfl⟩
  case jr => exact staysAtPlace_next (samePlace_jump s _)
  case jrl => exact staysAtPlace_next ((samePlace_jump s _).trans (samePlace_emit _ _))
  case loop a o =>
    show StaysAtPlace s (if (s.loopCount a).toNat ≥ 2 then _ else _)
    split
    · exact staysAtPlace_next ⟨rfl, rfl⟩
    · exact staysAtPlace_next (samePlace_emit s _)
  case mpush | mpushRaw => exact staysAtPlace_next (samePlace_pushMask s _ _)
  case mpop | minv | fmtwVty | fmtwMab | fmtwRnd | halt | fmtwBlk00 | fmtwBlk01 | fmtwBlk10 | fmtwBlk11 =>
    exact staysAtPlace_next (samePlace_emit s _)
  case fmtw => exact staysAtPlace_next <| samePlace_unless s _ _ _ (samePlace_emit s _)
  case trap => exact staysAtPlace_next <| samePlace_unless s _ _ _ (samePlace_refl s)
  case sysc | ebrk => exact staysAtPlace_next (samePlace_trap s _ _)
  case yield => exact staysAtPlace_next <| samePlace_ite s _ (samePlace_refl s) (samePlace_emit s _)
  case nopX => exact staysAtPlace_next (samePlace_refl s)
  all_goals cases h

/-! ### A bundle of one word runs -/

/-- The slots of the bundle run: the word's form at its place, and then the nops after it. -/
theorem runSlots_oneWord {k w : Nat} {i : Instr} (h1 : 1 ≤ k) (h7 : k ≤ 7) (hi : decodeSlot (slotMap k) w = some i) (s : State) :
    ∃ b, exec i (State.readMarks (atSlot s k (([1, 2, 3, 4, 5, 6, 7].map (slotForm k i)).drop k)) i) = .next b ∧
      runSlots ([1, 2, 3, 4, 5, 6, 7].map (slotForm k i)) s = .next (atSlot b 7 []) := by
  have word : encode i = some (slotMap k, w) := (decodeSlot_readsOnly _ _ i hi).2
  obtain ⟨b, hb, -⟩ := stays_of_encode word (State.readMarks (atSlot s k (([1, 2, 3, 4, 5, 6, 7].map (slotForm k i)).drop k)) i)
  refine ⟨b, hb, ?_⟩
  have before {l : List (Nat × Instr)} (ns : List Nat) (hl : l = ([1, 2, 3, 4, 5, 6, 7].map (slotForm k i)).drop k)
      (hs : [1, 2, 3, 4, 5, 6, 7].map (slotForm k i) = ns.map (fun n => (n, nopOf n)) ++ (k, i) :: l) :
      runSlots ([1, 2, 3, 4, 5, 6, 7].map (slotForm k i)) s = runSlots l b := by
    rw [hs, runSlots_nops]
    subst hl
    exact runSlots_cons hb
  obtain rfl | rfl | rfl | rfl | rfl | rfl | rfl : k = 1 ∨ k = 2 ∨ k = 3 ∨ k = 4 ∨ k = 5 ∨ k = 6 ∨ k = 7 := by omega
  · exact (before [] rfl rfl).trans (runSlots_nops_end [2, 3, 4, 5, 6] 7 b)
  · exact (before [1] rfl rfl).trans (runSlots_nops_end [3, 4, 5, 6] 7 b)
  · exact (before [1, 2] rfl rfl).trans (runSlots_nops_end [4, 5, 6] 7 b)
  · exact (before [1, 2, 3] rfl rfl).trans (runSlots_nops_end [5, 6] 7 b)
  · exact (before [1, 2, 3, 4] rfl rfl).trans (runSlots_nops_end [6] 7 b)
  · exact (before [1, 2, 3, 4, 5] rfl rfl).trans (runSlots_nops_end [] 7 b)
  · refine (before [1, 2, 3, 4, 5, 6] rfl rfl).trans ?_
    obtain ⟨b', hb', place⟩ := staysAtPlace_x word (State.readMarks (atSlot s 7 []) i)
    obtain rfl : b = b' := Host.Outcome.next.inj (hb.symm.trans hb')
    obtain ⟨slot, pending⟩ := (samePlace_readMarks (atSlot s 7 []) i).trans place
    have same : atSlot b 7 [] = b := by
      unfold atSlot
      rw [← show b.bun.slot = 7 from slot, ← show b.pending = [] from pending]
    rw [same]
    rfl

/-- Settles O55. -/
theorem stepRunsTheDecodedInstruction : Obligations.StepRunsTheDecodedInstruction := by
  intro s c j k h w i rest h1 h7 s0 ws t0 u v v' v1 is agenda running can awake goes words hi legal free cr owed
  have issues : Issues s0 c j ws t0 u v v' v1 := ⟨rfl, rfl, rfl, rfl, rfl, running, can, awake, goes, words, legal, free, cr, owed⟩
  have slots : is = [1, 2, 3, 4, 5, 6, 7].map (slotForm k i) := decodedSlots_oneWord h7 hi
  have bun := congrArg Bundle.words issues.bun
  have issued := exec_bundleIssue issues rfl
  have hws : ws ≠ [] := by simp [ws]
  clear_value u v v' v1
  obtain ⟨b, hb, runs⟩ := runSlots_oneWord h1 h7 hi { v1 with pending := is }
  rw [← slots] at hb runs
  refine ⟨b, hb, ?_⟩
  have ran : runSlots is { v1 with pending := is } = .next (atSlot b 7 []) := runs
  show s.go = _
  rw [go_agenda agenda (.inl rfl), runEvent_next issued]
  have more : v1.bun.words.isEmpty = false := by
    rw [bun]
    exact List.isEmpty_eq_false_iff.mpr hws
  unfold finishSlots
  rw [if_neg (by rw [more]; exact Bool.false_ne_true)]
  show (match runSlots is { v1 with pending := is } with | .next s => exec .bundleCommit { s with ev := [s.bun.core] } | o => o) = _
  rw [ran]
  rfl

end Sys2Proof.Proofs
